-- ==== Sys2Proof/Word.lean ====
section
/-! DEFINITION. The word types of the DQ4 model and their plainest arithmetic (R7: bits are numbered from 0 at the
least significant bit; multi-byte values are little-endian). -/

namespace Sys2Proof

/-- One byte. -/
abbrev Byte := BitVec 8

/-- A 32-bit register word (R38). -/
abbrev Word := BitVec 32

/-- A 64-bit word: a 64-bit field, a model-memory data word, an operand register. -/
abbrev Dword := BitVec 64

/-- A model-memory word as stored: 64 data bits in [63:0], 8 check bits in [71:64] (R152, R527). -/
abbrev StoredWord := BitVec 72

/-- The bits `[hi:lo]` of a natural number (R7). -/
def natBits (v hi lo : Nat) : Nat := (v / 2 ^ lo) % 2 ^ (hi + 1 - lo)

/-- Bit `i` of a natural number. -/
def natBit (v i : Nat) : Bool := v.testBit i

/-- A Boolean as 0 or 1. -/
def boolNat (b : Bool) : Nat := if b then 1 else 0

/-- `old` with bits `[hi:lo]` replaced by the low bits of `v`. -/
def natPut (old hi lo v : Nat) : Nat :=
  let w := 2 ^ (hi + 1 - lo)
  old - natBits old hi lo * 2 ^ lo + (v % w) * 2 ^ lo

/-- Addition that saturates at `cap`. -/
def satAdd (cap a b : Nat) : Nat := min cap (a + b)

/-- A natural number read as a signed number of `w` bits (R318: differences are read as signed). -/
def signedOf (w v : Nat) : Int :=
  let u := v % 2 ^ w
  if u < 2 ^ (w - 1) then (u : Int) else (u : Int) - (2 : Int) ^ w

/-- A signed number as `w` bits of two's complement. -/
def unsignedOf (w : Nat) (v : Int) : Nat := (v % (2 : Int) ^ w).toNat

/-- The little-endian value of a list of bytes (R7). -/
def leNat : List Byte → Nat
  | [] => 0
  | b :: bs => b.toNat + 256 * leNat bs

/-- The `n` little-endian bytes of a value (R7). -/
def leBytes : Nat → Nat → List Byte
  | 0, _ => []
  | n + 1, v => BitVec.ofNat 8 (v % 256) :: leBytes n (v / 256)

end Sys2Proof
end

