-- ==== Sys2Proof/Syntax.lean ====
section
/-! DEFINITION. The commands of the DQ4: one constructor of `Instr` for each row of spec/opcode_table.json, with the
operands that say which unit, requester or value the step concerns. The table gives no operands; the operands here are
what the numbered rules say the step acts on, and values that come from outside the package (a received message, a
sensor reading, a level on a pin) are operands too (assumption 1). -/

namespace Sys2Proof

/-- Who makes a register access: PG_ERR_INFO.requester (R39) with the VF number of class 1. -/
inductive Requester where
  | pf
  | vf (n : Nat)
  | fw
  | uc
  | dbg
  | secfw
  deriving DecidableEq, Repr

/-- The command rings: one per PCIe function (R431), the agent's and the board controller's (R435). -/
inductive Ring where
  | host (fn : Nat)
  | agent
  | bmc
  deriving DecidableEq, Repr

/-- The envelope of a firmware command: the ring it came on, the count at which it was taken, the descriptor's tag and
irq flag (R436, R437), whether the accesses to the buffers it names succeed (R438), and whether its ring was reset since it was
taken (R443). -/
structure Call where
  ring  : Ring
  index : Nat
  tag   : BitVec 32
  irq   : Bool
  dmaOk : Bool
  lost  : Bool
  deriving DecidableEq, Repr

/-- The hub requesters of a bank's dynamic port (R154). -/
inductive DynSrc where
  | host (fn : Nat)
  | dispatcher
  | scrubber
  | engine
  | firmware
  deriving DecidableEq, Repr

/-- A 64-byte request at a referee (R193): the offset within the pseudo-channel, its direction and data, the lock
length it carries when it is a head (R197; 1 asks for no lock), and the number by which its requester knows it. -/
structure RefReq where
  offset : Nat
  write  : Bool
  data   : List Byte
  lock   : Nat
  id     : Nat
  deriving DecidableEq, Repr

/-- How the HBM controller performs a request (R177, R191). -/
inductive HbmResult where
  | ok
  | corrected
  | ue
  deriving DecidableEq, Repr

/-- The PLLs with a lock detector (R26, R504). -/
inductive Pll where
  | step (die : Nat)
  | hub
  | hbm (k : Nat)
  | pcie
  | lane (group : Nat)
  deriving DecidableEq, Repr

/-- The eight die-to-die links (R19). -/
inductive D2dLink where
  | hub (die : Nat)
  | fabric01
  | fabric02
  | fabric13
  | fabric23
  deriving DecidableEq, Repr

/-- What the link's training leads to (R355): the link is up, in FLIT mode or not, or it rests in ASPM L1. -/
inductive LinkMode where
  | up (flit : Bool)
  | l1
  deriving DecidableEq, Repr

/-- Where a host access to a function's BAR4 starts in the addresses of register accesses, beyond BAR0's 64 MiB: the model's own
numbering (DESIGN CHOICE, assumption 122). -/
def bar4Base : Nat := 0x10000000

/-- Where a host access to a function's configuration space starts in those addresses (DESIGN CHOICE, assumption 122). -/
def configBase : Nat := 0x20000000

/-- An address of a register access by a host function that lies in its BAR4 or its configuration space. -/
def Requester.hostSpace (rq : Requester) (addr : Nat) : Bool :=
  (match rq with
    | .pf | .vf _ => true
    | _ => false) &&
  ((decide (bar4Base ≤ addr) && decide (addr < bar4Base + 0x200000)) || (decide (configBase ≤ addr) && decide (addr < configBase + 0x1000)))

/-- The resets of the PCIe controller (R366). -/
inductive PcieResetKind where
  | conventional
  | hot
  | linkDown
  deriving DecidableEq, Repr

/-- The reference clock inputs whose loss R503 covers. -/
inductive RefClk where
  | timeref
  | laneref
  | pcie
  deriving DecidableEq, Repr

/-- What brings about a device reset (R505). -/
inductive ResetCause where
  | powerOn
  | pin
  | cmd
  deriving DecidableEq, Repr

/-- What a boot directory lists for a partition (R409): used length, SM3 digest, security version, and whether its slot is B. -/
structure DirEntry where
  used    : Nat
  digest  : BitVec 256
  version : Nat
  slotB   : Bool
  deriving DecidableEq, Repr, Inhabited

/-- The parameters of a job's start (R448): the restraints' delays, the huddle's lag and checkpoint lead, the pin gate. -/
structure RunParams where
  d1      : Nat
  d2      : Nat
  d3      : Nat
  lag     : Nat
  ckLead  : Nat
  pinGate : Bool
  deriving DecidableEq, Repr, Inhabited

/-- What the configuration says (R407, R416, R499, R502): the pins' functions, the segments and lane groups to switch on, the agent's
function, and with which parameters the auto-loaded job is started, if it is. -/
structure ConfigChoice where
  pins         : List (Nat × BitVec 32)
  segmentsOn   : BitVec 64
  laneGroupsOn : BitVec 4
  agentFn      : Nat
  autoStart    : Option RunParams
  deriving DecidableEq, Repr, Inhabited

/-- What training finds at a boot (R21, R177, R414): the pseudo-channels trained and the die-to-die links that failed. -/
structure BootInput where
  pcTrained   : BitVec 128
  linksFailed : List D2dLink
  deriving DecidableEq, Repr, Inhabited

/-- A vote at word `word` of the scrubber's configuration, after upsets have inverted the bits `bits0`–`bits2` of its three copies
(R257). -/
structure TmrVote where
  word  : Nat
  bits0 : BitVec 32
  bits1 : BitVec 32
  bits2 : BitVec 32
  deriving DecidableEq, Repr

/-- A stretch of the line of a lane in TEST: the bits at its input (R308). -/
structure Heard where
  lane : Nat
  bits : List Bool
  deriving DecidableEq, Repr

/-- A NoC packet's header flit and data flits (R369). -/
structure NocPacket where
  header : BitVec 512
  data   : List (BitVec 512)
  deriving DecidableEq, Repr

/-- A retired user-core instruction: what the trace encoder sees of it (R477), and what it leaves in the core (R405, R473, R474): its
length, the mode after it, the register and the CSR that it writes, the CSR that it reads, and, where it is an LR, an SC or clears the
reservation, whether one is held after it. RV32IMAC is a standard that the spec names and does not restate, so the command carries what
the instruction computes (assumption 126). -/
structure Retired where
  pc       : BitVec 32
  mode     : BitVec 2
  branch   : Option Bool
  target   : Option (BitVec 32)
  trap     : Option (Bool × BitVec 5 × BitVec 32)
  mem      : Option (Bool × BitVec 2 × BitVec 32 × BitVec 32)
  cycles   : Nat
  short    : Bool := false
  after    : BitVec 2 := mode
  rd       : Option (BitVec 5 × BitVec 32) := none
  csr      : Option (BitVec 12 × BitVec 32) := none
  csrRead  : Option (BitVec 12) := none
  reserve  : Option Bool := none
  deriving DecidableEq, Repr

/-- What a comparator is asked to match (R470): the pc of an instruction about to execute, or an access made, a store or a load, at an
address. -/
inductive Compared where
  | instr
  | access (store : Bool) (addr : BitVec 32)
  deriving DecidableEq, Repr

/-- The readings of one 100 µs sample (R421): temperatures in units of 0.25 °C, voltages in mV, currents in 10 mA, and whether a voltage
monitor that is out of its limits has been so for 10 µs. -/
structure SensorReading where
  temps      : List (BitVec 11)
  volts      : List (BitVec 16)
  currents   : List (BitVec 20)
  volt10us   : Bool
  deriving DecidableEq, Repr

/-- Sources of a trace trigger (R478 MARK, R482). -/
inductive TraceTrigSrc where
  | debugEvent
  | pin
  | register
  deriving DecidableEq, Repr

/-- The commands. Each constructor is a row of spec/opcode_table.json; its docstring gives the row's rule. -/
inductive Instr where
  /-- R96: one non-hold, non-pad STEPCLK period, named by a segment that executes a programmed step in it. -/
  | sequencerStep (seg : Nat)
  /-- R91: one STEPCLK period in which the named segment pads. -/
  | padStep (seg : Nat)
  /-- R101: one hold step of a job. -/
  | holdStep (job : Nat)
  /-- R105: a pending halt of a job takes effect. -/
  | haltTakesEffect (job : Nat)
  /-- R192 -/
  | holdTimeout (job : Nat)
  /-- R62: BP `bp` of package cluster `cl` executes the NOP of the position. -/
  | nop (cl bp : Nat)
  /-- R63 -/
  | eval (cl bp : Nat)
  /-- R80 -/
  | shift (cl bp : Nat)
  /-- R73 -/
  | load (cl bp : Nat)
  /-- R83: the maintenance port writes back an entry. -/
  | istoreWriteback (cl bp entry : Nat)
  /-- R88: a write to FABC_BP_INJ. -/
  | bpEccInject (rq : Requester) (cl : Nat) (value : BitVec 32)
  /-- R115: a write to FABC_CW_INJ. -/
  | cwEccInject (rq : Requester) (cl : Nat) (value : BitVec 32)
  /-- R136: a write to FABC_NET_INJ. -/
  | netEccInject (rq : Requester) (cl : Nat) (value : BitVec 32)
  /-- R140 -/
  | wauLoad (cl : Nat)
  /-- R143 -/
  | add64 (cl : Nat)
  /-- R143 -/
  | mul32 (cl : Nat)
  /-- R144 -/
  | cmul16 (cl : Nat)
  /-- R145 -/
  | mac48 (cl : Nat)
  /-- R146 -/
  | norm64 (cl : Nat)
  /-- R147 -/
  | expx (cl : Nat)
  /-- R146 -/
  | clz64 (cl : Nat)
  /-- R139 -/
  | wauResult (cl : Nat)
  /-- R156 -/
  | bankRead (cl bank : Nat)
  /-- R156 -/
  | bankWriteGather (cl bank : Nat)
  /-- R156 -/
  | bankWriteResult (cl bank : Nat)
  /-- R157 -/
  | wauPortRead (cl bank : Nat)
  /-- R165: the oldest pending write-back of package bank `bank`. -/
  | mbEccWriteback (bank : Nat)
  /-- R167: a write to FABC_MB_INJ. -/
  | mbEccInject (rq : Requester) (cl : Nat) (value : BitVec 32)
  /-- R163: `busy` says whether the fabric holds the bank cycle the request needs (R159, R161). -/
  | mbDynRead (src : DynSrc) (bank word : Nat) (busy : Bool)
  /-- R163 -/
  | mbDynWrite (src : DynSrc) (bank word : Nat) (data : BitVec 64) (busy : Bool)
  /-- R163 -/
  | mbDynMaskedWrite (src : DynSrc) (bank word : Nat) (data : BitVec 64) (mask : BitVec 8) (busy : Bool)
  /-- R163 -/
  | mbDynAdd (src : DynSrc) (bank word : Nat) (operand : BitVec 64) (busy : Bool)
  /-- R163 -/
  | mbDynSwap (src : DynSrc) (bank word : Nat) (operand : BitVec 64) (busy : Bool)
  /-- R161: the oldest waiting request of a bank is presented again. -/
  | mbDynRetry (bank : Nat) (busy : Bool)
  /-- R233 -/
  | bulkClearDone (job : Nat)
  /-- R171 -/
  | bankWakeDone (seg : Nat)
  /-- R182 -/
  | mqIssueRead (cl : Nat)
  /-- R182 -/
  | mqIssueWrite (cl : Nat)
  /-- R183 -/
  | mqTagGrant (cg : Nat)
  /-- R186 -/
  | mqWait (cl : Nat)
  /-- R188 -/
  | mqReturnTake (cl : Nat)
  /-- R184: the request with this tag completes as the controller performed it. -/
  | mqCompletion (tag : Nat) (result : HbmResult)
  /-- R193 -/
  | refereeRequestArrive (pc requester : Nat) (req : RefReq)
  /-- R195: one HUBCLK cycle's decision of referee `pc`. -/
  | refereeDecision (pc : Nat)
  /-- R195 -/
  | requestWithdraw (pc requester : Nat)
  /-- R202 -/
  | refCntClr (rq : Requester) (pc : Nat) (value : BitVec 32)
  /-- R178: the stack's temperature in °C. -/
  | hbmRefreshRateChange (stack : Nat) (degC : BitVec 8)
  /-- R177 -/
  | pcOutOfService (pc : Nat)
  /-- R262: the held queue write at the head of referee `pc` for cluster-group port `port`. -/
  | undoLogCapture (pc port : Nat)
  /-- R42: `addr` is the BAR0 offset, or one of the function's BAR4 or configuration space (R357, R364); `width` the access width in
  bits. -/
  | regWrite (rq : Requester) (addr width : Nat) (data : BitVec 64)
  /-- R10 -/
  | rcRead (rq : Requester) (addr width : Nat)
  /-- R38 -/
  | lowWordRead (rq : Requester) (addr : Nat)
  /-- R56 -/
  | debugRead (addr width : Nat)
  /-- R37 -/
  | unmappedAccess (rq : Requester) (addr : Nat) (write : Bool)
  /-- R47: the timer of the group of page `page` that starts at page offset `group` expires. -/
  | pairTimeout (page group : Nat)
  /-- R11 -/
  | softReset (rq : Requester) (page : Nat)
  /-- R36 -/
  | pgEnableWrite (rq : Requester) (page : Nat) (enable : Bool)
  /-- R39 -/
  | pgIrqClear (rq : Requester) (page : Nat) (value : BitVec 32)
  /-- R39 -/
  | pgIrqSet (rq : Requester) (page : Nat) (value : BitVec 32)
  /-- R50 -/
  | pgTxnBegin (rq : Requester) (page : Nat) (timeoutUs : BitVec 16)
  /-- R53 -/
  | pgTxnCommit (rq : Requester) (page : Nat)
  /-- R55 -/
  | pgTxnRollback (rq : Requester) (page : Nat)
  /-- R52 -/
  | devTxnBegin (rq : Requester) (slot : Nat)
  /-- R53 -/
  | devTxnCommit (rq : Requester) (slot : Nat)
  /-- R55 -/
  | devTxnRollback (rq : Requester) (slot : Nat)
  /-- R55: the timeout of page `n` (`slot = false`) or of DEV slot `n` (`slot = true`) expires. -/
  | txnTimeout (slot : Bool) (n : Nat)
  /-- R114 -/
  | linePulse (rq : Requester) (seg : Nat) (value : BitVec 32)
  /-- R26 -/
  | stepclkPllUnlock (die : Nat)
  /-- R26 -/
  | hubPllUnlock
  /-- R280 -/
  | pllRelock (pll : Pll)
  /-- R504 -/
  | clkStepWrite (rq : Requester) (n : BitVec 32)
  /-- R504 -/
  | stepclkRelock
  /-- R21 -/
  | linkTraining (link : D2dLink) (ok : Bool)
  /-- R22 -/
  | linkUe (link : D2dLink)
  /-- R252 -/
  | scrubSweepStart
  /-- R252 -/
  | scrubPiece
  /-- R255 -/
  | scrubPatrolRead
  /-- R257: `rewriteHolds` says whether a copy that is rewritten then reads as the majority. -/
  | scrubTmrFix (vote : TmrVote) (rewriteHolds : Bool)
  /-- R258 -/
  | scrubSigCheck
  /-- R250 -/
  | eccCounterPoll
  /-- R251 -/
  | faultHandlingStart (job : Nat)
  /-- R270 -/
  | rollbackStart (job : Nat)
  /-- R270: `corrupt` says whether a block of the chosen checkpoint fails its CRC (R273). -/
  | restoreComplete (job : Nat) (corrupt : Bool)
  /-- R261: the length of the pause in ns. -/
  | ckptCopyComplete (job : Nat) (pauseNs : BitVec 32)
  /-- R263 -/
  | ckptRetireAge (job : Nat)
  /-- R267: the log's fill in percent. -/
  | replayLogThreshold (job : Nat) (fill : Nat)
  /-- R278 -/
  | compareSignatures (job : Nat)
  /-- R329 -/
  | ckAnnounce (job : Nat)
  /-- R306: a write of LANE_CTL. -/
  | laneUpWrite (rq : Requester) (lane : Nat) (value : BitVec 32)
  /-- R306 -/
  | signalDetected (lane : Nat)
  /-- R306 -/
  | alignDone (lane : Nat)
  /-- R306 -/
  | alignTimeout (lane : Nat)
  /-- R306 -/
  | trainDone (lane : Nat)
  /-- R306 -/
  | trainTimeout (lane : Nat)
  /-- R302 -/
  | measureDone (lane : Nat)
  /-- R307 -/
  | lockLost (lane : Nat)
  /-- R306 -/
  | lanePllUnlock (group : Nat)
  /-- R296: the next of the four messages of a frame leaves; `stamp` is the sender's step counter at the departure of CW0. -/
  | frameTransmit (lane : Nat) (stamp : BitVec 16)
  /-- R290: the message bits after RS decoding, whether the RS codeword was correctable, the symbols corrected and
  the receiver's step counter at decoding. -/
  | codewordMessageRx (lane : Nat) (msg : BitVec 5140) (rsOk : Bool) (corrected : Nat) (stamp : BitVec 16)
  /-- R297 -/
  | controlFrameRx (lane frame : Nat)
  /-- R298 -/
  | replayMarkerRx (lane : Nat) (m : BitVec 64) (attempt : BitVec 8)
  /-- R304 -/
  | fomUpdate (lane : Nat) (fom : BitVec 8)
  /-- R308: a stretch of the line in TEST. -/
  | patternCheckerLock (heard : Heard)
  /-- R311 -/
  | lanePatClr (rq : Requester) (lane : Nat)
  /-- R309 -/
  | laneInjFire (rq : Requester) (lane : Nat)
  /-- R312 -/
  | timerefTick
  /-- R313 -/
  | timeNowLatch (rq : Requester)
  /-- R315 -/
  | timeSet (rq : Requester)
  /-- R316 -/
  | timeAdj (rq : Requester)
  /-- R315 -/
  | timeCmdArm (rq : Requester)
  /-- R316 -/
  | timeCancel (rq : Requester)
  /-- R319 -/
  | timeCompareFire (j : Nat)
  /-- R319 -/
  | timeCmpPulseEnd (j : Nat)
  /-- R320: the edge's direction and the counter as interpolated at that MGTCLK edge. -/
  | timeCaptureEdge (k : Nat) (rising : Bool) (ns : BitVec 4) (frac low : BitVec 16)
  /-- R320 -/
  | timeCapRead (rq : Requester) (k : Nat)
  /-- R338 -/
  | capBoundaryMarker (seg : Nat)
  /-- R339 -/
  | capRecordAssemble
  /-- R348 -/
  | capRearmDone
  /-- R349 -/
  | capGap
  /-- R348 -/
  | capArm (rq : Requester)
  /-- R348 -/
  | capStop (rq : Requester)
  /-- R340 -/
  | capTrigger (rq : Requester)
  /-- R355, R356: the highest rate both ends support, the width, and what the link comes to: up, in FLIT mode or not, or L1. -/
  | pcieLinkTraining (partnerSpeed : BitVec 3) (width : BitVec 5) (mode : LinkMode)
  /-- R366 -/
  | pcieReset (kind : PcieResetKind)
  /-- R366 -/
  | flr (fn : Nat)
  /-- R360 -/
  | bar2Read (fn offset size : Nat)
  /-- R360 -/
  | bar2Write (fn offset : Nat) (bytes : List Byte)
  /-- R361: `kind` 0 FetchAdd, 1 Swap, 2 CAS; `size` in bits. -/
  | pcieAtomic (fn bar offset kind size : Nat) (operand : BitVec 64)
  /-- R365 -/
  | msixUnmask (fn vector : Nat)
  /-- R369 -/
  | nocPacket (packet : NocPacket)
  /-- R374 -/
  | devWhistleAssert (rq : Requester)
  /-- R376 -/
  | devWhistleClear (rq : Requester)
  /-- R374 -/
  | whistleIn
  /-- R431 -/
  | mboxDbCmd (fn : Nat) (value : BitVec 32)
  /-- R431 -/
  | mboxDbCpl (fn : Nat) (value : BitVec 32)
  /-- R432 -/
  | mboxRingEnable (rq : Requester) (fn : Nat)
  /-- R432: whether the host-memory access to the ring succeeded, and whether those to the command's own buffers will. -/
  | commandTake (ring : Ring) (dmaOk bufOk : Bool)
  /-- R435: the agent's counts as firmware reads them. -/
  | agentRingPoll (posted consumed : BitVec 32)
  /-- R495: the 64 bytes in the command register. -/
  | bmcSubmit (descriptor : List Byte)
  /-- R495 -/
  | bmcAck
  /-- R390 -/
  | dispatchDoorbell (fn handle : Nat) (pidx : BitVec 32)
  /-- R395: engine `engine` becomes free and selects. -/
  | engineSelect (engine : Nat)
  /-- R396: `dmaOk` says whether the host-memory accesses succeeded. -/
  | enginePacketDone (engine : Nat) (dmaOk : Bool)
  /-- R397 -/
  | d2hTake (job port : Nat)
  /-- R388 -/
  | flowCreate (fn job port channel group : Nat) (ringBase : BitVec 64) (ringLog2 : Nat) (cidxWb : BitVec 64)
      (vector irqEvery : Nat)
  /-- R393 -/
  | flowRestart (fn handle : Nat)
  /-- R393 -/
  | flowDestroy (fn handle : Nat)
  /-- R406 -/
  | lockstepFault
  /-- R475: `early` says that the expiry falls within 10 s of the boot. -/
  | wdt1Expire (early : Bool)
  /-- R407 -/
  | wdt0Expire
  /-- R476 -/
  | wdt0Kick (rq : Requester) (key : BitVec 32)
  /-- R407 -/
  | agentFault
  /-- R421 -/
  | sensorSample (reading : SensorReading)
  /-- R421 -/
  | voltRecovered
  /-- R426 -/
  | eventRaise (source : Nat) (code : BitVec 16) (job : BitVec 8) (severity : BitVec 8) (detail : List (BitVec 32))
  /-- R423 -/
  | logFlush
  /-- R424: `hour` marks the hourly sample. -/
  | scoreboardSample (hour : Bool)
  /-- R424 -/
  | scoreboardWrite
  /-- R445 -/
  | devInfo (c : Call)
  /-- R445 -/
  | devStatus (c : Call)
  /-- R446 -/
  | devPower (c : Call) (domain op : Nat)
  /-- R445 -/
  | devClock (c : Call) (n : Nat)
  /-- R445 -/
  | devWhistle (c : Call) (op : Nat)
  /-- R445 -/
  | devShutdown (c : Call)
  /-- R445 -/
  | devNop (c : Call) (data : List Byte)
  /-- R227 -/
  | jobCreate (c : Call) (mask : BitVec 64) (fn : Nat)
  /-- R243 -/
  | jobDestroy (c : Call) (job : Nat) (keep : Bool)
  /-- R447 -/
  | jobQuery (c : Call) (job : Nat)
  /-- R447 -/
  | jobWindowAlloc (c : Call) (job octant units : Nat)
  /-- R447 -/
  | jobWindowFree (c : Call) (job octant units offset : Nat)
  /-- R230: `hbm` selects the source, `address` and `len` the image, `report` and `capacity` the report buffer. -/
  | imgLoad (c : Call) (job : Nat) (hbm shift compare : Bool) (address : BitVec 64) (len : Nat) (report : BitVec 64)
      (capacity : Nat)
  /-- R239 -/
  | imgReload (c : Call) (job : Nat) (hbm shift : Bool) (address : BitVec 64) (len : Nat) (report : BitVec 64)
      (capacity boundaries : Nat)
  /-- R240 -/
  | regionStoresWritten (job : Nat)
  /-- R447 -/
  | imgInfo (c : Call) (job : Nat)
  /-- R235 -/
  | runStart (c : Call) (job d1 d2 d3 lag ckLead : Nat) (pinGate : Bool)
  /-- R448 -/
  | runHalt (c : Call) (job : Nat)
  /-- R448 -/
  | runResume (c : Call) (job : Nat)
  /-- R242 -/
  | runStop (c : Call) (job : Nat)
  /-- R449 -/
  | runUntil (c : Call) (job : Nat) (target : BitVec 64)
  /-- R450 -/
  | stateRead (c : Call) (job first count : Nat) (buffer : BitVec 64)
  /-- R450 -/
  | stateWrite (c : Call) (job first count : Nat) (buffer : BitVec 64)
  /-- R259 -/
  | ckptEnable (c : Call) (job intervalLog2 replayLimit logGib storeGib : Nat) (ext : BitVec 64)
  /-- R275 -/
  | ckptDisable (c : Call) (job : Nat)
  /-- R260 -/
  | ckptRequest (c : Call) (job : Nat)
  /-- R451 -/
  | ckptList (c : Call) (job : Nat) (buffer : BitVec 64) (capacity : Nat)
  /-- R452 -/
  | ckptReplay (c : Call) (job mode : Nat) (target : BitVec 64)
  /-- R451 -/
  | capOpen (c : Call) (job sizeLog2 count : Nat)
  /-- R451 -/
  | capClose (c : Call) (job : Nat)
  /-- R453 -/
  | laneUp (c : Call) (lanes : BitVec 64) (coding reach preset : Nat) (autoRetrain : Bool) (lambda pkg : Nat)
      (timeoutMs : Nat)
  /-- R453 -/
  | laneDown (c : Call) (lanes : BitVec 64)
  /-- R453 -/
  | laneStatus (c : Call) (buffer : BitVec 64)
  /-- R323 -/
  | timePtpOn (c : Call) (lanes : BitVec 64) (domain pps : Nat) (asymmetry : BitVec 64)
  /-- R453 -/
  | timePtpOff (c : Call)
  /-- R453 -/
  | timePtpStatus (c : Call)
  /-- R453 -/
  | timeUnit (c : Call) (unit : Nat) (target : BitVec 64) (period control : BitVec 32)
  /-- R453 -/
  | timeArm (c : Call)
  /-- R412 -/
  | secOwner (c : Call) (buffer : BitVec 64)
  /-- R455 -/
  | secKeySet (c : Call) (buffer : BitVec 64)
  /-- R455 -/
  | secKeyClear (c : Call) (buffer : BitVec 64)
  /-- R418 -/
  | secAttest (c : Call) (nonce : BitVec 256) (buffer : BitVec 64)
  /-- R454 -/
  | secIdentity (c : Call) (buffer : BitVec 64) (capacity : Nat)
  /-- R454 -/
  | logRead (c : Call) (fromCursor : Bool) (maxEntries : Nat) (buffer : BitVec 64)
  /-- R426 -/
  | logAck (c : Call) (first : Nat) (mask : BitVec 64)
  /-- R454 -/
  | logRoute (c : Call) (source : Nat) (value : BitVec 32)
  /-- R456 -/
  | scoreRead (c : Call) (offset len : Nat) (buffer : BitVec 64)
  /-- R454 -/
  | updBegin (c : Call) (kind len : Nat)
  /-- R454 -/
  | updData (c : Call) (offset len : Nat) (buffer : BitVec 64)
  /-- R420 -/
  | updFinish (c : Call)
  /-- R420 -/
  | updActivate (c : Call)
  /-- R420 -/
  | updCommit (c : Call) (kind : Nat)
  /-- R454 -/
  | updAbort (c : Call)
  /-- R457 -/
  | idcode
  /-- R458: the levels the cells sample from the pins, and the bits shifted in. -/
  | samplePreload (pins shiftIn : BitVec 493)
  /-- R459 -/
  | extest (pins shiftIn : BitVec 493)
  /-- R458 -/
  | extestPulse (pins shiftIn : BitVec 493)
  /-- R458 -/
  | extestTrain (pins shiftIn : BitVec 493)
  /-- R458: `sysRstN` is the level of SYS_RST_N (R459). -/
  | clamp (sysRstN : Bool)
  /-- R458 -/
  | highz (sysRstN : Bool)
  /-- R458 -/
  | bypass
  /-- R461 -/
  | dapStat
  /-- R460: the 72 bits shifted in. -/
  | dapAccUpdate (bits : BitVec 72)
  /-- R460 -/
  | dapAccCapture
  /-- R460 -/
  | dapAccessDone
  /-- R462 -/
  | dbgRstN
  /-- R464 -/
  | dbgAuthChallenge (rq : Requester)
  /-- R464 -/
  | dbgAuthVerify (rq : Requester) (scope : BitVec 2)
  /-- R464 -/
  | dbgAuthVerifyDone
  /-- R465 -/
  | dbgAuthLock (rq : Requester)
  /-- R464 -/
  | dbgChallengeExpire
  /-- R466 -/
  | packageHalt (rq : Requester)
  /-- R467 -/
  | packageResume (rq : Requester)
  /-- R473: the pc and mode of the user core's next instruction, and whether it holds an LR reservation. -/
  | ucHaltRequest (rq : Requester) (pc : BitVec 32) (mode : BitVec 2) (reserved : Bool)
  /-- R470 -/
  | ebreak (pc : BitVec 32) (mode : BitVec 2)
  /-- R470: `data` tells a data comparator from an instruction comparator. -/
  | comparatorMatch (what : Compared) (n : Nat) (pc : BitVec 32) (mode : BitVec 2)
  /-- R471: the value written to dmon_ctl. -/
  | monitorExit (ctl : BitVec 32)
  /-- R472 -/
  | stepEvent (pc : BitVec 32) (mode : BitVec 2)
  /-- R474 -/
  | dccTxPush (word : BitVec 32)
  /-- R474 -/
  | dccTxRead (rq : Requester)
  /-- R474 -/
  | dccTxPop (rq : Requester)
  /-- R474 -/
  | dccRxPush (rq : Requester) (word : BitVec 32)
  /-- R474 -/
  | dccRxRead
  /-- R482 -/
  | traceStart (rq : Requester)
  /-- R482 -/
  | traceStop (rq : Requester)
  /-- R482 -/
  | traceTrigger (source : TraceTrigSrc)
  /-- R482 -/
  | traceWindowDone
  /-- R482 -/
  | traceSinkFull
  /-- R480 -/
  | ucSleep (cycles : Nat)
  /-- R480 -/
  | ucWake (pc : BitVec 32) (mode : BitVec 2)
  /-- R491 -/
  | gpioSet (rq : Requester) (w : Nat) (bits : BitVec 32)
  /-- R491 -/
  | gpioClr (rq : Requester) (w : Nat) (bits : BitVec 32)
  /-- R491 -/
  | gpioTgl (rq : Requester) (w : Nat) (bits : BitVec 32)
  /-- R492 -/
  | gpioXbarSelWrite (rq : Requester) (pin : Nat) (sel : BitVec 8)
  /-- R501 -/
  | pwrReqGo (rq : Requester) (value : BitVec 32)
  /-- R501 -/
  | domainSwitchOnDone (pd : Nat)
  /-- R501 -/
  | domainSwitchOffDone (pd : Nat)
  /-- R509 -/
  | rstCmd (rq : Requester) (key : BitVec 32) (boot : BootInput)
  /-- R505 -/
  | deviceReset (cause : ResetCause) (boot : BootInput)
  /-- R505 -/
  | powerOnReset (boot : BootInput)
  /-- R506 -/
  | thermalTrip
  /-- R503 -/
  | refclkLoss (clk : RefClk)
  /-- R230 -/
  | loadingComplete (job : Nat)
  /-- R234 -/
  | preloadComplete (job : Nat)
  /-- R243 -/
  | destroyComplete (job : Nat)
  /-- R453 -/
  | laneUpTimeout
  /-- R376 -/
  | whistleInFall
  /-- R362: the request requester 20 or another hub requester had granted at referee `pc` completes. -/
  | hbmRequestComplete (pc : Nat) (result : HbmResult)
  /-- R477 -/
  | retiredInstruction (r : Retired)
  deriving DecidableEq, Repr

end Sys2Proof
end

