-- ==== Sys2Proof/Config.lean ====
section
/-! DEFINITION. What one part fixes (fuses, keys, external standards) and the free values of the spec. Every constant
here without a body is a value the spec leaves to the part or leaves open: nothing in Lean can evaluate it. -/

namespace Sys2Proof.Config

/-! ### The part -/

/-- DEV_INFO.grade as fused (R428): `true` is grade -10 (R1). -/
opaque gradeTen : Bool

/-- DEV_INFO.rev (R428, R528). -/
def siliconRev : BitVec 8 := 1

/-- The 64-bit serial number (R528). -/
opaque serial : BitVec 64

/-- FABC_MB_REPAIR of a package cluster as fused (R169, R173). -/
opaque mbRepair : Nat → BitVec 32

/-- The device public key, made at the first boot and held in flash (R409, R413): 64 bytes, byte `i`. -/
opaque deviceKey : Nat → BitVec 8

/-- The secure-core certificate chain's bytes (R413, R454). -/
opaque certificate : Nat → BitVec 8

/-- PG_CAP.txn_capable of a page kind whose chapter does not state it (R39: per block); keyed by block_type. -/
opaque txnCapable : Nat → Bool

/-- PG_CAP.block of a page (R39: per block), keyed by page number. -/
opaque capBlock : Nat → BitVec 28

/-- The transmit taps of preset `n`, c(−2) in bits [7:0] to c(1) in [31:24], from the boot configuration in flash (R305). -/
opaque lanePreset : Nat → BitVec 32

/-- SM3 of the boot ROM (R417). -/
opaque romDigest : BitVec 256

/-- The severity that firmware gives an event's code (R423 names four and assigns none). -/
opaque severity : Nat → BitVec 2

/-- Which source of a range of sources an event uses (R425 gives ranges): keyed by code. -/
opaque sourceIndex : Nat → BitVec 5

/-- The event code of a page's interrupt cause: keyed by source × 32 + cause bit (R425 assigns none). -/
opaque irqCode : Nat → BitVec 16

/-- The byte address, in the debug port's space 1, at which the 256 KiB shared window begins (R460, R463: no map is given). -/
opaque sharedBase : Nat

/-! ### External standards the spec names and does not restate -/

/-- SM3 of a message of bytes (R210, R213, R418). -/
opaque sm3 : List (BitVec 8) → BitVec 256

/-- Verification of an SM2 signature: key, message digest, signature (R213, R412, R417, R464). -/
opaque sm2Verify : BitVec 512 → BitVec 256 → BitVec 512 → Bool

/-- The device's SM2 signature of a digest, number `n` made since reset (R418). -/
opaque sm2Sign : BitVec 256 → Nat → BitVec 512

/-- The package's clockIdentity (R323, R453). -/
opaque clockIdentity : BitVec 64

/-- The data set that the best-master-clock algorithm compares, as it stands for the package: priority1, clockQuality, priority2 and
clockIdentity, 14 octets (R323). -/
opaque ptpDataset : BitVec 112

/-- The fixed delay of the capture channels' synchroniser in units of 2^-32 ns (R320). -/
opaque captureDelay : Nat

/-- The public key whose SM3 is a fused digest, as a verifier holds it (R411). -/
opaque keyOfDigest : BitVec 256 → BitVec 512

/-- SM3 of the Ngarath root public key, in fuses (R411). -/
opaque rootDigest : BitVec 256


/-- The security version, 0–63, in an update package's header (R419). -/
opaque packageVersion : List (BitVec 8) → BitVec 6

/-- The contents of the flash partitions as production left them (R409): by package type × 2 + slot, 12 the trim partition. -/
opaque production : Nat → List (BitVec 8)

/-- The type, the length of the body and its SM3 digest in a package's header (R419, which does not lay it out). -/
opaque packageHeader : List (BitVec 8) → Nat × Nat × BitVec 256

/-- A package's body (R419). -/
opaque packageBody : List (BitVec 8) → List (BitVec 8)

/-- The bytes that a package's signature covers (R419). -/
opaque packageSigned : List (BitVec 8) → List (BitVec 8)

/-- A package's signature (R411, R419). -/
opaque packageSignature : List (BitVec 8) → BitVec 512

/-- The identity public key's digest to which a feature package is bound, if it is (R419). -/
opaque packageBinding : List (BitVec 8) → Option (BitVec 256)

/-- The feature packages that the feature partition holds, in load order (R409, R417). -/
opaque featurePackages : List (BitVec 8) → List (List (BitVec 8))

/-- What a boot directory lists for a partition, by package type, 6 the trim partition (R409). -/
opaque directoryEntry : List (BitVec 8) → Nat → DirEntry

/-- What a configuration partition says (R407, R416, R499, R502). -/
opaque configChoice : List (BitVec 8) → ConfigChoice

/-- The packets that a group's spill ring of 64 MiB holds, of a format internal to the device (R397, R402). -/
opaque spillPackets : BitVec 32

/-- The length in bytes of the production certificate (R413). -/
opaque certificateLen : Nat

/-- 32-bit words of the scrubber's sweep schedule and table (R257), which the spec does not lay out. -/
opaque scrubWords : Nat

/-- Word `i` of the sweep schedule and table that firmware writes for the jobs whose stores are loaded, given by number and segment
mask (R257). -/
opaque scrubWord : Nat → List (Nat × Nat) → BitVec 32

/-- The period and the duty of PWM output `n` in MGTCLK cycles, as the register words of the PWM controller give them, by offset (R494,
whose registers the spec does not lay out). -/
opaque pwmTiming : Nat → List (Nat × BitVec 32) → BitVec 16 × BitVec 16

/-- The register of a UART at an offset takes the bytes to be sent (R494). -/
opaque uartTx : Nat → Bool

/-! ### Free values -/

/-- A bit the spec leaves open, for use number `n` (log entry 3). -/
opaque freeBit : Nat → Bool

/-- A byte the spec leaves open. -/
opaque freeByte : Nat → BitVec 8

/-- A register word the spec leaves open. -/
opaque freeWord : Nat → BitVec 32

/-- A 64-bit word the spec leaves open. -/
opaque freeDword : Nat → BitVec 64

/-- A delay, duration or count that firmware or the hardware chooses. -/
opaque freeNat : Nat → Nat

/-- What training finds at the boot after a reset that a register write starts (R414, R509). -/
opaque freeBoot : Nat → BootInput

/-- Bytes of a random number (R464, R418): drawn as number `n`. -/
opaque random : Nat → BitVec 256

end Sys2Proof.Config
end

