-- ==== Sys2Proof/Machine/Sparse.lean ====
section
/-! DEFINITION. Sparse tables in canonical form: keys strictly rising, no entry equal to the table's default. Every
memory, store, register file and table of units in `State` is one of these, so equal contents are equal data. -/

namespace Sys2Proof.Machine

/-- A table from natural-number keys, listing only the entries that differ from the table's default. -/
abbrev Sparse (α : Type) := List (Nat × α)

/-- What a table answers for a key; an unlisted key answers the default `d`. -/
def Sparse.get {α : Type} (d : α) : Sparse α → Nat → α
  | [], _ => d
  | (k, v) :: t, i => if i = k then v else Sparse.get d t i

/-- The table with key `i` removed. -/
def Sparse.erase {α : Type} : Sparse α → Nat → Sparse α
  | [], _ => []
  | (k, v) :: t, i => if i = k then Sparse.erase t i else (k, v) :: Sparse.erase t i

/-- The table with `v` listed under key `i`. -/
def Sparse.insert {α : Type} : Sparse α → Nat → α → Sparse α
  | [], i, v => [(i, v)]
  | (k, w) :: t, i, v =>
    if i = k then (i, v) :: t
    else if i < k then (i, v) :: (k, w) :: t
    else (k, w) :: Sparse.insert t i v

/-- The table with `v` under key `i`; writing the default removes the entry. -/
def Sparse.set {α : Type} [DecidableEq α] (d : α) (m : Sparse α) (i : Nat) (v : α) : Sparse α :=
  if v = d then Sparse.erase m i else Sparse.insert m i v

/-- The entries whose keys lie outside `lo` to `hi - 1`. -/
def Sparse.clearRange {α : Type} (m : Sparse α) (lo hi : Nat) : Sparse α :=
  m.filter (fun e => e.1 < lo || hi ≤ e.1)

/-- The entries whose keys lie in `lo` to `hi - 1`. -/
def Sparse.range {α : Type} (m : Sparse α) (lo hi : Nat) : Sparse α :=
  m.filter (fun e => lo ≤ e.1 && e.1 < hi)

/-- All keys of a table lie above `i`. -/
def Sparse.above {α : Type} (m : Sparse α) (i : Nat) : Bool := m.all (fun e => i < e.1)

/-- The canonical form: keys strictly rising, no entry equal to the default. -/
def Sparse.wf {α : Type} [DecidableEq α] (d : α) : Sparse α → Bool
  | [] => true
  | (k, v) :: t => Sparse.above t k && !(decide (v = d)) && Sparse.wf d t

/-- A byte memory is in canonical form. -/
abbrev Memory.wf (m : Sparse Byte) : Bool := Sparse.wf 0 m

/-- `n` bytes from key `a` of a byte table whose default is 0. -/
def Sparse.bytes (m : Sparse Byte) (a n : Nat) : List Byte :=
  (List.range n).map (fun i => Sparse.get 0 m (a + i))

/-- A byte table with a list of bytes stored from key `a` on. -/
def Sparse.putBytes (m : Sparse Byte) (a : Nat) : List Byte → Sparse Byte
  | [] => m
  | b :: bs => Sparse.putBytes (Sparse.set 0 m a b) (a + 1) bs

/-- The little-endian number in `n` bytes from key `a` (R7). -/
def Sparse.num (m : Sparse Byte) (a n : Nat) : Nat := leNat (Sparse.bytes m a n)

end Sys2Proof.Machine
end

