-- ==== Sys2Proof/Machine/State.lean ====
section
/-! DEFINITION. The state of one DQ4 package as plain data: every register, store, buffer, queue, counter, mode and pin
that the spec gives it, and the queue of waiting commands. -/

namespace Sys2Proof.Machine

/-! ### Outcomes that are no next state -/

/-- Faults. -/
inductive Fault where
  /-- Raised by no meaning: the block's own errors are register codes, fault records and events in its state. Safe. -/
  | none
  deriving DecidableEq, Repr

/-- Refusals. -/
inductive Refusal where
  /-- Raised by exec's arm of a command that has no meaning yet. Safe. -/
  | notModelled (mnemonic : String)
  deriving DecidableEq, Repr

/-! ### Register pages (R35–R56) -/

/-- The kinds of page (R35). -/
inductive PageKind where
  | dev | pwr | clk | rst | gpio | xbar | wdt | time | sens | dbg | trace | mbox | evt | noc | ref | hbmc | disp | cap
  | ckpt | scrub | laneGroup | lane | fabs | fabc
  deriving DecidableEq, Repr

/-- A write waiting in a shadow, a transaction or a partly written group: the word's address, which bits it writes and
with what, and who wrote it (R40, R43, R47, R49). -/
structure HeldWrite where
  addr : Nat
  mask : Word
  value : Word
  rq   : Requester
  deriving DecidableEq, Repr

/-- The states of a transaction (R39 PG_TXN_STAT.state). -/
inductive TxnState where
  | free | opened | commitPending | committed | rolledBack | member
  deriving DecidableEq, Repr

/-- A write that waits for its frozen page to unfreeze (R469): a word written to a register, where the static and staged part may have
gone to a transaction already, or a write that a transaction committed. -/
inductive FrozenWrite where
  | word (rq : Requester) (addr : Nat) (value : Word) (liveOnly : Bool)
  | held (w : HeldWrite)
  deriving DecidableEq, Repr

/-- What a page holds beside its registers: the shadow of its staged fields (R43), its partly written groups (R47),
the transaction that holds it (R49–R55) and the 64-bit holding registers, each by its requester and the page offset of
the high word (R38, R56), and whether it is frozen and what was written since (R469). -/
structure PageDyn where
  shadow   : List HeldWrite := []
  pairs    : List HeldWrite := []
  txn      : TxnState := .free
  opener   : Requester := .pf
  reason   : Nat := 0
  leftUs   : Nat := 0
  held     : List HeldWrite := []
  slot     : Option Nat := none
  holding  : List (Requester × Nat × Word) := []
  frozen   : Bool := false
  waits    : List FrozenWrite := []
  deriving DecidableEq, Repr

/-- A slot of the `DEV` page's multi-page transactions (R51), with the last write that its members hold (R40). -/
structure TxnSlot where
  state  : TxnState := .free
  opener : Requester := .pf
  reason : Nat := 0
  leftUs : Nat := 0
  pages  : List Nat := []
  last   : Option HeldWrite := none
  deriving DecidableEq, Repr

/-! ### The fabric (chapters 3–8) -/

/-- The states of a segment sequencer (R109). -/
inductive SeqState where
  | idle | run | pad | hold | halted | stopped | pause
  deriving DecidableEq, Repr

/-- One level of the repeat stack (R96): the descriptor's number, the iteration, and the saved offsets. OCR values are
held as increments over the clusters' initial values. -/
structure Frame where
  desc : Nat
  iter : Nat
  ofs  : List Nat
  rofs : Nat
  ocr  : List Nat
  deriving DecidableEq, Repr

/-- One segment's sequencer (R89–R115): its state and the state before a halt, the programmed step, the repeat stack,
OFS0–OFS3, the result offset, the increments of OCR0–OCR7, and its image's S, E, descriptors (eight words each) and
initial offsets; its hold counters; whether it is part of a region under reload (R135); and whether its page, reset under its job, shows
nothing of the job until the next start (R11). -/
structure Seq where
  state      : SeqState := .idle
  before     : SeqState := .idle
  k          : Nat := 0
  stack      : List Frame := []
  ofs        : List Nat := [0, 0, 0, 0]
  rofs       : Nat := 0
  ocr        : List Nat := [0, 0, 0, 0, 0, 0, 0, 0]
  cycLen     : Nat := 0
  execLen    : Nat := 0
  jobLen     : Nat := 0
  rpt        : List (List Nat) := []
  ofsInit    : List Nat := [0, 0, 0, 0]
  holdCount  : Nat := 0
  holdE      : Nat := 0
  holdCause  : Nat := 0
  holdBlocks : Nat := 0
  region     : Bool := false
  blank      : Bool := false
  deriving DecidableEq, Repr

/-- An operation in a WAU pipeline (R139): WAU.op, WAU.opnd, the position of issue, A and B as read at issue, and the
result once it is formed at the end of position `pos + n - 1`. -/
structure WauOp where
  op   : Nat
  opnd : Nat
  pos  : Nat
  a    : Dword
  b    : Dword
  res  : Option Dword
  deriving DecidableEq, Repr

/-- A bit in flight on the design network (R119, R133): the router that will see it, the input port (0 N, 1 E, 2 S,
3 W), the track, the executed position at which it is selectable, the bit and its parked tag. -/
structure Flight where
  cl    : Nat
  port  : Nat
  track : Nat
  pos   : Nat
  bit   : Bool
  tag   : Bool
  deriving DecidableEq, Repr

/-- How far a queue request has come (R183, R184). -/
inductive ReqState where
  | waitTag
  | out (tag : Nat)
  | complete
  deriving DecidableEq, Repr

/-- An entry of a decoupling queue (R181–R189): its place 0–15, direction, its issue order `ord` in the design cycle,
position, place in the group's issue order, window address, whether staged release suppresses its write (R238),
whether it has reached its referee, state, error status, and its 64 bytes: a write's data, or the stored words of the return
buffer. -/
structure MqEntry where
  slot  : Nat
  write : Bool
  ord   : Nat
  pos   : Nat
  seqNo : Nat
  addr  : Nat
  suppress : Bool
  arrived : Bool
  state : ReqState
  ue    : Bool
  data  : List Byte
  buf   : List StoredWord
  deriving DecidableEq, Repr

/-- One decoupling queue: entries oldest first, the return word pointer and the issues of this design cycle. -/
structure Mq where
  entries : List MqEntry := []
  word    : Nat := 0
  issued  : Nat := 0
  deriving DecidableEq, Repr

/-- A corrected instruction-store entry whose write-back is pending (R83), with the steps since the correction. -/
structure IstoreWb where
  cl    : Nat
  bp    : Nat
  entry : Nat
  syn   : Nat
  age   : Nat
  deriving DecidableEq, Repr

/-- A corrected bank word whose write-back is pending (R165). -/
structure MbWb where
  bank : Nat
  word : Nat
  deriving DecidableEq, Repr

/-- The kinds of dynamic-port request (R163). -/
inductive DynKind where
  | read
  | write (data : Dword)
  | masked (data : Dword) (mask : BitVec 8)
  | add (operand : Dword)
  | swap (operand : Dword)
  deriving DecidableEq, Repr

/-- A request at a bank's dynamic port (R160, R161); a write of the dispatcher's, the engine's or firmware's own (`own`) asks for no
response. -/
structure DynReq where
  src  : DynSrc
  bank : Nat
  word : Nat
  kind : DynKind
  own  : Bool
  deriving DecidableEq, Repr

/-- How the oldest request that waits at a bank's dynamic port fares against the fabric (R161, R162): the bank cycles it has lost,
whether it lost one in the position in progress, and whether it is to be performed behind that position's fabric access. -/
structure DynWait where
  lost   : Nat := 0
  behind : Bool := false
  due    : Bool := false
  deriving DecidableEq, Repr

/-- Status of a dynamic or memory request (R163, R171, R177, R191). -/
inductive ReqStatus where
  | ok | mbUe | mbRetained | hbmUe | hbmOff | ur | ca | domainOff
  deriving DecidableEq, Repr

/-- The answer to a dynamic-port request: the requester, the bank and word, the data returned and the status. -/
structure DynResp where
  src    : DynSrc
  bank   : Nat
  word   : Nat
  data   : Dword
  status : ReqStatus
  deriving DecidableEq, Repr

/-- One thing that an executed position brings about at its end (R59). A position's effects are computed from the state
before it and applied together at the edge. Keys are those of the tables of `Fabric`. -/
inductive Effect where
  | setDs (key : Nat) (v : Bool)
  | setOr (key : Nat) (v : Dword)
  | bankWrite (bank word : Nat) (data : Dword)
  | wauIssue (cl : Nat) (op : WauOp)
  | wauDone (cl pos : Nat) (res : Dword)
  | send (key : Nat) (v : Bool)
  | flight (f : Flight)
  | laneOut (lane idx : Nat) (v tag : Bool)
  | tap (key : Nat) (v : Bool)
  | istoreFix (cl bp entry syn : Nat)
  | istoreUe (job cl bp entry syn : Nat)
  | cwFix (cl entry syn : Nat)
  | cwUe (job cl entry syn : Nat)
  | netFix (cl entry word syn : Nat)
  | netUe (job cl entry word syn : Nat)
  | mbFix (bank word syn port : Nat)
  | mbUe (job bank word syn port : Nat)
  | disarm (addr : Nat)
  | mqIssue (cl q : Nat) (write : Bool) (addr pos : Nat) (data : List Byte) (suppress : Bool)
  | mqOverflow (job cl q : Nat)
  | mqTake (cl q : Nat)
  | mqFree (cl q slot : Nat)
  | retFix (cl q slot word syn : Nat)
  | retUe (job cl q slot word syn : Nat)
  | cycAdd (key n : Nat)
  | cycOr (key n : Nat)
  | park (cl n : Nat)
  | latOver (job lane m e : Nat)
  deriving DecidableEq, Repr

/-- The fabric's stores and registers. Keys: `seqs` by segment; `cfg` and `copy` by cluster × 2^20 + the offset of an
image body's byte in the cluster's area (R211); `ds` by package BP × 2048 + address; `ors` by cluster × 8 + register;
`mb` by bank × 4096 + word; `pipe` by cluster; `inj` by cluster × 32 + port; `queues` by cluster × 8 + queue; `dirty`
by bank; `taps` by (cluster × 4 + tap) × 1024 + programmed step; `keeper` by segment: the function whose destroy kept its banks (R236), and `kept` the segments that a destroy with keep sent to retention (R243, R248); `chain` by
cluster: its chain-mode BPs for the life of the image (R77); `cyc` by cluster × 16 + counter. `staged` holds, by unit number, the effects of the units that have acted in the position
in progress; `dynWait` is by bank. -/
structure Fabric where
  seqs     : Sparse Seq := []
  cfg      : Sparse Byte := []
  copy     : Sparse Byte := []
  ds       : Sparse Bool := []
  ors      : Sparse Dword := []
  mb       : Sparse StoredWord := []
  dirty    : Sparse (BitVec 32) := []
  pipe     : Sparse (List WauOp) := []
  inj      : Sparse Bool := []
  flights  : List Flight := []
  queues   : Sparse Mq := []
  taps     : Sparse Bool := []
  cyc      : Sparse Nat := []
  istoreWb : List IstoreWb := []
  mbWb     : List MbWb := []
  dyn      : List DynReq := []
  dynWait  : Sparse DynWait := []
  resp     : List DynResp := []
  retained : BitVec 64 := 0
  wasKept  : BitVec 64 := 0
  waking   : BitVec 64 := 0
  keeper   : Sparse Nat := []
  kept     : BitVec 64 := 0
  chain    : Sparse Dword := []
  clearing : BitVec 64 := 0
  staged   : List (Nat × List Effect) := []
  issueSeq : Nat := 0
  linkBad  : List D2dLink := []
  deriving DecidableEq, Repr

/-! ### Referees and the HBM controllers' command queues (R193–R199) -/

/-- The states of a referee (R199). -/
inductive RefState where
  | disabled | arb | locked | frozen
  deriving DecidableEq, Repr

/-- A request in a requester's FIFO with its age, the boost it has gained as head, how long it has waited as head, whether
it has arrived since the last decision (R195), and whether the undo log holds it (R262). -/
structure RefPend where
  req    : RefReq
  age    : Nat
  boost  : Nat
  waited : Nat
  fresh  : Bool
  held   : Bool
  deriving DecidableEq, Repr

/-- A referee: its FIFOs by requester (R193), the decision whose grant takes effect in the next cycle, the lock, a
pending freeze or disable (R198), and the controller's queue of granted requests (R195). Locks are numbered from 1: `granting` is that of
the decided grant, `locks` those of the hub's requests in the controller's queue, 0 for none, and `rmw` lists lock and offset of reads
that have been performed in a lock which is to write the same 64 bytes (R197). -/
structure Referee where
  state    : RefState := .disabled
  fifos    : Sparse (List RefPend) := []
  granted  : Option Nat := none
  owner    : Nat := 0
  left     : Nat := 0
  pendFreeze  : Bool := false
  pendDisable : Bool := false
  ctl      : List (Nat × RefReq) := []
  lockNo   : Nat := 0
  granting : Nat := 0
  locks    : List Nat := []
  rmw      : List (Nat × Nat) := []
  done     : List (Nat × RefReq × ReqStatus × List Byte) := []
  deriving DecidableEq, Repr

/-! ### Fault records, checkpoints and replay (R219, R259–R275) -/

/-- A fault record (R219); beside its eight words, what its event tells further or tells its place apart by (R273, R279), the bank word or
return-buffer word in which the error lies, the design cycle at the start of the sweep before the one that found it (R254), and the flat
time at which it was raised (R271). -/
structure FaultRec where
  code   : Nat
  phase  : Nat
  cls    : Nat
  job    : Nat
  seg    : Nat := 0
  cl     : Nat := 0
  bp     : Nat := 0
  unit   : Nat := 0
  sub    : Nat := 0
  k      : Nat := 0
  e      : Nat := 0
  blk    : Nat := 0
  m      : Nat := 0
  w6     : Nat := 0
  w7     : Nat := 0
  extra  : List Word := []
  place  : Nat := 0
  since  : Nat := 0
  ns     : Nat := 0
  deriving DecidableEq, Repr

/-- A word of a lane's elastic buffer (R300): the absolute position `m × L + e` at which it is due, its 64 bits and its
parked flag. -/
structure ElWord where
  due    : Nat
  word   : Dword
  parked : Bool
  deriving DecidableEq, Repr

/-- A retained checkpoint (R261–R264): its design cycle, the run state of the job's segments, the lines' levels and ST_HELD of
that design cycle, the words in the lanes' elastic buffers, whether it is usable, the flat time at which it was taken, its size, and the undo records appended
since it was taken, newest first (R262). -/
structure CkptRec where
  m      : Nat
  ds     : Sparse Bool
  ors    : Sparse Dword
  mb     : Sparse StoredWord
  lines  : Nat
  stHeld : Bool
  carry  : List (Nat × List ElWord)
  usable : Bool
  ns     : Nat
  kib    : Nat
  undo   : List (Nat × List Byte)
  deriving DecidableEq, Repr

/-- The protection states of a job (R275). -/
inductive ProtState where
  | off | armed | copying | rollback | reexec | failed
  deriving DecidableEq, Repr

/-- A record of the replay log (R265), with the design cycle it belongs to. -/
inductive LogItem where
  | laneIn (m lane e : Nat) (word : Dword) (parked : Bool)
  | txn (m bank word : Nat) (data : Dword)
  | doorbell (m port : Nat) (level : Bool)
  | line (m n : Nat) (level : Bool)
  | hold (m e blocks : Nat)
  | sig (m : Nat) (crc : BitVec 64)
  deriving DecidableEq, Repr

/-- A rollback in progress (R270–R273): the target, the frontier, the fault that started it and whether it is a
requested replay (R452). -/
structure Replay where
  mC     : Nat
  mF     : Nat
  fault  : FaultRec
  asked  : Bool
  restored : Bool
  extExposed : Bool
  deriving DecidableEq, Repr

/-- A job's protection (R259–R279). `dropAt` lists the targets of the checkpoints that unlogged writes asked for (R268); `recent` is, in
compare mode, the fault of the last frontier with its attempts until the compare of m_f has passed (R279). -/
structure Prot where
  state     : ProtState := .off
  attempts  : Nat := 0
  first     : Bool := true
  requested : Option Nat := none
  retained  : List CkptRec := []
  copying   : Option CkptRec := none
  winDirty  : List Nat := []
  dropAt    : List Nat := []
  recent    : Option (FaultRec × Nat) := none
  log       : List LogItem := []
  replay    : Option Replay := none
  storeKib  : Nat := 0
  deriving DecidableEq, Repr

/-! ### Jobs (R226–R248) -/

/-- The states of a job (R244). -/
inductive JobState where
  | free | created | loading | loaded | starting | active | reloading | destroying
  deriving DecidableEq, Repr

/-- Where an image or another buffer lies (R230): host memory of a function, or HBM. -/
structure Place where
  hbm  : Bool
  fn   : Nat
  addr : Nat
  deriving DecidableEq, Repr

/-- A block of an image's block table as loaded (R210), after any shift. -/
structure Block where
  type   : Nat
  seg    : Nat
  cl     : Nat
  len    : Nat
  off    : Nat
  digest : BitVec 256
  index  : Nat
  place  : Place
  deriving DecidableEq, Repr

/-- What a job keeps of its image beside the stores (R209–R211, R230): the header's fields that IMG_INFO returns, the
place and block table for the preload blocks, the lane declarations, the line configuration (R113), the window units needed
by octant, the probe and port lists, and L. -/
structure Image where
  place   : Place
  len     : Nat
  tool    : Nat
  keySlot : Nat
  digest  : BitVec 256
  sig     : List Byte
  shift   : Bool
  jobLen  : Nat
  mask    : BitVec 64
  blocks  : List Block
  lanes   : List (Nat × Nat)
  lines   : List (Nat × Nat)
  needs   : List (Nat × Nat)
  probes  : List Byte
  xact    : List Byte
  deriving DecidableEq, Repr

/-- An image load accepted (R230): its command, the image's place and length, the shift and compare flags, and the report
buffer with its capacity. -/
structure LoadReq where
  call     : Call
  place    : Place
  len      : Nat
  shift    : Bool
  compare  : Bool
  report   : Nat
  capacity : Nat
  deriving DecidableEq, Repr

/-- A region reload in progress (R239, R240): the region's segments, the new image, the boundary count, B1, the earliest B2, whether
the region is parked and whether its stores have been written; the bodies of its stores, its sequencers, and the region's
sequencers before the reload (R241). -/
structure Reload where
  mask    : BitVec 64
  image   : Image
  b1      : Nat
  b2      : Nat := 0
  parked  : Bool
  written : Bool
  call    : Call
  stores  : Sparse Byte
  seqs    : Sparse Seq
  oldSeqs : Sparse Seq
  deriving DecidableEq, Repr

/-- What a copy of a compare job adds to its signature (R278): the copy, the item in the rule's order, segment, cluster, position and
bytes. -/
structure SigItem where
  copy  : Nat
  item  : Nat
  seg   : Nat
  cl    : Nat
  pos   : Nat
  bytes : List Byte
  deriving DecidableEq, Repr

/-- Why a job is to be halted or stands halted (R105, R106, R222, R466). -/
inductive HaltWhy where
  | command | whistle | pkg | unlock | fault | stop | ckpt
  deriving DecidableEq, Repr

/-- A job: its place, its run (m, e and the hold in progress), the restraints of its release, its image, windows and
faults. `sweepM` lists m at the starts of the present and the previous sweep (R254). `holdAt` is the position before which a hold is decided, `e = L` standing for position 0 of the next design
cycle; `block` counts the steps of the hold block in progress, and `gate` is set while the next design cycle was found not released. -/
structure Job where
  state    : JobState := .free
  prev     : JobState := .free
  mask     : BitVec 64 := 0
  fn       : Nat := 0
  lead     : Nat := 0
  failed   : Bool := false
  bulk     : Bool := false
  stage    : Nat := 0
  d1       : Nat := 1
  d2       : Nat := 1
  d3       : Nat := 1
  len      : Nat := 0
  m        : Nat := 0
  e        : Nat := 0
  holdAt   : Option Nat := none
  nextHold : Option Nat := none
  block    : Nat := 0
  blocks   : Nat := 0
  lastBlk  : Bool := false
  waitSegs : List Nat := []
  hudHold  : Bool := false
  gate     : Bool := false
  held     : Bool := false
  stHeld   : Bool := false
  timeoutUp : Bool := false
  ue       : Bool := false
  haltReq  : Option HaltWhy := none
  haltedBy : Option HaltWhy := none
  untilM   : Option Nat := none
  lines    : Nat := 0
  sweepM   : List Nat := []
  image    : Option Image := none
  windows  : List (Nat × Nat × Nat) := []
  reserve  : List (Nat × Nat × Nat) := []
  compare  : Bool := false
  faults   : List FaultRec := []
  load     : Option LoadReq := none
  reload   : Option Reload := none
  prot     : Prot := {}
  keepDestroy : Bool := false
  outSig   : BitVec 64 := 0
  sigs     : List SigItem := []
  cmpDue   : Option (Nat × BitVec 64 × BitVec 64) := none
  laneDown : List Nat := []
  deriving DecidableEq, Repr

/-! ### Serial lanes (chapter 12) -/

/-- The states of a lane, coded as LANE_STAT.state (R306, R311). -/
inductive LaneState where
  | off | waitSignal | align | train | measure | operational | failed | test
  deriving DecidableEq, Repr

/-- A huddle copy (R324). -/
structure Huddle where
  doneM : Nat := 0xFFFF
  valid : Bool := false
  ck    : Bool := false
  ckM   : Nat := 0
  epoch : Nat := 0
  deriving DecidableEq, Repr

/-- A design word waiting to be sent (R295): its design cycle and position, its bits and its parked flag; `close`
marks the end of a block (a boundary, a hold, a halt or a pause follows). -/
structure TxWord where
  m      : Nat
  e      : Nat
  word   : Dword
  parked : Bool
  close  : Bool
  deriving DecidableEq, Repr

/-- A control frame waiting to be sent (R297): kind, sequence number and body, and whether the one-step timestamp is
inserted at departure (R322). -/
structure TxControl where
  kind  : Nat
  seq   : BitVec 32
  body  : List Byte
  stamp : Bool
  deriving DecidableEq, Repr

/-- The parts of the time counter (R312): seconds, nanoseconds and the fraction in units of 2^-32 ns. -/
structure Stamp where
  sec  : Nat := 0
  ns   : Nat := 0
  frac : Nat := 0
  deriving DecidableEq, Repr

/-- A control frame received (R297): its bytes, whether a block was lost, and the receive timestamp of its first block (R321). -/
structure RxControl where
  bytes : List Byte
  lost  : Bool
  stamp : Stamp
  deriving DecidableEq, Repr

/-- What a lane's two line interfaces hold beside the frame's contents: the next message of the frame in progress, its step counter,
whether its replay-marker block is out and its messages; the symbols of the last frame on the line, or of the last stretch of a test
pattern (R291–R294); the fallback scrambler's last 58 bits, and those before that frame; symbols that the error injector still owes (R309); the control frame being
received and those received; the last message received; a CW0 whose blocks wait for the frame's huddle copy (R330); the departure of
the last Pdelay_Req with its sequenceId (R322); and the pattern generator's and checker's past bits, newest first, with the pattern that
the generator's come from and the checker's run of error-free bits (R308). -/
structure Line where
  cw      : Nat := 0
  stamp   : Nat := 0
  marked  : Bool := false
  msgs    : List (BitVec 5140) := []
  symbols : List Nat := []
  past    : Nat := 0
  before  : Nat := 0
  owed    : Nat := 0
  ctlSeq  : BitVec 32 := 0
  rxCtl   : Option RxControl := none
  ctlIn   : List RxControl := []
  rxMsg   : Option (BitVec 5140) := none
  held    : Option (BitVec 5140) := none
  reqAt   : Option (Nat × Stamp) := none
  gen     : List Bool := []
  genOf   : Nat × List Bool := (0, [])
  chk     : List Bool := []
  run     : Nat := 0
  deriving DecidableEq, Repr

/-- A lane: its state (R306), what waits to be sent (R295–R298) with the blocks left of the control frame being sent and the
replay marker with the frames it is still owed, the last frame sent, its line, the slip carried (R293), the elastic buffer and the
position of the newest word received (R300, R326), the last huddle copy received (R324), the reception of the frame in
progress (its next message, whether it is whole so far, the decoding step of its CW0, its tx_stamp, echo_stamp and echo_hold,
and a job_len that differs), the last frame received whole (tx_stamp, decoding step), the samples of MEASURE (R302), the
taps' negotiation (R305), messages lost in a row (R307), the partner at job start and a partner change since bring-up (R307,
R327), the episode of missing words (R280), the last replay marker acted on (R298), and the first and last of the design cycles in a row
in which it was given design payload (R271). -/
structure Lane where
  state    : LaneState := .off
  failCode : Nat := 0
  txSeq    : BitVec 32 := 0
  words    : List TxWord := []
  control  : List TxControl := []
  curCtl   : List (List Byte × Nat) := []
  marker   : Option (Nat × Nat × Nat) := none
  sent     : List (BitVec 5140) := []
  line     : Line := {}
  slip     : Nat := 0
  elastic  : List ElWord := []
  latest   : Option Nat := none
  huddle   : Huddle := {}
  hudGot   : Bool := false
  rxStamp  : Option (Nat × Nat) := none
  rxCw     : Nat := 0
  rxWhole  : Bool := false
  rxFrame  : Nat × Nat × Nat × Nat := (0, 0, 0, 0)
  rxOther  : Bool := false
  samples  : Nat := 0
  maxRtt   : Nat := 0
  holdFrames : Nat := 0
  lostRun  : Nat := 0
  partner  : Option (Nat × Nat) := none
  changed  : Bool := false
  eqReqRx  : BitVec 8 := 0
  eqAckTx  : BitVec 8 := 0
  eqReqTx  : BitVec 8 := 0
  eqBusy   : Bool := false
  episode  : Option Nat := none
  wordsLost : Bool := false
  markerSeen : Option (Nat × Nat) := none
  paid     : Option (Nat × Nat) := none
  deriving DecidableEq, Repr

/-! ### The time unit (R312–R320) -/

/-- The PTP instance as a command enabled it, and whether its first correction is still to come (R323, R453); what its ports have heard
announced, the lane of its parent clock with what that announced, whether it acts as master, the sequenceId counter, the mean link delays by lane and the last offset in
units of 2^-16 ns, and the two-step messages that wait for their follow-up: lane, sequenceId, receive timestamp, remote timestamp and
correction. -/
structure Ptp where
  lanes  : BitVec 64
  domain : Nat
  pps    : Nat
  asym   : List (BitVec 64)
  first  : Bool
  heard  : List (Nat × List Byte) := []
  parent : Option Nat := none
  best   : List Byte := []
  master : Bool := false
  seqNo  : Nat := 0
  delays : Sparse Int := []
  offset : Int := 0
  twoStep : List (Nat × Nat × Nat × Int × Int × Int) := []
  deriving DecidableEq, Repr

/-- The time unit: the counter, the correction still to be absorbed in units of 2^-32 ns (R316), a SET that waits for the
tick (R315), the copies that reads of the fraction took (R313), the levels of TIME_CMP0–7 (R319), and PTP. -/
structure TimeUnit where
  now   : Stamp := {}
  slew  : Int := 0
  setTo : Option (Nat × Nat) := none
  holds : List (Requester × Stamp) := []
  high  : BitVec 8 := 0
  ptp   : Option Ptp := none
  deriving DecidableEq, Repr

/-! ### The capture engine (R335–R354) -/

/-- The states of the capture engine, coded as CAP_STAT.state (R348). -/
inductive CapState where
  | idle | armed | post | rearm | done | stopped
  deriving DecidableEq, Repr

/-- The record of a design cycle on its way to the engine (R338): its samples by probe index, the segments whose boundary
marker is owed, whether a probe's segment was under reload, the job's lines, TRIG_IN0–3 and the time at the boundary, and
whether the compare that must pass first is still to come (R339). -/
structure CapRec where
  m     : Nat
  bits  : Sparse Bool
  owed  : List Nat
  cut   : Bool
  lines : Nat
  trig  : Nat
  stamp : Stamp
  wait  : Bool
  replay : Option Nat
  deriving DecidableEq, Repr

/-- What a trigger fixed (R345, R347): its design cycle and the originating one, time, firing state, whether the remote and
host events were true, and the offset of its TRIG record. -/
structure CapTrig where
  m      : Nat
  origin : Nat
  stamp  : Stamp
  state  : Nat
  remote : Bool
  host   : Bool
  off    : Nat
  deriving DecidableEq, Repr

/-- A record in the ring of the current segment: offset, words, type and design cycle (R344, R346). -/
structure CapItem where
  off  : Nat
  len  : Nat
  type : Nat
  m    : Nat
  deriving DecidableEq, Repr

/-- The capture engine: session, tap filter (R337), samples of the design cycle in progress, records awaiting assembly,
the sequencer's state, counters, timers (start), comparators' last values (R340–R343), the ring of the current segment, the
bytes of its line in progress, the lines in the staging buffer with their HBM addresses, and the design cycles lost
(R349). `closed` is the status of the segment just closed. -/
structure Cap where
  state   : CapState := .idle
  job     : Option Nat := none
  probes  : List (Nat × Nat × Nat) := []
  gather  : Sparse Bool := []
  recs    : List CapRec := []
  seg     : Nat := 0
  seq     : Nat := 0
  counts  : List Nat := [0, 0, 0, 0, 0, 0, 0, 0]
  timers  : List (Option Nat) := [none, none, none, none]
  expired : List Bool := [false, false, false, false]
  lastX   : List (Option Nat) := [none, none, none, none, none, none, none, none]
  hostEv  : Bool := false
  remote  : List Nat := []
  off     : Nat := 64
  ring    : List CapItem := []
  line    : List Byte := []
  trig    : Option CapTrig := none
  left    : Nat := 0
  lost    : Option (Nat × Nat) := none
  gaps    : Nat := 0
  stage   : List (Nat × List Byte) := []
  closed  : Nat := 0
  deriving DecidableEq, Repr

/-! ### PCIe and the NoC (R355–R373) -/

/-- One PCIe function: its MSI-X mask and pending bits, by vector (R365), the address and data words of its MSI-X table, its BAR4
doorbell values (R364), and the words of its configuration space that no longer hold what reset gives them (R357, R358). -/
structure PcieFn where
  masked : BitVec 8 := 0xFF
  pba    : BitVec 8 := 0
  table  : Sparse Word := []
  dbCmd  : Word := 0
  dbCpl  : Word := 0
  cfg    : Sparse (Option Word) := []
  deriving DecidableEq, Repr

/-- How the boundary cells drive the pins (R458, R459): every output disabled, steadily, with the AC patterns of IEEE 1149.6, or not at
all, the pins given back to the core logic. -/
inductive PadDrive where
  | off | steady | pulse | train | core
  deriving DecidableEq, Repr

/-- What the package sends out: an MSI-X message with its address and data, the completion of a host BAR2 or atomic request, an error
message of a PCIe function with its AER bit, a NoC response, an
in-band interrupt to the board controller, an interrupt of the user core with its source (512 its mailbox input, 513 and 514 the
message channel), a word that the user core reads, bits at TDO, the boundary cells as they drive the pins, and the user core's fault and breakpoint exceptions. -/
inductive Out where
  | msix (fn vec : Nat) (addr : Dword) (data : Word)
  | pcieError (fn bit : Nat)
  | completion (fn : Nat) (data : List Byte) (status : ReqStatus)
  | noc (packet : NocPacket)
  | bmcIbi
  | ucIrq (source : Nat)
  | ucData (word : Word)
  | tdo (bits : Nat) (width : Nat)
  | pads (cells : BitVec 493) (drive : PadDrive)
  | ucFault
  | ucBreak
  deriving DecidableEq, Repr

/-- A host BAR2 access or AtomicOp in progress (R360–R362): its number, function, direction, offset, length and a write's bytes, the
offsets that its byte enables leave out, HBM beats and bank requests not yet presented, the beats and the bank words to complete, what has been read by BAR2 offset, the 64-byte
beats that failed, and the first bad status met. Firmware's accesses that cross the NoC's bridge are kept like the host's (R369), with
the packet that waits for its response; so is a host access to a register that waits behind its function's posted writes (R363), with
its requester, offset, width and data. -/
structure HostAccess where
  id     : Nat
  fn     : Nat
  fw     : Bool := false
  packet : Option NocPacket := none
  reg    : Option (Requester × Nat × Nat × Dword) := none
  write  : Bool
  atomic : Bool := false
  offset : Nat
  len    : Nat
  data   : List Byte := []
  gaps   : List Nat := []
  todo   : List (Nat × RefReq) := []
  reqs   : List DynReq := []
  left   : Nat := 0
  words  : List (Nat × Nat) := []
  got    : List (Nat × List Byte) := []
  bad    : List Nat := []
  status : ReqStatus := .ok
  deriving DecidableEq, Repr

/-! ### The transaction dispatcher (R380–R404) -/

/-- The states of a flow (R393). -/
inductive FlowState where
  | unloaded | parked | idle | ready | service | stopped
  deriving DecidableEq, Repr

/-- A flow (R388): its parameters, direction, producer and consumer indices, completions since the last interrupt, entries delivered and
not yet announced (R389), its state, and the number by which the most recently served flow is the highest (R392). -/
structure Flow where
  fn       : Nat
  handle   : Nat
  job      : Nat
  port     : Nat
  channel  : Nat
  group    : Nat
  ring     : Nat
  log2     : Nat
  cidxWb   : Nat
  vector   : Nat
  irqEvery : Nat
  h2d      : Bool
  pidx     : Nat := 0
  cidx     : Nat := 0
  done     : Nat := 0
  ahead    : Nat := 0
  state    : FlowState := .unloaded
  served   : Nat := 0
  dying    : Bool := false
  deriving DecidableEq, Repr

/-- A packet on its way (R397): the job, port, channel, tag, bytes and the design cycle that labels it (R386). -/
structure Packet where
  job     : Nat
  port    : Nat
  channel : Nat
  tag     : Nat
  data    : List Byte
  label   : Nat
  deriving DecidableEq, Repr

/-- A transactor port of a job (R380): its mailbox, and the dispatcher's counts, which never wrap: the packets delivered or slots freed
so far, ANN as last written and as last announced, whether it was announced at the last boundary (R383), the D2H snapshots by
design cycle (R386) and the design cycle that takes the next one, CNT at the last boundary in either copy (R400), the flows whose
delivered packets await announcement, in order, with none for a flow that is gone, the slot words of packets not yet announced (packet
number, bank, word, data; R265), and XP_OVERRUN. -/
structure Port where
  cl        : Nat
  bank      : Nat
  base      : Nat
  h2d       : Bool
  slots     : Nat
  words     : Nat
  count     : Nat := 0
  ann       : Nat := 0
  announced : Nat := 0
  rang      : Bool := false
  snaps     : List (Nat × Nat) := []
  owing     : List (Option (Nat × Nat)) := []
  unseen    : List (Nat × Nat × Nat × BitVec 64) := []
  seen      : Nat := 0
  last      : Nat := 0
  lastB     : Nat := 0
  overrun   : Bool := false
  deriving DecidableEq, Repr

/-- A scheduling group (R394, R395): deficit, ready flows, packet queue and spill ring, and whether SPILL_FULL has been raised for a ring
that is full still (R397). -/
structure Group where
  deficit : Nat := 0
  ready   : List (Nat × Nat) := []
  queue   : List Packet := []
  spill   : List Packet := []
  full    : Bool := false
  deriving DecidableEq, Repr

/-- The dispatcher: flows, parked flows in arrival order, ports by job × 16 + port, groups, the flow each engine serves, the
group at which the round robin stands, and the served count. -/
structure Disp where
  flows   : List Flow := []
  parked  : List (Nat × Nat) := []
  ports   : Sparse Port := []
  groups  : Sparse Group := []
  engines : Sparse (Option (Nat × Nat)) := []
  turn    : Nat := 0
  serves  : Nat := 0
  deriving DecidableEq, Repr

/-! ### Theham: firmware, log, scoreboard, keys (R405–R430) -/

/-- An event-log entry (R423); `seqNo` counts on, and is shown modulo 2^16. -/
structure LogEntry where
  ns     : Nat
  code   : Nat
  source : Nat
  job    : Nat
  sev    : Nat
  seqNo  : Nat
  detail : List Word
  deriving DecidableEq, Repr

/-- A command in progress that waits for a later event (R441): the opcode, its job, and what its end needs. -/
structure Waiting where
  call   : Call
  op     : Nat
  job    : Nat := 64
  arg    : Nat := 0
  lanes  : BitVec 64 := 0
  deriving DecidableEq, Repr

/-- An update, open or pending (R454): type, length, the ring that opened it, its bytes, and its version once verified. -/
structure Update where
  kind    : Nat
  len     : Nat
  ring    : Ring
  data    : Sparse Byte
  version : Option Nat
  deriving DecidableEq, Repr

/-- A command taken and not yet started (R432, R441): its call, fence flag, opcode, the job it names (64 for none), and the
descriptor's 64 bytes. -/
structure Queued where
  call  : Call
  fence : Bool
  op    : Nat
  job   : Nat
  desc  : List Byte
  deriving DecidableEq, Repr

/-- What an activation replaced (R420): a package type, whether an update had set its slot, and the contents of a partition that has one
slot only. -/
structure OldPart where
  kind    : Nat
  moved   : Bool
  content : List Byte
  deriving DecidableEq, Repr

/-- Theham: commands taken and waiting to start, commands in progress, the agent's and the board controller's rings (R435, R495), the event log, its flash sectors,
oldest first, and its readers' cursors (R423, R454), the scoreboard by export word as it stands and as flash holds it (R424, R456), keys (R411), measurement
registers (R417), the flash partitions that are not as production left them, by type × 2 + slot, and a trim that failed (R409, R415), slots, the types whose slot
an update set, and fused minima by package type (R419), flash writes by type and slot (R410), the open and the pending updates, the partitions in use by type, in the
order in which they were measured, and what the last activation replaced (R414, R420); the patch region (R405), the auto-load image (R416); whether an agent
runs and for which function (R407), the shutdown (R445), the limits in force, and the
last sensor sample, the powers of the samples of the last second in units of 10 µW, newest first, and for how many samples each sensor
has been above 105 °C (R421). -/
structure Theham where
  queued    : List Queued := []
  waiting   : List Waiting := []
  posted    : Word := 0
  consumed  : Word := 0
  taken     : Word := 0
  written   : Word := 0
  bmcCmd    : List Byte := []
  bmcCpl    : List Byte := []
  bmcBusy   : Bool := false
  bmcValid  : Bool := false
  bmcIbiEn  : Bool := false
  bmcOver   : Bool := false
  bmcSent   : Nat := 0
  shared    : Sparse Byte := []
  bmcWin    : Sparse Byte := []
  log       : List LogEntry := []
  flash     : List (List LogEntry) := []
  logSeq    : Nat := 0
  unflushed : Nat := 0
  erases    : Nat := 0
  dropped   : Nat := 0
  cursors   : List (Ring × Nat) := []
  score     : Sparse Nat := []
  scoreOut  : Sparse Nat := []
  eccHour   : Sparse Nat := []
  coldSeen  : Bool := true
  owner     : Option (BitVec 256) := none
  imgKeys   : Sparse (Option (BitVec 512)) := []
  agentKeys : Sparse (Option (BitVec 512)) := []
  enrol     : Nat := 0
  mr        : Sparse (BitVec 256) := []
  mrCount   : Sparse Nat := []
  parts     : Sparse (Option (List Byte)) := []
  trimBad   : Bool := false
  slotsUsed : Nat := 0
  moved     : Nat := 0
  minimum   : Sparse Nat := []
  writes    : Sparse Nat := []
  update    : Option Update := none
  toBoot    : List Update := []
  inUse     : List (Nat × List Byte) := []
  older     : List OldPart := []
  patch     : Sparse Byte := []
  image     : Sparse Byte := []
  agentFn   : Nat := 0
  agentOn   : Bool := false
  shutdown  : Bool := false
  high      : Bool := false
  voltFault : Bool := false
  temps     : List (BitVec 11) := []
  volts     : List (BitVec 16) := []
  currents  : List (BitVec 20) := []
  powers    : List Nat := []
  hotRuns   : List Nat := []
  deriving DecidableEq, Repr

/-! ### Scrubber (R252–R258) -/

/-- The scrubber beside its registers (R258): whether a further sweep is due, whether its position has moved since the last check, the
segments that join only the next sweep (R256), and, by word × 4 + copy, the bits in which a copy of its configuration differs from what
was written (R257). -/
structure Scrub where
  due     : Bool := false
  moved   : Bool := false
  skip    : BitVec 64 := 0
  damage  : Sparse Word := []
  deriving DecidableEq, Repr

/-! ### Debug and trace (R457–R486) -/

/-- A debug access in the queue of DAP_ACC (R460), with its result once performed. -/
structure DapReq where
  write : Bool
  data  : Word
  addr  : Nat
  space : Nat
  seqNo : Nat
  answer : Option (Nat × Word)
  deriving DecidableEq, Repr

/-- The TAP (R457–R461): instruction register, boundary cells, the refusal bit, and the access queue. -/
structure Tap where
  ir      : Nat := 1
  cells   : BitVec 493 := 0
  refused : Bool := false
  queue   : List DapReq := []
  full    : Bool := false
  deriving DecidableEq, Repr

/-- The user core (R405, R407, R471): its pc and privilege mode, 0 user and 3 machine, x1 to x31, its CSRs by number, those of its 16 PMP
regions among them, whether it holds a reservation, and the interrupts that wait while it is in monitor mode, in the order in which they
came. -/
structure UserCore where
  pc       : Word := 0
  mode     : Nat := 3
  x        : Sparse Word := []
  csr      : Sparse Word := []
  reserved : Bool := false
  irqs     : List Nat := []
  deriving DecidableEq, Repr

/-- The debug domain's own state (R464–R474): the message queues, monitor mode's step, the cause of a deferred halt request (0 for
none) with the instructions it may still wait for, the scope under verification and who asked for it, the contents of the user core's TCM and of the
firmware cores' memory, and the user core itself. -/
structure Debug where
  tx       : List Word := []
  rx       : List Word := []
  step     : Bool := false
  deferred : Nat := 0
  deferLeft : Nat := 0
  scope    : Nat := 0
  who      : Requester := .dbg
  uc       : Sparse Byte := []
  fw       : Sparse Byte := []
  core     : UserCore := {}
  deriving DecidableEq, Repr

/-- The trace encoder (R477–R483): its FIFO of 16-bit units, the open BRANCH packet's outcomes, the address relative targets
count from, cycles since the last delta, units since the last SYNC, units lost, the window's remaining instructions, and
the on-chip buffer. -/
structure Trace where
  fifo    : List (BitVec 16) := []
  branch  : List Bool := []
  last    : Nat := 0
  cycles  : Nat := 0
  bytes   : Nat := 0
  lost    : Nat := 0
  window  : Nat := 0
  stalled : Bool := false
  asleep  : Bool := false
  idle    : Nat := 0
  buf     : Sparse Byte := []
  sent    : List (BitVec 16) := []
  deriving DecidableEq, Repr

/-! ### Power and pins (R487–R502) -/

/-- A switch of a power domain (R501): the domain, the operation, and the command that asked for it. -/
structure PwrOp where
  pd   : Nat
  op   : Nat
  call : Option Call
  deriving DecidableEq, Repr

/-- Power domains on, switches in progress, and switch-ons that wait (R501). -/
structure Pwr where
  on    : BitVec 84 := BitVec.ofNat 84 (2 ^ 84 - 2 ^ 74 + 3 * 2 ^ 68)
  busy  : List PwrOp := []
  queue : List PwrOp := []
  deriving DecidableEq, Repr

/-- The pins: the levels that design-port bits last drove from their sources, the bits that drive them now and not a park
value (R497), the samples that compare mode holds back a design cycle with their validity (R496), DP_CLK levels, the latch of
THERMTRIP_N (R506), the pulses made on HUD_OUT and TRIG_OUT, the pins driven and their levels as the GPIO block froze (R469), and what
pads and input signals (96 + signal) keep from before a change of source, and whether TIMEREF has ticked since (R492). -/
structure Pins where
  samples  : BitVec 64 := 0
  driven   : BitVec 64 := 0
  before   : BitVec 64 := 0
  beforeOk : BitVec 64 := 0
  dpClk    : BitVec 4 := 0
  trip     : Bool := false
  hudOut   : Nat := 0
  trigOut  : Nat := 0
  hold     : Option (BitVec 96 × BitVec 96) := none
  swap     : List (Nat × Bool × Bool) := []
  deriving DecidableEq, Repr

/-- The peripheral controllers (R494): the words last written to their registers, by offset in the peripheral window, and the bytes in
the UARTs' transmit FIFOs, by UART. -/
structure Periph where
  words : Sparse Word := []
  tx    : Sparse (List Byte) := []
  deriving DecidableEq, Repr

/-- The NoC's counters by output, the key (8 y + x) × 4 + output (R377): flits carried since reset, and cycles in which a header lost
arbitration; and how many accesses have crossed its bridge, by which each has a number of its own. -/
structure Noc where
  flits   : Sparse Nat := []
  busy    : Sparse Nat := []
  crossed : Nat := 0
  deriving DecidableEq, Repr

/-- An allocation of HBM outside the windows (R259, R344, R388, R397): first address, length, and its user. -/
structure Alloc where
  base : Nat
  len  : Nat
  user : Nat
  deriving DecidableEq, Repr

/-! ### The package -/

/-- The state of one package. `regs` holds each register word combined by XOR with its Reset-column value, so that a
register at its reset value is unlisted; its keys are BAR0 byte offsets, and for the MBOX bank of function f the key
2^32 + f × 0x1000 + offset. `pages` is keyed by page number. -/
structure State where
  regs     : Sparse Word := []
  pages    : Sparse PageDyn := []
  slots    : List TxnSlot := [{}, {}, {}, {}]
  busRead  : Option (Requester × Nat × Dword) := none
  fab      : Fabric := {}
  jobs     : Sparse Job := []
  refs     : Sparse Referee := []
  lanes    : Sparse Lane := []
  hbm      : Sparse Byte := []
  hostMem  : Sparse Byte := []
  time     : TimeUnit := {}
  cap      : Cap := {}
  fns      : Sparse PcieFn := []
  access   : List HostAccess := []
  out      : List Out := []
  disp     : Disp := {}
  theham   : Theham := {}
  scrub    : Scrub := {}
  tap      : Tap := {}
  dbg      : Debug := {}
  trace    : Trace := {}
  pwr      : Pwr := {}
  pins     : Pins := {}
  noc      : Noc := {}
  periph   : Periph := {}
  allocs   : List Alloc := []
  pkgHalt  : Bool := false
  free     : Nat := 0
  pending  : List Instr := []
  deriving DecidableEq, Repr

/-- The package right after a device reset is released: every register at its Reset column (R11), every job free, every
queue empty, boot not yet begun (R414, R505). -/
def State.reset : State := {}

end Sys2Proof.Machine
end

