-- ==== Sys2Proof/Machine/ConfigSpace.lean ====
section
/-! DEFINITION. The configuration space of the PCIe functions (R355, R357, R358, R365): what its words hold at reset, and which bits
host software writes. R355 names PCI Express Base 6.0, SR-IOV and MSI-X, whose layouts these words follow; where their standards leave
the place of a capability open, the place is the model's own (assumption 120). -/

namespace Sys2Proof.Machine

/-- The registers of configuration space that the machine acts on: command, Device Control with Device Status, Link Control with Link
Status, MSI-X Message Control, the AER status, mask and capability registers with the header log, SR-IOV Control and NumVFs. -/
def cfgCommand : Nat := 0x04

/-- Device Control and Device Status. -/
def cfgDevice : Nat := 0x48

/-- Link Control and Link Status. -/
def cfgLink : Nat := 0x50

/-- The MSI-X capability with Message Control. -/
def cfgMsix : Nat := 0x80

/-- Uncorrectable Error Status; Mask stands 4 and Severity 8 bytes on. -/
def cfgAer : Nat := 0x104

/-- Advanced Error Capabilities and Control: the first error pointer. The header log follows it. -/
def cfgAerFirst : Nat := 0x118

/-- SR-IOV Control and Status. -/
def cfgSriov : Nat := 0x148

/-- NumVFs. -/
def cfgNumVfs : Nat := 0x150

/-- What a word of a function's configuration space holds at reset (R357, R358, R365): 0 is the PF, 1–63 the VFs, which have no BARs,
no SR-IOV capability and no link of their own. -/
def configInit (fn off : Nat) : Word :=
  let pf := fun (v : Word) => if fn = 0 then v else 0
  match off with
  | 0x00 => if fn = 0 then 0xD0041EF3 else 0xD005FFFF
  | 0x04 => 0x00100000
  | 0x08 => 0x12000001
  | 0x10 | 0x20 => pf 0x4
  | 0x18 => pf 0xC
  | 0x2C => 0x00041EF3
  | 0x34 => 0x40
  | 0x40 => 0x00028010
  | 0x44 => 0x10008022
  | 0x48 => 0x2810
  | 0x4C => 0x906
  | 0x64 => 0x100
  | 0x80 => 0x00070011
  | 0x84 => 0x2004
  | 0x88 => 0x3004
  | 0x100 => if fn = 0 then 0x14020001 else 0x00020001
  | 0x10C => 0x00040000
  | 0x114 => 0x2000
  | 0x140 => pf 0x00010010
  | 0x14C => pf 0x003F003F
  | 0x154 => pf 0x00010001
  | 0x158 => pf 0xD0050000
  | 0x15C | 0x160 => pf 1
  | 0x164 | 0x174 => pf 0x4
  | 0x16C => pf 0xC
  | _ => 0

/-- The errors that the device reports through AER, by their bits in the standard's status register (R362): poisoned TLP, completer
abort, malformed TLP, unsupported request. -/
def aerBits : Word := 0x00149000

/-- The bits that host software writes in a word of configuration space. The BARs' bits follow from their sizes of 64 MiB, 128 GiB and
2 MiB (R358). -/
def configMask (fn off : Nat) : Word :=
  let pf := fun (v : Word) => if fn = 0 then v else 0
  match off with
  | 0x04 => if fn = 0 then 0x546 else 0x4
  | 0x10 => pf 0xFC000000
  | 0x14 | 0x24 => pf 0xFFFFFFFF
  | 0x1C => pf 0xFFFFFFE0
  | 0x20 => pf 0xFFE00000
  | 0x3C => pf 0xFF
  | 0x48 => 0x79FF
  | 0x50 => pf 0x2
  | 0x80 => 0xC0000000
  | 0x108 | 0x10C => aerBits
  | 0x114 => 0x2000
  | 0x148 => pf 0x9
  | 0x150 => pf 0xFFFF
  | 0x164 => pf 0xFC000000
  | 0x168 | 0x178 => pf 0xFFFFFFFF
  | 0x170 => pf 0xFFFFFFE0
  | 0x174 => pf 0xFFE00000
  | _ => 0

/-- The status bits that a written 1 clears. -/
def configClear : Nat → Word
  | 0x04 => 0xF9000000
  | 0x48 => 0x000F0000
  | 0x104 => aerBits
  | 0x110 => 0x2000
  | _ => 0

/-- A word of a function's configuration space. -/
def PcieFn.config (f : PcieFn) (fn off : Nat) : Word := (Sparse.get none f.cfg off).getD (configInit fn off)

/-- A function with a word of its configuration space changed. -/
def PcieFn.setConfig (f : PcieFn) (off : Nat) (v : Word) : PcieFn := { f with cfg := Sparse.set none f.cfg off (some v) }

/-- MSI-X Enable is set and Function Mask clear (R365). -/
def PcieFn.msixOn (f : PcieFn) (fn : Nat) : Bool :=
  let c := f.config fn cfgMsix
  c.getLsbD 31 && !c.getLsbD 30

/-- A vector's message goes out at once (R365): neither the vector nor the function masks it. -/
def PcieFn.sends (f : PcieFn) (fn vec : Nat) : Bool := f.msixOn fn && !f.masked.getLsbD vec

/-- The address and the data of a vector's message, as the MSI-X table holds them. -/
def PcieFn.message (f : PcieFn) (vec : Nat) : Dword × Word :=
  (Sparse.get 0 f.table (4 * vec + 1) ++ Sparse.get 0 f.table (4 * vec), Sparse.get 0 f.table (4 * vec + 2))

end Sys2Proof.Machine
end

