-- ==== Sys2Proof/Machine/RegTable.lean ====
section
/-! DEFINITION. The register fields of every page, one row a field, transcribed from the register tables of the spec:
name, page offset of the first instance, number of instances and stride, bits, access code (R10), Reset column (R11),
effect class (R42-R46) and the encodings that are not reserved (R12). The header (R39) is in Regs.lean. -/

namespace Sys2Proof.Machine

/-- The access codes (R10). -/
inductive Acc where
  | rw | ro | w1c | w1s | rc | wo
  deriving DecidableEq, Repr

/-- The effect classes (R42, R43, R46). -/
inductive Eff where
  | none | live | staged | static
  deriving DecidableEq, Repr

/-- The encodings of a field that are not reserved. -/
inductive Legal where
  | any
  | nonzero
  | range (lo hi : Nat)
  | oneOf (vs : List Nat)
  deriving DecidableEq, Repr

/-- Whether a value is no reserved encoding. -/
def Legal.ok : Legal → Nat → Bool
  | .any, _ => true
  | .nonzero, v => v != 0
  | .range lo hi, v => decide (lo ≤ v) && decide (v ≤ hi)
  | .oneOf vs, v => vs.contains v

/-- One field of one register, or of a family of `count` registers at `stride`. -/
structure Field where
  name   : String
  off    : Nat
  count  : Nat
  stride : Nat
  hi     : Nat
  lo     : Nat
  acc    : Acc
  reset  : Nat
  eff    : Eff
  legal  : Legal
  deriving DecidableEq, Repr

/-- Fields of the `DEV` page (R51, R247, R379, R428), part 0. -/
def fields_dev_0 : List Field :=
  [⟨"DEV_TXN_CTL.op", 0x200, 4, 512, 1, 0, .wo, 0, .live, .any⟩,
   ⟨"DEV_TXN_STAT.state", 0x204, 4, 512, 2, 0, .ro, 0, .none, .any⟩,
   ⟨"DEV_TXN_STAT.reason", 0x204, 4, 512, 15, 8, .ro, 0, .none, .any⟩,
   ⟨"DEV_TXN_STAT.remaining_us", 0x204, 4, 512, 31, 16, .ro, 0, .none, .any⟩,
   ⟨"DEV_TXN_TIMEOUT.timeout_us", 0x208, 4, 512, 15, 0, .rw, 0, .static, .any⟩,
   ⟨"DEV_TXN_COUNT.count", 0x20C, 4, 512, 6, 0, .rw, 0, .static, .range 0 64⟩,
   ⟨"DEV_TXN_OWNER.class", 0x210, 4, 512, 2, 0, .ro, 0, .none, .any⟩,
   ⟨"DEV_TXN_OWNER.vf", 0x210, 4, 512, 13, 8, .ro, 0, .none, .any⟩,
   ⟨"DEV_TXN0_PAGE.page_a", 0x240, 32, 4, 13, 0, .rw, 0, .static, .any⟩,
   ⟨"DEV_TXN1_PAGE.page_a", 0x440, 32, 4, 13, 0, .rw, 0, .static, .any⟩,
   ⟨"DEV_TXN2_PAGE.page_a", 0x640, 32, 4, 13, 0, .rw, 0, .static, .any⟩,
   ⟨"DEV_TXN3_PAGE.page_a", 0x840, 32, 4, 13, 0, .rw, 0, .static, .any⟩,
   ⟨"DEV_TXN0_PAGE.page_b", 0x240, 32, 4, 29, 16, .rw, 0, .static, .any⟩,
   ⟨"DEV_TXN1_PAGE.page_b", 0x440, 32, 4, 29, 16, .rw, 0, .static, .any⟩,
   ⟨"DEV_TXN2_PAGE.page_b", 0x640, 32, 4, 29, 16, .rw, 0, .static, .any⟩,
   ⟨"DEV_TXN3_PAGE.page_b", 0x840, 32, 4, 29, 16, .rw, 0, .static, .any⟩,
   ⟨"DEV_JOB_STAT_n.state", 0xC00, 64, 4, 2, 0, .ro, 0, .none, .any⟩,
   ⟨"DEV_JOB_STAT_n.failed", 0xC00, 64, 4, 3, 3, .ro, 0, .none, .any⟩,
   ⟨"DEV_JOB_STAT_n.bulk", 0xC00, 64, 4, 4, 4, .ro, 0, .none, .any⟩,
   ⟨"DEV_JOB_STAT_n.stage", 0xC00, 64, 4, 6, 5, .ro, 0, .none, .any⟩,
   ⟨"DEV_JOB_STAT_n.lead", 0xC00, 64, 4, 13, 8, .ro, 0, .none, .any⟩,
   ⟨"DEV_JOB_STAT_n.vf", 0xC00, 64, 4, 21, 16, .ro, 0, .none, .any⟩,
   ⟨"DEV_JOB_STAT_n.class", 0xC00, 64, 4, 24, 22, .ro, 0, .none, .any⟩,
   ⟨"DEV_JOB_STAT_n.segs", 0xC00, 64, 4, 31, 25, .ro, 0, .none, .any⟩,
   ⟨"DEV_JOB_MASK_LO_n.mask", 0xD00, 64, 8, 31, 0, .ro, 0, .none, .any⟩,
   ⟨"DEV_JOB_MASK_HI_n.mask", 0xD04, 64, 8, 31, 0, .ro, 0, .none, .any⟩,
   ⟨"DEV_WHISTLE.active", 0xA00, 1, 0, 0, 0, .ro, 0, .none, .any⟩,
   ⟨"DEV_WHISTLE.src_pin", 0xA00, 1, 0, 1, 1, .ro, 0, .none, .any⟩,
   ⟨"DEV_WHISTLE.src_host", 0xA00, 1, 0, 2, 2, .ro, 0, .none, .any⟩,
   ⟨"DEV_WHISTLE.src_fw", 0xA00, 1, 0, 3, 3, .ro, 0, .none, .any⟩]

/-- Fields of the `DEV` page (R51, R247, R379, R428), part 1. -/
def fields_dev_1 : List Field :=
  [⟨"DEV_WHISTLE.src_pll", 0xA00, 1, 0, 4, 4, .ro, 0, .none, .any⟩,
   ⟨"DEV_WHISTLE.in_level", 0xA00, 1, 0, 5, 5, .ro, 0, .none, .any⟩,
   ⟨"DEV_WHISTLE_CMD.assert", 0xA04, 1, 0, 0, 0, .wo, 0, .live, .any⟩,
   ⟨"DEV_WHISTLE_CMD.clear", 0xA04, 1, 0, 1, 1, .wo, 0, .live, .any⟩,
   ⟨"DEV_INFO.grade", 0x040, 1, 0, 0, 0, .ro, 0, .none, .any⟩,
   ⟨"DEV_INFO.rev", 0x040, 1, 0, 15, 8, .ro, 0, .none, .any⟩,
   ⟨"DEV_BOOT.stage", 0x044, 1, 0, 1, 0, .ro, 0, .none, .any⟩,
   ⟨"DEV_BOOT.owner", 0x044, 1, 0, 2, 2, .ro, 0, .none, .any⟩,
   ⟨"DEV_BOOT.fallback", 0x044, 1, 0, 3, 3, .ro, 0, .none, .any⟩,
   ⟨"DEV_BOOT.autoload", 0x044, 1, 0, 5, 4, .ro, 0, .none, .any⟩,
   ⟨"DEV_ERR_ADDR.offset", 0x048, 1, 0, 25, 0, .ro, 0, .none, .any⟩]

/-- Fields of the `DEV` page (R51, R247, R379, R428). -/
def fields_dev : List Field := fields_dev_0 ++ fields_dev_1

/-- Fields of the FAB cluster pages (R87, R115, R136, R151, R173, R201, R404), part 0. -/
def fields_fabc_0 : List Field :=
  [⟨"FABC_BP_ECC_CNT.count", 0x040, 1, 0, 15, 0, .rc, 0, .none, .any⟩,
   ⟨"FABC_BP_ECC_LAST.bp", 0x044, 1, 0, 5, 0, .rc, 0, .none, .any⟩,
   ⟨"FABC_BP_ECC_LAST.entry", 0x044, 1, 0, 15, 6, .rc, 0, .none, .any⟩,
   ⟨"FABC_BP_ECC_LAST.syndrome", 0x044, 1, 0, 23, 16, .rc, 0, .none, .any⟩,
   ⟨"FABC_BP_ECC_LAST.ue", 0x044, 1, 0, 24, 24, .rc, 0, .none, .any⟩,
   ⟨"FABC_BP_ECC_LAST.valid", 0x044, 1, 0, 31, 31, .rc, 0, .none, .any⟩,
   ⟨"FABC_BP_CHAIN_LO.mask", 0x048, 1, 0, 31, 0, .ro, 0, .none, .any⟩,
   ⟨"FABC_BP_CHAIN_HI.mask", 0x04C, 1, 0, 31, 0, .ro, 0, .none, .any⟩,
   ⟨"FABC_BP_ACTIVE_LO.mask", 0x050, 1, 0, 31, 0, .ro, 0, .none, .any⟩,
   ⟨"FABC_BP_ACTIVE_HI.mask", 0x054, 1, 0, 31, 0, .ro, 0, .none, .any⟩,
   ⟨"FABC_BP_INJ.bp", 0x058, 1, 0, 5, 0, .rw, 0, .live, .any⟩,
   ⟨"FABC_BP_INJ.entry", 0x058, 1, 0, 15, 6, .rw, 0, .live, .any⟩,
   ⟨"FABC_BP_INJ.bit", 0x058, 1, 0, 22, 16, .rw, 0, .live, .range 0 103⟩,
   ⟨"FABC_BP_INJ.double", 0x058, 1, 0, 23, 23, .rw, 0, .live, .any⟩,
   ⟨"FABC_BP_INJ.arm", 0x058, 1, 0, 31, 31, .rw, 0, .live, .any⟩,
   ⟨"FABC_OCR_j.init", 0x060, 8, 4, 11, 0, .ro, 0, .none, .any⟩,
   ⟨"FABC_OCR_j.cur", 0x060, 8, 4, 27, 16, .ro, 0, .none, .any⟩,
   ⟨"FABC_CW_ECC_CNT.count", 0x080, 1, 0, 15, 0, .rc, 0, .none, .any⟩,
   ⟨"FABC_CW_ECC_LAST.entry", 0x084, 1, 0, 9, 0, .rc, 0, .none, .any⟩,
   ⟨"FABC_CW_ECC_LAST.syndrome", 0x084, 1, 0, 17, 10, .rc, 0, .none, .any⟩,
   ⟨"FABC_CW_ECC_LAST.ue", 0x084, 1, 0, 24, 24, .rc, 0, .none, .any⟩,
   ⟨"FABC_CW_ECC_LAST.valid", 0x084, 1, 0, 31, 31, .rc, 0, .none, .any⟩,
   ⟨"FABC_CW_INJ.entry", 0x088, 1, 0, 9, 0, .rw, 0, .live, .any⟩,
   ⟨"FABC_CW_INJ.bit", 0x088, 1, 0, 16, 10, .rw, 0, .live, .range 0 71⟩,
   ⟨"FABC_CW_INJ.double", 0x088, 1, 0, 17, 17, .rw, 0, .live, .any⟩,
   ⟨"FABC_CW_INJ.arm", 0x088, 1, 0, 31, 31, .rw, 0, .live, .any⟩,
   ⟨"FABC_NET_ECC_CNT.count", 0x100, 1, 0, 15, 0, .rc, 0, .none, .any⟩,
   ⟨"FABC_NET_ECC_LAST.entry", 0x104, 1, 0, 9, 0, .rc, 0, .none, .any⟩,
   ⟨"FABC_NET_ECC_LAST.word", 0x104, 1, 0, 13, 10, .rc, 0, .none, .any⟩,
   ⟨"FABC_NET_ECC_LAST.syndrome", 0x104, 1, 0, 21, 14, .rc, 0, .none, .any⟩]

/-- Fields of the FAB cluster pages (R87, R115, R136, R151, R173, R201, R404), part 1. -/
def fields_fabc_1 : List Field :=
  [⟨"FABC_NET_ECC_LAST.ue", 0x104, 1, 0, 24, 24, .rc, 0, .none, .any⟩,
   ⟨"FABC_NET_ECC_LAST.valid", 0x104, 1, 0, 31, 31, .rc, 0, .none, .any⟩,
   ⟨"FABC_NET_INJ.entry", 0x108, 1, 0, 9, 0, .rw, 0, .live, .any⟩,
   ⟨"FABC_NET_INJ.word", 0x108, 1, 0, 13, 10, .rw, 0, .live, .any⟩,
   ⟨"FABC_NET_INJ.bit", 0x108, 1, 0, 20, 14, .rw, 0, .live, .range 0 71⟩,
   ⟨"FABC_NET_INJ.double", 0x108, 1, 0, 21, 21, .rw, 0, .live, .any⟩,
   ⟨"FABC_NET_INJ.arm", 0x108, 1, 0, 31, 31, .rw, 0, .live, .any⟩,
   ⟨"FABC_NET_CFG.x", 0x10C, 1, 0, 4, 0, .ro, 0, .none, .any⟩,
   ⟨"FABC_NET_CFG.y", 0x10C, 1, 0, 12, 8, .ro, 0, .none, .any⟩,
   ⟨"FABC_NET_CFG.cross_dir", 0x10C, 1, 0, 19, 16, .ro, 0, .none, .any⟩,
   ⟨"FABC_NET_CFG.dead_dir", 0x10C, 1, 0, 23, 20, .ro, 0, .none, .any⟩,
   ⟨"FABC_NET_CFG.lane_att", 0x10C, 1, 0, 24, 24, .ro, 0, .none, .any⟩,
   ⟨"FABC_NET_CFG.lane_sub", 0x10C, 1, 0, 26, 25, .ro, 0, .none, .any⟩,
   ⟨"FABC_NET_PARK.in_parked", 0x110, 1, 0, 3, 0, .ro, 0, .none, .any⟩,
   ⟨"FABC_NET_PARK.lane_parked", 0x110, 1, 0, 4, 4, .ro, 0, .none, .any⟩,
   ⟨"FABC_NET_PARK.count", 0x110, 1, 0, 31, 16, .rc, 0, .none, .any⟩,
   ⟨"FABC_NET_DLV.count", 0x114, 1, 0, 19, 0, .ro, 0, .none, .any⟩,
   ⟨"FABC_NET_SLOT_SEL.entry", 0x118, 1, 0, 9, 0, .rw, 0, .live, .any⟩,
   ⟨"FABC_NET_SLOT_SEL.word", 0x118, 1, 0, 19, 16, .rw, 0, .live, .any⟩,
   ⟨"FABC_NET_SLOT_DATA_LO.data", 0x11C, 1, 0, 31, 0, .ro, 0, .none, .any⟩,
   ⟨"FABC_NET_SLOT_DATA_HI.data", 0x120, 1, 0, 31, 0, .ro, 0, .none, .any⟩,
   ⟨"FABC_WAU_RD_SEL.reg", 0x140, 1, 0, 2, 0, .rw, 0, .live, .any⟩,
   ⟨"FABC_WAU_RD_LO.data", 0x144, 1, 0, 31, 0, .ro, 0, .none, .any⟩,
   ⟨"FABC_WAU_RD_HI.data", 0x148, 1, 0, 31, 0, .ro, 0, .none, .any⟩,
   ⟨"FABC_WAU_ISSUE.count", 0x14C, 1, 0, 14, 0, .ro, 0, .none, .any⟩,
   ⟨"FABC_WAU_OPS.seen", 0x150, 1, 0, 7, 1, .ro, 0, .none, .any⟩,
   ⟨"FABC_MB_ECC_CNT_b.count", 0x180, 4, 4, 15, 0, .rc, 0, .none, .any⟩,
   ⟨"FABC_MB_ECC_LAST.word", 0x190, 1, 0, 11, 0, .rc, 0, .none, .any⟩,
   ⟨"FABC_MB_ECC_LAST.bank", 0x190, 1, 0, 13, 12, .rc, 0, .none, .any⟩,
   ⟨"FABC_MB_ECC_LAST.syndrome", 0x190, 1, 0, 21, 14, .rc, 0, .none, .any⟩]

/-- Fields of the FAB cluster pages (R87, R115, R136, R151, R173, R201, R404), part 2. -/
def fields_fabc_2 : List Field :=
  [⟨"FABC_MB_ECC_LAST.port", 0x190, 1, 0, 23, 22, .rc, 0, .none, .any⟩,
   ⟨"FABC_MB_ECC_LAST.ue", 0x190, 1, 0, 24, 24, .rc, 0, .none, .any⟩,
   ⟨"FABC_MB_ECC_LAST.valid", 0x190, 1, 0, 31, 31, .rc, 0, .none, .any⟩,
   ⟨"FABC_MB_INJ.word", 0x194, 1, 0, 11, 0, .rw, 0, .live, .any⟩,
   ⟨"FABC_MB_INJ.bank", 0x194, 1, 0, 13, 12, .rw, 0, .live, .any⟩,
   ⟨"FABC_MB_INJ.bit", 0x194, 1, 0, 20, 14, .rw, 0, .live, .range 0 71⟩,
   ⟨"FABC_MB_INJ.double", 0x194, 1, 0, 21, 21, .rw, 0, .live, .any⟩,
   ⟨"FABC_MB_INJ.arm", 0x194, 1, 0, 31, 31, .rw, 0, .live, .any⟩,
   ⟨"FABC_MB_STALL.count", 0x198, 1, 0, 31, 0, .rc, 0, .none, .any⟩,
   ⟨"FABC_MB_REPAIR.mb0", 0x19C, 1, 0, 2, 0, .ro, 0, .none, .any⟩,
   ⟨"FABC_MB_REPAIR.mb1", 0x19C, 1, 0, 6, 4, .ro, 0, .none, .any⟩,
   ⟨"FABC_MB_REPAIR.mb2", 0x19C, 1, 0, 10, 8, .ro, 0, .none, .any⟩,
   ⟨"FABC_MB_REPAIR.mb3", 0x19C, 1, 0, 14, 12, .ro, 0, .none, .any⟩,
   ⟨"FABC_MB_STATE.retained", 0x1A0, 1, 0, 0, 0, .ro, 0, .none, .any⟩,
   ⟨"FABC_MB_STATE.waking", 0x1A0, 1, 0, 1, 1, .ro, 0, .none, .any⟩,
   ⟨"FABC_MB_DIRTY_b.bits", 0x1A4, 4, 4, 31, 0, .ro, 0, .none, .any⟩,
   ⟨"FABC_MB_ACC.count", 0x1B4, 1, 0, 16, 0, .ro, 0, .none, .any⟩,
   ⟨"FABC_MQ_BASE_q.base", 0x200, 8, 16, 27, 0, .ro, 0, .none, .any⟩,
   ⟨"FABC_MQ_CFG_q.size_log2", 0x204, 8, 16, 4, 0, .ro, 0, .none, .any⟩,
   ⟨"FABC_MQ_CFG_q.mode", 0x204, 8, 16, 5, 5, .ro, 0, .none, .any⟩,
   ⟨"FABC_MQ_CFG_q.seq_step", 0x204, 8, 16, 31, 16, .ro, 0, .none, .any⟩,
   ⟨"FABC_MQ_STAT_q.occupied", 0x208, 8, 16, 4, 0, .ro, 0, .none, .any⟩,
   ⟨"FABC_MQ_STAT_q.outstanding", 0x208, 8, 16, 12, 8, .ro, 0, .none, .any⟩,
   ⟨"FABC_MQ_STAT_q.tag_wait", 0x208, 8, 16, 20, 16, .ro, 0, .none, .any⟩,
   ⟨"FABC_MQ_STAT_q.word", 0x208, 8, 16, 26, 24, .ro, 0, .none, .any⟩,
   ⟨"FABC_MQ_CNT_q.issued", 0x20C, 8, 16, 15, 0, .ro, 0, .none, .any⟩,
   ⟨"FABC_MQ_ECC_CNT.count", 0x280, 1, 0, 15, 0, .rc, 0, .none, .any⟩,
   ⟨"FABC_MQ_ECC_LAST.queue", 0x284, 1, 0, 2, 0, .rc, 0, .none, .any⟩,
   ⟨"FABC_MQ_ECC_LAST.entry", 0x284, 1, 0, 6, 3, .rc, 0, .none, .any⟩,
   ⟨"FABC_MQ_ECC_LAST.word", 0x284, 1, 0, 9, 7, .rc, 0, .none, .any⟩]

/-- Fields of the FAB cluster pages (R87, R115, R136, R151, R173, R201, R404), part 3. -/
def fields_fabc_3 : List Field :=
  [⟨"FABC_MQ_ECC_LAST.syndrome", 0x284, 1, 0, 17, 10, .rc, 0, .none, .any⟩,
   ⟨"FABC_MQ_ECC_LAST.ue", 0x284, 1, 0, 24, 24, .rc, 0, .none, .any⟩,
   ⟨"FABC_MQ_ECC_LAST.valid", 0x284, 1, 0, 31, 31, .rc, 0, .none, .any⟩,
   ⟨"FABC_MQ_TAG.in_use", 0x288, 1, 0, 9, 0, .ro, 0, .none, .any⟩,
   ⟨"FABC_MQ_TAG.peak", 0x288, 1, 0, 25, 16, .rc, 0, .none, .any⟩,
   ⟨"FABC_MQ_TAGWAIT.cycles", 0x28C, 1, 0, 31, 0, .rc, 0, .none, .any⟩,
   ⟨"FABC_XP_CFG_b.word", 0x300, 4, 8, 11, 0, .ro, 0, .none, .any⟩,
   ⟨"FABC_XP_CFG_b.valid", 0x300, 4, 8, 31, 31, .ro, 0, .none, .any⟩,
   ⟨"FABC_XP_SNAP_b.count", 0x304, 4, 8, 31, 0, .ro, 0, .none, .any⟩]

/-- Fields of the FAB cluster pages (R87, R115, R136, R151, R173, R201, R404). -/
def fields_fabc : List Field := fields_fabc_0 ++ fields_fabc_1 ++ fields_fabc_2 ++ fields_fabc_3

/-- Fields of the FAB segment pages (R114, R137, R248), part 0. -/
def fields_fabs_0 : List Field :=
  [⟨"FABS_SEQ_CFG.cyc_len", 0x040, 1, 0, 10, 0, .ro, 0, .none, .any⟩,
   ⟨"FABS_SEQ_CFG.rpt_count", 0x040, 1, 0, 22, 16, .ro, 0, .none, .any⟩,
   ⟨"FABS_SEQ_CFG.lead", 0x040, 1, 0, 31, 31, .ro, 0, .none, .any⟩,
   ⟨"FABS_SEQ_LEN.exec_len", 0x044, 1, 0, 14, 0, .ro, 0, .none, .any⟩,
   ⟨"FABS_SEQ_LEN.job_len", 0x044, 1, 0, 30, 16, .ro, 0, .none, .any⟩,
   ⟨"FABS_SEQ_STAT.exec_step", 0x048, 1, 0, 13, 0, .ro, 0, .none, .any⟩,
   ⟨"FABS_SEQ_STAT.prog_step", 0x048, 1, 0, 23, 14, .ro, 0, .none, .any⟩,
   ⟨"FABS_SEQ_STAT.depth", 0x048, 1, 0, 26, 24, .ro, 0, .none, .any⟩,
   ⟨"FABS_SEQ_STAT.state", 0x048, 1, 0, 30, 28, .ro, 0, .none, .any⟩,
   ⟨"FABS_DCN_LO.m", 0x050, 1, 0, 31, 0, .ro, 0, .none, .any⟩,
   ⟨"FABS_DCN_HI.m", 0x054, 1, 0, 31, 0, .ro, 0, .none, .any⟩,
   ⟨"FABS_HOLD_LO.count", 0x058, 1, 0, 31, 0, .ro, 0, .none, .any⟩,
   ⟨"FABS_HOLD_HI.count", 0x05C, 1, 0, 31, 0, .ro, 0, .none, .any⟩,
   ⟨"FABS_HOLD_LAST.exec_step", 0x060, 1, 0, 13, 0, .ro, 0, .none, .any⟩,
   ⟨"FABS_HOLD_LAST.cause", 0x060, 1, 0, 15, 14, .ro, 0, .none, .any⟩,
   ⟨"FABS_HOLD_LAST.blocks", 0x060, 1, 0, 27, 16, .ro, 0, .none, .any⟩,
   ⟨"FABS_OFS_INIT_A.ofs012", 0x064, 1, 0, 29, 0, .ro, 0, .none, .any⟩,
   ⟨"FABS_OFS_INIT_B.ofs3", 0x068, 1, 0, 9, 0, .ro, 0, .none, .any⟩,
   ⟨"FABS_OFS_CUR_A.ofs012", 0x06C, 1, 0, 29, 0, .ro, 0, .none, .any⟩,
   ⟨"FABS_OFS_CUR_B.ofs3", 0x070, 1, 0, 9, 0, .ro, 0, .none, .any⟩,
   ⟨"FABS_OFS_CUR_B.rofs", 0x070, 1, 0, 25, 16, .ro, 0, .none, .any⟩,
   ⟨"FABS_RPT_SEL.desc", 0x074, 1, 0, 5, 0, .rw, 0, .live, .any⟩,
   ⟨"FABS_RPT_SEL.word", 0x074, 1, 0, 10, 8, .rw, 0, .live, .any⟩,
   ⟨"FABS_RPT_DATA.data", 0x078, 1, 0, 31, 0, .ro, 0, .none, .any⟩,
   ⟨"FABS_LINE_CFG_n.src", 0x100, 20, 8, 2, 0, .rw, 0, .staged, .range 0 6⟩,
   ⟨"FABS_LINE_CFG_n.invert", 0x100, 20, 8, 3, 3, .rw, 0, .staged, .any⟩,
   ⟨"FABS_LINE_CFG_n.value", 0x100, 20, 8, 4, 4, .rw, 0, .staged, .any⟩,
   ⟨"FABS_LINE_CFG_n.arg", 0x100, 20, 8, 31, 8, .rw, 0, .staged, .any⟩,
   ⟨"FABS_LINE_PAT_n.period", 0x104, 20, 8, 15, 0, .rw, 1, .staged, .nonzero⟩,
   ⟨"FABS_LINE_PAT_n.high", 0x104, 20, 8, 31, 16, .rw, 0, .staged, .any⟩]

/-- Fields of the FAB segment pages (R114, R137, R248), part 1. -/
def fields_fabs_1 : List Field :=
  [⟨"FABS_LINE_HOST.value", 0x1A0, 1, 0, 19, 0, .rw, 0, .live, .any⟩,
   ⟨"FABS_LINE_PULSE.set", 0x1A4, 1, 0, 19, 0, .w1s, 0, .live, .any⟩,
   ⟨"FABS_LINE_STATE.value", 0x1A8, 1, 0, 19, 0, .ro, 0, .none, .any⟩,
   ⟨"FABS_JOB.job", 0x1B4, 1, 0, 5, 0, .ro, 0, .none, .any⟩,
   ⟨"FABS_JOB.valid", 0x1B4, 1, 0, 8, 8, .ro, 0, .none, .any⟩,
   ⟨"FABS_JOB.stage", 0x1B4, 1, 0, 10, 9, .ro, 0, .none, .any⟩,
   ⟨"FABS_JOB.kept", 0x1B4, 1, 0, 11, 11, .ro, 0, .none, .any⟩,
   ⟨"FABS_NET_REGION.under_reload", 0x1B0, 1, 0, 0, 0, .ro, 0, .none, .any⟩,
   ⟨"FABS_NET_REGION.parked_in", 0x1B0, 1, 0, 1, 1, .ro, 0, .none, .any⟩]

/-- Fields of the FAB segment pages (R114, R137, R248). -/
def fields_fabs : List Field := fields_fabs_0 ++ fields_fabs_1

/-- Fields of the REF pages (R202). -/
def fields_ref : List Field :=
  [⟨"REF_CFG.svc_cycles", 0x040, 1, 0, 3, 0, .rw, 4, .live, .nonzero⟩,
   ⟨"REF_PRIO.capture", 0x044, 1, 0, 2, 0, .rw, 0, .staged, .any⟩,
   ⟨"REF_PRIO.ckpt", 0x044, 1, 0, 6, 4, .rw, 0, .staged, .any⟩,
   ⟨"REF_PRIO.scrub", 0x044, 1, 0, 10, 8, .rw, 0, .staged, .any⟩,
   ⟨"REF_PRIO.dma", 0x044, 1, 0, 14, 12, .rw, 0, .staged, .any⟩,
   ⟨"REF_STAT.state", 0x048, 1, 0, 1, 0, .ro, 0, .none, .any⟩,
   ⟨"REF_STAT.lock_owner", 0x048, 1, 0, 8, 4, .ro, 0, .none, .any⟩,
   ⟨"REF_STAT.lock_left", 0x048, 1, 0, 13, 9, .ro, 0, .none, .any⟩,
   ⟨"REF_STAT.heads", 0x048, 1, 0, 20, 16, .ro, 0, .none, .any⟩,
   ⟨"REF_DEAD.count", 0x04C, 1, 0, 31, 0, .rc, 0, .none, .any⟩,
   ⟨"REF_LOCKBRK.count", 0x050, 1, 0, 15, 0, .rc, 0, .none, .any⟩,
   ⟨"REF_CNT_CLR.clr", 0x054, 1, 0, 23, 0, .wo, 0, .live, .any⟩,
   ⟨"REF_GRANT_r.count", 0x100, 24, 16, 31, 0, .ro, 0, .none, .any⟩,
   ⟨"REF_WAIT_r.cycles", 0x104, 24, 16, 31, 0, .ro, 0, .none, .any⟩,
   ⟨"REF_MAXWAIT_r.cycles", 0x108, 24, 16, 15, 0, .rc, 0, .none, .any⟩,
   ⟨"REF_HINT_r.hint", 0x10C, 24, 16, 7, 0, .ro, 0, .none, .any⟩,
   ⟨"REF_HINT_r.boost", 0x10C, 24, 16, 11, 8, .ro, 0, .none, .any⟩,
   ⟨"REF_HINT_r.waiting", 0x10C, 24, 16, 31, 31, .ro, 0, .none, .any⟩]

/-- Fields of the HBMC pages (R203). -/
def fields_hbmc : List Field :=
  [⟨"HBMC_STAT.trained", 0x040, 1, 0, 0, 0, .ro, 0, .none, .any⟩,
   ⟨"HBMC_STAT.self_refresh", 0x040, 1, 0, 1, 1, .ro, 0, .none, .any⟩,
   ⟨"HBMC_STAT.temp_throttle", 0x040, 1, 0, 2, 2, .ro, 0, .none, .any⟩,
   ⟨"HBMC_PC_OK.mask", 0x044, 1, 0, 31, 0, .ro, 0, .none, .any⟩,
   ⟨"HBMC_TEMP.deg_c", 0x048, 1, 0, 7, 0, .ro, 0, .none, .any⟩,
   ⟨"HBMC_TEMP.refresh", 0x048, 1, 0, 9, 8, .ro, 0, .none, .any⟩,
   ⟨"HBMC_ECC_CNT.count", 0x04C, 1, 0, 15, 0, .rc, 0, .none, .any⟩,
   ⟨"HBMC_UE_CNT.count", 0x050, 1, 0, 15, 0, .rc, 0, .none, .any⟩,
   ⟨"HBMC_UE_LAST.pc", 0x054, 1, 0, 4, 0, .rc, 0, .none, .any⟩,
   ⟨"HBMC_UE_LAST.req", 0x054, 1, 0, 28, 5, .rc, 0, .none, .any⟩,
   ⟨"HBMC_UE_LAST.valid", 0x054, 1, 0, 31, 31, .rc, 0, .none, .any⟩,
   ⟨"HBMC_RFM_CNT.count", 0x058, 1, 0, 31, 0, .ro, 0, .none, .any⟩]

/-- Fields of the SCRUB page 0 (R282). -/
def fields_scrub : List Field :=
  [⟨"SCRUB_CFG.sweep_ms", 0x040, 1, 0, 11, 0, .rw, 0x7d0, .staged, .range 500 2000⟩,
   ⟨"SCRUB_CFG.patrol_s", 0x040, 1, 0, 27, 16, .rw, 0x10, .staged, .range 1 3600⟩,
   ⟨"SCRUB_STAT.sweeping", 0x044, 1, 0, 0, 0, .ro, 0, .none, .any⟩,
   ⟨"SCRUB_STAT.overdue", 0x044, 1, 0, 1, 1, .ro, 0, .none, .any⟩,
   ⟨"SCRUB_STAT.stopped", 0x044, 1, 0, 2, 2, .ro, 0, .none, .any⟩,
   ⟨"SCRUB_PASS.count", 0x048, 1, 0, 31, 0, .ro, 0, .none, .any⟩,
   ⟨"SCRUB_POS.seg", 0x04C, 1, 0, 5, 0, .ro, 0, .none, .any⟩,
   ⟨"SCRUB_POS.cl", 0x04C, 1, 0, 11, 6, .ro, 0, .none, .any⟩,
   ⟨"SCRUB_POS.store", 0x04C, 1, 0, 13, 12, .ro, 0, .none, .any⟩,
   ⟨"SCRUB_POS.piece", 0x04C, 1, 0, 23, 14, .ro, 0, .none, .any⟩,
   ⟨"SCRUB_MISMATCH.count", 0x050, 1, 0, 15, 0, .rc, 0, .none, .any⟩,
   ⟨"SCRUB_TMR.fixes", 0x054, 1, 0, 15, 0, .rc, 0, .none, .any⟩,
   ⟨"SCRUB_SIG_LO.sig", 0x058, 1, 0, 31, 0, .ro, 0, .none, .any⟩,
   ⟨"SCRUB_SIG_HI.sig", 0x05C, 1, 0, 31, 0, .ro, 0, .none, .any⟩,
   ⟨"SCRUB_PATROL.bank", 0x060, 1, 0, 13, 0, .ro, 0, .none, .any⟩,
   ⟨"SCRUB_PATROL.word", 0x060, 1, 0, 25, 14, .ro, 0, .none, .any⟩]

/-- Fields of the CKPT pages 1-8 (R283). -/
def fields_ckptSlot : List Field :=
  [⟨"CKPT_JOB_CFG.enable", 0x040, 8, 128, 0, 0, .rw, 0, .live, .any⟩,
   ⟨"CKPT_JOB_CFG.interval_log2", 0x040, 8, 128, 6, 1, .rw, 0x14, .staged, .range 10 32⟩,
   ⟨"CKPT_JOB_CFG.compare", 0x040, 8, 128, 7, 7, .ro, 0, .none, .any⟩,
   ⟨"CKPT_JOB_CFG.replay_limit", 0x040, 8, 128, 10, 8, .rw, 3, .staged, .nonzero⟩,
   ⟨"CKPT_JOB_CFG.log_gib", 0x040, 8, 128, 22, 16, .rw, 8, .static, .range 1 64⟩,
   ⟨"CKPT_JOB_STAT.state", 0x044, 8, 128, 2, 0, .ro, 0, .none, .any⟩,
   ⟨"CKPT_JOB_STAT.attempts", 0x044, 8, 128, 15, 8, .ro, 0, .none, .any⟩,
   ⟨"CKPT_JOB_STAT.log_fill", 0x044, 8, 128, 22, 16, .ro, 0, .none, .any⟩,
   ⟨"CKPT_JOB_LAST_LO.m", 0x048, 8, 128, 31, 0, .ro, 0, .none, .any⟩,
   ⟨"CKPT_JOB_LAST_HI.m", 0x04C, 8, 128, 31, 0, .ro, 0, .none, .any⟩,
   ⟨"CKPT_JOB_OLD_LO.m", 0x050, 8, 128, 31, 0, .ro, 0, .none, .any⟩,
   ⟨"CKPT_JOB_OLD_HI.m", 0x054, 8, 128, 31, 0, .ro, 0, .none, .any⟩,
   ⟨"CKPT_JOB_REPLAYS.count", 0x058, 8, 128, 31, 0, .ro, 0, .none, .any⟩,
   ⟨"CKPT_JOB_CMP.count", 0x05C, 8, 128, 15, 0, .rc, 0, .none, .any⟩,
   ⟨"CKPT_JOB_EXT_LO.mask", 0x060, 8, 128, 31, 0, .rw, 0, .static, .any⟩,
   ⟨"CKPT_JOB_EXT_HI.mask", 0x064, 8, 128, 31, 0, .rw, 0, .static, .any⟩,
   ⟨"CKPT_JOB_SIZE.kib", 0x068, 8, 128, 31, 0, .ro, 0, .none, .any⟩,
   ⟨"CKPT_JOB_PAUSE.ns", 0x06C, 8, 128, 31, 0, .ro, 0, .none, .any⟩,
   ⟨"CKPT_JOB_RETAINED.count", 0x070, 8, 128, 31, 0, .ro, 0, .none, .any⟩]

/-- Fields of the LANE group pages (R310). -/
def fields_laneGroup : List Field :=
  [⟨"LANEG_STAT.pll_lock", 0x040, 1, 0, 0, 0, .ro, 0, .none, .any⟩,
   ⟨"LANEG_STAT.oper", 0x040, 1, 0, 31, 16, .ro, 0, .none, .any⟩,
   ⟨"LANEG_ID.pkg", 0x044, 1, 0, 4, 0, .rw, 0, .static, .any⟩]

/-- Fields of the LANE lane pages (R311), part 0. -/
def fields_lane_0 : List Field :=
  [⟨"LANE_CTL.up", 0x040, 1, 0, 0, 0, .rw, 0, .static, .any⟩,
   ⟨"LANE_CTL.auto_retrain", 0x040, 1, 0, 1, 1, .rw, 0, .live, .any⟩,
   ⟨"LANE_CTL.coding", 0x040, 1, 0, 3, 2, .rw, 0, .static, .range 0 2⟩,
   ⟨"LANE_CTL.reach", 0x040, 1, 0, 4, 4, .rw, 1, .static, .any⟩,
   ⟨"LANE_CTL.test", 0x040, 1, 0, 5, 5, .rw, 0, .static, .any⟩,
   ⟨"LANE_CTL.loopback", 0x040, 1, 0, 7, 6, .rw, 0, .static, .range 0 2⟩,
   ⟨"LANE_STAT.state", 0x044, 1, 0, 2, 0, .ro, 0, .none, .any⟩,
   ⟨"LANE_STAT.marginal", 0x044, 1, 0, 3, 3, .ro, 0, .none, .any⟩,
   ⟨"LANE_STAT.len_mismatch", 0x044, 1, 0, 4, 4, .ro, 0, .none, .any⟩,
   ⟨"LANE_STAT.fail_code", 0x044, 1, 0, 7, 5, .ro, 0, .none, .any⟩,
   ⟨"LANE_STAT.partner_lane", 0x044, 1, 0, 13, 8, .ro, 0, .none, .any⟩,
   ⟨"LANE_STAT.partner_pkg", 0x044, 1, 0, 18, 14, .ro, 0, .none, .any⟩,
   ⟨"LANE_STAT.partner_valid", 0x044, 1, 0, 19, 19, .ro, 0, .none, .any⟩,
   ⟨"LANE_LAT.prog", 0x048, 1, 0, 9, 0, .rw, 0xa0, .static, .range 16 1023⟩,
   ⟨"LANE_LAT.meas", 0x048, 1, 0, 25, 16, .ro, 0, .none, .any⟩,
   ⟨"LANE_SLACK.min", 0x04C, 1, 0, 9, 0, .rc, 0x3ff, .none, .any⟩,
   ⟨"LANE_JOB.len", 0x050, 1, 0, 14, 0, .ro, 0, .none, .any⟩,
   ⟨"LANE_JOB.job", 0x050, 1, 0, 20, 15, .ro, 0, .none, .any⟩,
   ⟨"LANE_JOB.valid", 0x050, 1, 0, 31, 31, .ro, 0, .none, .any⟩,
   ⟨"LANE_FOM.fom", 0x054, 1, 0, 7, 0, .ro, 0, .none, .any⟩,
   ⟨"LANE_FOM.far", 0x054, 1, 0, 15, 8, .ro, 0, .none, .any⟩,
   ⟨"LANE_FOM.marginal_th", 0x054, 1, 0, 23, 16, .rw, 0x44, .live, .any⟩,
   ⟨"LANE_FOM.floor", 0x054, 1, 0, 31, 24, .rw, 0x30, .live, .any⟩,
   ⟨"LANE_TXEQ.c_m2", 0x058, 1, 0, 7, 0, .ro, 0, .none, .any⟩,
   ⟨"LANE_TXEQ.c_m1", 0x058, 1, 0, 15, 8, .ro, 0, .none, .any⟩,
   ⟨"LANE_TXEQ.c_0", 0x058, 1, 0, 23, 16, .ro, 0, .none, .any⟩,
   ⟨"LANE_TXEQ.c_1", 0x058, 1, 0, 31, 24, .ro, 0, .none, .any⟩,
   ⟨"LANE_TXEQ_CFG.preset", 0x05C, 1, 0, 2, 0, .rw, 0, .static, .any⟩,
   ⟨"LANE_CW_CORR.count", 0x060, 1, 0, 31, 0, .rc, 0, .none, .any⟩,
   ⟨"LANE_CW_LOST.count", 0x064, 1, 0, 31, 0, .rc, 0, .none, .any⟩]

/-- Fields of the LANE lane pages (R311), part 1. -/
def fields_lane_1 : List Field :=
  [⟨"LANE_INS.guard", 0x068, 1, 0, 15, 0, .rc, 0, .none, .any⟩,
   ⟨"LANE_INS.slip_max", 0x068, 1, 0, 23, 16, .rc, 0, .none, .any⟩,
   ⟨"LANE_DROP.late", 0x06C, 1, 0, 15, 0, .rc, 0, .none, .any⟩,
   ⟨"LANE_DROP.other", 0x06C, 1, 0, 31, 16, .rc, 0, .none, .any⟩,
   ⟨"LANE_LATO.e", 0x070, 1, 0, 13, 0, .rc, 0, .none, .any⟩,
   ⟨"LANE_LATO.m", 0x070, 1, 0, 29, 14, .rc, 0, .none, .any⟩,
   ⟨"LANE_LATO.valid", 0x070, 1, 0, 31, 31, .rc, 0, .none, .any⟩,
   ⟨"LANE_FOM_LOW.fom", 0x074, 1, 0, 7, 0, .rc, 0xff, .none, .any⟩,
   ⟨"LANE_PAT_CFG.gen", 0x080, 1, 0, 3, 0, .rw, 0, .static, .range 0 9⟩,
   ⟨"LANE_PAT_CFG.chk", 0x080, 1, 0, 7, 4, .rw, 0, .static, .range 0 9⟩,
   ⟨"LANE_PAT_CFG.invert", 0x080, 1, 0, 8, 8, .rw, 0, .static, .any⟩,
   ⟨"LANE_PAT_USER_0.bits", 0x084, 1, 0, 31, 0, .rw, 0, .static, .any⟩,
   ⟨"LANE_PAT_USER_1.bits", 0x088, 1, 0, 31, 0, .rw, 0, .static, .any⟩,
   ⟨"LANE_PAT_USER_2.bits", 0x08C, 1, 0, 15, 0, .rw, 0, .static, .any⟩,
   ⟨"LANE_PAT_STAT.lock", 0x090, 1, 0, 0, 0, .ro, 0, .none, .any⟩,
   ⟨"LANE_PAT_ERR_LO.count", 0x094, 1, 0, 31, 0, .ro, 0, .none, .any⟩,
   ⟨"LANE_PAT_ERR_HI.count", 0x098, 1, 0, 31, 0, .ro, 0, .none, .any⟩,
   ⟨"LANE_PAT_CNT_LO.count", 0x09C, 1, 0, 31, 0, .ro, 0, .none, .any⟩,
   ⟨"LANE_PAT_CNT_HI.count", 0x0A0, 1, 0, 31, 0, .ro, 0, .none, .any⟩,
   ⟨"LANE_PAT_CLR.clr", 0x0A4, 1, 0, 0, 0, .wo, 0, .live, .any⟩,
   ⟨"LANE_INJ.mode", 0x0A8, 1, 0, 1, 0, .rw, 0, .live, .any⟩,
   ⟨"LANE_INJ.n", 0x0A8, 1, 0, 9, 2, .rw, 1, .live, .nonzero⟩,
   ⟨"LANE_INJ.k", 0x0A8, 1, 0, 13, 10, .rw, 3, .live, .range 3 12⟩,
   ⟨"LANE_INJ.fire", 0x0A8, 1, 0, 16, 16, .wo, 0, .live, .any⟩,
   ⟨"LANE_INJ_CNT.count", 0x0AC, 1, 0, 31, 0, .rc, 0, .none, .any⟩]

/-- Fields of the LANE lane pages (R311). -/
def fields_lane : List Field := fields_lane_0 ++ fields_lane_1

/-- Fields of the TIME page (R333, R334), part 0. -/
def fields_time_0 : List Field :=
  [⟨"TIME_NOW_FRAC.frac", 0x040, 1, 0, 15, 0, .ro, 0, .none, .any⟩,
   ⟨"TIME_NOW_NS.ns", 0x044, 1, 0, 29, 0, .ro, 0, .none, .any⟩,
   ⟨"TIME_NOW_SEC_LO.sec", 0x048, 1, 0, 31, 0, .ro, 0, .none, .any⟩,
   ⟨"TIME_NOW_SEC_HI.sec", 0x04C, 1, 0, 15, 0, .ro, 0, .none, .any⟩,
   ⟨"TIME_FLAT_LO.ns", 0x050, 1, 0, 31, 0, .ro, 0, .none, .any⟩,
   ⟨"TIME_FLAT_HI.ns", 0x054, 1, 0, 31, 0, .ro, 0, .none, .any⟩,
   ⟨"TIME_INC_FRAC.frac", 0x058, 1, 0, 31, 0, .rw, 0x66666666, .staged, .any⟩,
   ⟨"TIME_INC_NS.ns", 0x05C, 1, 0, 3, 0, .rw, 6, .staged, .range 5 7⟩,
   ⟨"TIME_CMD.op", 0x060, 1, 0, 2, 0, .wo, 0, .live, .range 1 4⟩,
   ⟨"TIME_STAT.set_armed", 0x064, 1, 0, 0, 0, .ro, 1, .none, .any⟩,
   ⟨"TIME_STAT.slewing", 0x064, 1, 0, 1, 1, .ro, 0, .none, .any⟩,
   ⟨"TIME_STAT.jump_refused", 0x064, 1, 0, 2, 2, .ro, 0, .none, .any⟩,
   ⟨"TIME_SET_NS.ns", 0x068, 1, 0, 29, 0, .rw, 0, .live, .any⟩,
   ⟨"TIME_SET_SEC_LO.sec", 0x06C, 1, 0, 31, 0, .rw, 0, .live, .any⟩,
   ⟨"TIME_SET_SEC_HI.sec", 0x070, 1, 0, 15, 0, .rw, 0, .live, .any⟩,
   ⟨"TIME_ADJ_NS.ns", 0x074, 1, 0, 31, 0, .rw, 0, .live, .any⟩,
   ⟨"TIME_ADJ_FRAC.frac", 0x078, 1, 0, 15, 0, .rw, 0, .live, .any⟩,
   ⟨"TIME_JUMP_TH.ns", 0x07C, 1, 0, 23, 0, .rw, 0x3e8, .live, .any⟩,
   ⟨"TIME_SLEW.ppm", 0x080, 1, 0, 9, 0, .rw, 0x64, .live, .range 1 1000⟩,
   ⟨"TIME_SLEW_LEFT.ns", 0x084, 1, 0, 31, 0, .ro, 0, .none, .any⟩,
   ⟨"TIME_CMP_T_LO_j.ns", 0x100, 8, 16, 31, 0, .rw, 0, .live, .any⟩,
   ⟨"TIME_CMP_T_HI_j.ns", 0x104, 8, 16, 31, 0, .rw, 0, .live, .any⟩,
   ⟨"TIME_CMP_PER_j.ns", 0x108, 8, 16, 31, 0, .rw, 0, .live, .any⟩,
   ⟨"TIME_CMP_CTL_j.arm", 0x10C, 8, 16, 0, 0, .rw, 0, .live, .any⟩,
   ⟨"TIME_CMP_CTL_j.missed", 0x10C, 8, 16, 1, 1, .w1c, 0, .live, .any⟩,
   ⟨"TIME_CMP_CTL_j.width", 0x10C, 8, 16, 15, 8, .rw, 8, .live, .nonzero⟩,
   ⟨"TIME_CAP_CTL_k.edge", 0x200, 4, 16, 1, 0, .rw, 0, .live, .any⟩,
   ⟨"TIME_CAP_CTL_k.full", 0x200, 4, 16, 2, 2, .ro, 0, .none, .any⟩,
   ⟨"TIME_CAP_CTL_k.lost", 0x200, 4, 16, 23, 8, .rc, 0, .none, .any⟩,
   ⟨"TIME_CAP_NS_k.ns", 0x204, 4, 16, 29, 0, .ro, 0, .none, .any⟩]

/-- Fields of the TIME page (R333, R334), part 1. -/
def fields_time_1 : List Field :=
  [⟨"TIME_CAP_SEC_LO_k.sec", 0x208, 4, 16, 31, 0, .ro, 0, .none, .any⟩,
   ⟨"TIME_CAP_SEC_HI_k.sec", 0x20C, 4, 16, 15, 0, .ro, 0, .none, .any⟩,
   ⟨"TIME_CAP_SEC_HI_k.frac", 0x20C, 4, 16, 31, 16, .ro, 0, .none, .any⟩,
   ⟨"HUD_CFG_j.lag", 0x400, 64, 16, 3, 0, .ro, 8, .none, .any⟩,
   ⟨"HUD_CFG_j.ck_lead", 0x400, 64, 16, 10, 4, .ro, 0x20, .none, .any⟩,
   ⟨"HUD_CFG_j.pin_gate", 0x400, 64, 16, 11, 11, .ro, 0, .none, .any⟩,
   ⟨"HUD_STAT_j.state", 0x404, 64, 16, 2, 0, .ro, 0, .none, .any⟩,
   ⟨"HUD_STAT_j.epoch", 0x404, 64, 16, 5, 3, .ro, 0, .none, .any⟩,
   ⟨"HUD_STAT_j.ck", 0x404, 64, 16, 6, 6, .ro, 0, .none, .any⟩,
   ⟨"HUD_STAT_j.ck_m", 0x404, 64, 16, 15, 8, .ro, 0, .none, .any⟩,
   ⟨"HUD_STAT_j.min_done", 0x404, 64, 16, 31, 16, .ro, 0, .none, .any⟩,
   ⟨"HUD_HOLD_j.blocks", 0x408, 64, 16, 31, 0, .rc, 0, .none, .any⟩,
   ⟨"HUD_LATE_j.count", 0x40C, 64, 16, 31, 0, .rc, 0, .none, .any⟩,
   ⟨"HUD_CFG.out_job", 0x800, 1, 0, 5, 0, .rw, 0, .live, .any⟩]

/-- Fields of the TIME page (R333, R334). -/
def fields_time : List Field := fields_time_0 ++ fields_time_1

/-- Fields of the CAP page 0 (R352). -/
def fields_cap : List Field :=
  [⟨"CAP_CFG.job", 0x040, 1, 0, 5, 0, .ro, 0, .none, .any⟩,
   ⟨"CAP_CFG.open", 0x040, 1, 0, 6, 6, .ro, 0, .none, .any⟩,
   ⟨"CAP_CFG.wrap", 0x040, 1, 0, 8, 8, .rw, 0, .static, .any⟩,
   ⟨"CAP_CFG.remote_out", 0x040, 1, 0, 9, 9, .rw, 0, .static, .any⟩,
   ⟨"CAP_CFG.trig_out", 0x040, 1, 0, 10, 10, .rw, 0, .static, .any⟩,
   ⟨"CAP_REGION.base", 0x044, 1, 0, 24, 0, .ro, 0, .none, .any⟩,
   ⟨"CAP_SEG_SIZE.log2", 0x048, 1, 0, 5, 0, .ro, 0, .none, .any⟩,
   ⟨"CAP_SEG_COUNT.count", 0x04C, 1, 0, 16, 0, .ro, 0, .none, .any⟩,
   ⟨"CAP_POST.cycles", 0x050, 1, 0, 31, 0, .rw, 0, .static, .any⟩,
   ⟨"CAP_PROBES.n", 0x054, 1, 0, 13, 0, .ro, 0, .none, .any⟩,
   ⟨"CAP_CMD.op", 0x058, 1, 0, 2, 0, .wo, 0, .live, .range 1 3⟩,
   ⟨"CAP_STAT.state", 0x05C, 1, 0, 2, 0, .ro, 0, .none, .any⟩,
   ⟨"CAP_STAT.seg", 0x05C, 1, 0, 18, 3, .ro, 0, .none, .any⟩,
   ⟨"CAP_STAT.seq", 0x05C, 1, 0, 22, 19, .ro, 0, .none, .any⟩,
   ⟨"CAP_SEGS.done", 0x060, 1, 0, 16, 0, .ro, 0, .none, .any⟩,
   ⟨"CAP_POST_LEFT.cycles", 0x064, 1, 0, 31, 0, .ro, 0, .none, .any⟩,
   ⟨"CAP_LAST_M_LO.m", 0x068, 1, 0, 31, 0, .ro, 0, .none, .any⟩,
   ⟨"CAP_LAST_M_HI.m", 0x06C, 1, 0, 31, 0, .ro, 0, .none, .any⟩,
   ⟨"CAP_GAP.cycles", 0x070, 1, 0, 31, 0, .rc, 0, .none, .any⟩,
   ⟨"CAP_GAP_REC.count", 0x074, 1, 0, 15, 0, .rc, 0, .none, .any⟩,
   ⟨"CAP_STAGE.fill", 0x078, 1, 0, 11, 0, .ro, 0, .none, .any⟩,
   ⟨"CAP_STAGE.peak", 0x078, 1, 0, 27, 16, .rc, 0, .none, .any⟩,
   ⟨"CAP_TRIG_IGN.count", 0x07C, 1, 0, 15, 0, .rc, 0, .none, .any⟩]

/-- Fields of the CAP page 1 (R353). -/
def fields_capSeq : List Field :=
  [⟨"CAP_ST_A_s.mask", 0x040, 16, 16, 31, 0, .rw, 0, .static, .any⟩,
   ⟨"CAP_ST_B_s.mask", 0x044, 16, 16, 31, 0, .rw, 0, .static, .any⟩,
   ⟨"CAP_ST_CTL_s.next_a", 0x048, 16, 16, 3, 0, .rw, 0, .static, .any⟩,
   ⟨"CAP_ST_CTL_s.next_b", 0x048, 16, 16, 7, 4, .rw, 0, .static, .any⟩,
   ⟨"CAP_ST_CTL_s.all_a", 0x048, 16, 16, 8, 8, .rw, 0, .static, .any⟩,
   ⟨"CAP_ST_CTL_s.inv_a", 0x048, 16, 16, 9, 9, .rw, 0, .static, .any⟩,
   ⟨"CAP_ST_CTL_s.all_b", 0x048, 16, 16, 10, 10, .rw, 0, .static, .any⟩,
   ⟨"CAP_ST_CTL_s.inv_b", 0x048, 16, 16, 11, 11, .rw, 0, .static, .any⟩,
   ⟨"CAP_ST_ACT_s.cnt", 0x04C, 16, 16, 7, 0, .rw, 0, .static, .any⟩,
   ⟨"CAP_ST_ACT_s.rst", 0x04C, 16, 16, 15, 8, .rw, 0, .static, .any⟩,
   ⟨"CAP_ST_ACT_s.tstart", 0x04C, 16, 16, 19, 16, .rw, 0, .static, .any⟩,
   ⟨"CAP_ST_ACT_s.fire", 0x04C, 16, 16, 20, 20, .rw, 0, .static, .any⟩,
   ⟨"CAP_ST_ACT_s.pulse", 0x04C, 16, 16, 21, 21, .rw, 0, .static, .any⟩,
   ⟨"CAP_SEQ_CFG.rearm", 0x140, 1, 0, 3, 0, .rw, 0, .static, .any⟩]

/-- Fields of the CAP page 2 (R354). -/
def fields_capCmp : List Field :=
  [⟨"CAP_CMP_CFG_j.src", 0x040, 8, 32, 1, 0, .rw, 0, .static, .range 0 2⟩,
   ⟨"CAP_CMP_CFG_j.w", 0x040, 8, 32, 8, 2, .rw, 0, .static, .any⟩,
   ⟨"CAP_CMP_CFG_j.mode", 0x040, 8, 32, 10, 9, .rw, 0, .static, .range 0 2⟩,
   ⟨"CAP_CMP_MASK_LO_j.mask", 0x044, 8, 32, 31, 0, .rw, 0, .static, .any⟩,
   ⟨"CAP_CMP_MASK_HI_j.mask", 0x048, 8, 32, 31, 0, .rw, 0, .static, .any⟩,
   ⟨"CAP_CMP_VAL_LO_j.value", 0x04C, 8, 32, 31, 0, .rw, 0, .static, .any⟩,
   ⟨"CAP_CMP_VAL_HI_j.value", 0x050, 8, 32, 31, 0, .rw, 0, .static, .any⟩,
   ⟨"CAP_CNT_CFG_i.event", 0x140, 8, 32, 4, 0, .rw, 0, .static, .range 0 27⟩,
   ⟨"CAP_CNT_LIM_LO_i.limit", 0x144, 8, 32, 31, 0, .rw, 0, .static, .any⟩,
   ⟨"CAP_CNT_LIM_HI_i.limit", 0x148, 8, 32, 15, 0, .rw, 0, .static, .any⟩,
   ⟨"CAP_CNT_VAL_LO_i.value", 0x14C, 8, 32, 31, 0, .ro, 0, .none, .any⟩,
   ⟨"CAP_CNT_VAL_HI_i.value", 0x150, 8, 32, 15, 0, .ro, 0, .none, .any⟩,
   ⟨"CAP_TMR_DUR_LO_k.ns", 0x240, 4, 16, 31, 0, .rw, 0, .static, .any⟩,
   ⟨"CAP_TMR_DUR_HI_k.ns", 0x244, 4, 16, 31, 0, .rw, 0, .static, .any⟩,
   ⟨"CAP_TMR_STAT_k.running", 0x248, 4, 16, 0, 0, .ro, 0, .none, .any⟩,
   ⟨"CAP_TMR_STAT_k.expired", 0x248, 4, 16, 1, 1, .ro, 0, .none, .any⟩]

/-- Fields of the NOC page 0 (R377). -/
def fields_noc : List Field :=
  [⟨"NOC_CFG.host_prio", 0x040, 1, 0, 2, 0, .rw, 3, .live, .range 0 6⟩,
   ⟨"NOC_CFG.bar2_prio", 0x040, 1, 0, 6, 4, .rw, 2, .live, .range 0 6⟩,
   ⟨"NOC_DEMOTE.count", 0x044, 1, 0, 15, 0, .rc, 0, .none, .any⟩,
   ⟨"NOC_MGT_MAX.cycles", 0x048, 1, 0, 15, 0, .rc, 0, .none, .any⟩,
   ⟨"NOC_RTR_SEL.x", 0x04C, 1, 0, 2, 0, .rw, 0, .live, .any⟩,
   ⟨"NOC_RTR_SEL.y", 0x04C, 1, 0, 6, 4, .rw, 0, .live, .any⟩,
   ⟨"NOC_RTR_SEL.out", 0x04C, 1, 0, 9, 8, .rw, 0, .live, .any⟩,
   ⟨"NOC_RTR_FLITS.count", 0x050, 1, 0, 31, 0, .ro, 0, .none, .any⟩,
   ⟨"NOC_RTR_BUSY.cycles", 0x054, 1, 0, 31, 0, .rc, 0, .none, .any⟩,
   ⟨"NOC_BAD_CMD.count", 0x058, 1, 0, 15, 0, .rc, 0, .none, .any⟩]

/-- Fields of the NOC page 1 (R378). -/
def fields_pcie : List Field :=
  [⟨"PCIE_LINK.speed", 0x040, 1, 0, 2, 0, .ro, 0, .none, .any⟩,
   ⟨"PCIE_LINK.width", 0x040, 1, 0, 7, 3, .ro, 0, .none, .any⟩,
   ⟨"PCIE_LINK.flit", 0x040, 1, 0, 8, 8, .ro, 0, .none, .any⟩,
   ⟨"PCIE_LINK.l1", 0x040, 1, 0, 9, 9, .ro, 0, .none, .any⟩,
   ⟨"PCIE_LINK_CTL.max_speed", 0x044, 1, 0, 2, 0, .rw, 6, .live, .range 1 6⟩,
   ⟨"PCIE_ERR_LAST.code", 0x048, 1, 0, 15, 0, .rc, 0, .none, .any⟩,
   ⟨"PCIE_ERR_LAST.fn", 0x048, 1, 0, 21, 16, .rc, 0, .none, .any⟩,
   ⟨"PCIE_ERR_LAST.write", 0x048, 1, 0, 22, 22, .rc, 0, .none, .any⟩,
   ⟨"PCIE_ERR_LAST.bar", 0x048, 1, 0, 24, 23, .rc, 0, .none, .any⟩,
   ⟨"PCIE_ERR_LAST.valid", 0x048, 1, 0, 31, 31, .rc, 0, .none, .any⟩,
   ⟨"PCIE_ERR_ADDR_LO.addr", 0x04C, 1, 0, 31, 0, .rc, 0, .none, .any⟩,
   ⟨"PCIE_ERR_ADDR_HI.addr", 0x050, 1, 0, 31, 0, .rc, 0, .none, .any⟩,
   ⟨"PCIE_ERR_CNT.poison", 0x054, 1, 0, 15, 0, .rc, 0, .none, .any⟩,
   ⟨"PCIE_ERR_CNT.ur_ca", 0x054, 1, 0, 31, 16, .rc, 0, .none, .any⟩,
   ⟨"PCIE_RESET_CNT.link", 0x058, 1, 0, 15, 0, .ro, 0, .none, .any⟩,
   ⟨"PCIE_RESET_CNT.flr", 0x058, 1, 0, 31, 16, .ro, 0, .none, .any⟩]

/-- Fields of the every DISP page (R402). -/
def fields_disp : List Field :=
  [⟨"DISP_GRP_CFG.weight", 0x040, 1, 0, 7, 0, .rw, 1, .staged, .nonzero⟩,
   ⟨"DISP_GRP_CFG.max_eng", 0x040, 1, 0, 13, 8, .rw, 0x20, .staged, .range 1 32⟩,
   ⟨"DISP_GRP_STAT.ready", 0x044, 1, 0, 12, 0, .ro, 0, .none, .any⟩,
   ⟨"DISP_GRP_STAT.pq", 0x044, 1, 0, 24, 16, .ro, 0, .none, .any⟩,
   ⟨"DISP_GRP_STAT.engines", 0x044, 1, 0, 29, 25, .ro, 0, .none, .any⟩,
   ⟨"DISP_GRP_STAT.spilling", 0x044, 1, 0, 31, 31, .ro, 0, .none, .any⟩,
   ⟨"DISP_GRP_SPILL.packets", 0x048, 1, 0, 31, 0, .ro, 0, .none, .any⟩,
   ⟨"DISP_GRP_SPILL_CAP.packets", 0x04C, 1, 0, 31, 0, .ro, 0, .none, .any⟩,
   ⟨"DISP_GRP_MAXWAIT.cycles", 0x050, 1, 0, 31, 0, .rc, 0, .none, .any⟩,
   ⟨"DISP_GRP_PKT_H2D.count", 0x054, 1, 0, 31, 0, .rc, 0, .none, .any⟩,
   ⟨"DISP_GRP_PKT_D2H.count", 0x058, 1, 0, 31, 0, .rc, 0, .none, .any⟩,
   ⟨"DISP_DROP.no_flow", 0x05C, 1, 0, 15, 0, .rc, 0, .none, .any⟩,
   ⟨"DISP_DROP.bad_db", 0x05C, 1, 0, 31, 16, .rc, 0, .none, .any⟩,
   ⟨"DISP_GRP_HIST_i.count", 0x080, 16, 4, 31, 0, .rc, 0, .none, .any⟩]

/-- Fields of the DISP page 0, above 0x800 (R403). -/
def fields_dispTop : List Field :=
  [⟨"DISP_CTX_STAT.in_use", 0x800, 1, 0, 12, 0, .ro, 0, .none, .any⟩,
   ⟨"DISP_CTX_STAT.idle", 0x800, 1, 0, 28, 16, .ro, 0, .none, .any⟩,
   ⟨"DISP_CTX_STAT.overflow", 0x800, 1, 0, 31, 31, .ro, 0, .none, .any⟩,
   ⟨"DISP_PARKED.count", 0x804, 1, 0, 17, 0, .ro, 0, .none, .any⟩,
   ⟨"DISP_EVICT.count", 0x808, 1, 0, 31, 0, .rc, 0, .none, .any⟩,
   ⟨"DISP_OVF.count", 0x80C, 1, 0, 31, 0, .rc, 0, .none, .any⟩,
   ⟨"DISP_TE_ACTIVE.mask", 0x810, 1, 0, 31, 0, .ro, 0, .none, .any⟩,
   ⟨"DISP_TE_BUSY_t.cycles", 0x900, 32, 8, 31, 0, .rc, 0, .none, .any⟩,
   ⟨"DISP_TE_PKT_t.count", 0x904, 32, 8, 31, 0, .rc, 0, .none, .any⟩]

/-- Fields of the SENS page (R429). -/
def fields_sens : List Field :=
  [⟨"SENS_TS_SEL.ts", 0x040, 1, 0, 7, 0, .rw, 0, .live, .any⟩,
   ⟨"SENS_TS_VAL.temp", 0x044, 1, 0, 10, 0, .ro, 0, .none, .any⟩,
   ⟨"SENS_TMAX.ts", 0x048, 1, 0, 23, 16, .ro, 0, .none, .any⟩,
   ⟨"SENS_TMAX.temp", 0x048, 1, 0, 10, 0, .ro, 0, .none, .any⟩,
   ⟨"SENS_VM_SEL.vm", 0x04C, 1, 0, 5, 0, .rw, 0, .live, .any⟩,
   ⟨"SENS_VM_VAL.mv", 0x050, 1, 0, 15, 0, .ro, 0, .none, .any⟩,
   ⟨"SENS_RAIL_SEL.rail", 0x054, 1, 0, 3, 0, .rw, 0, .live, .range 0 11⟩,
   ⟨"SENS_RAIL_I.i", 0x058, 1, 0, 19, 0, .ro, 0, .none, .any⟩,
   ⟨"SENS_PWR.avg", 0x05C, 1, 0, 15, 0, .ro, 0, .none, .any⟩,
   ⟨"SENS_PWR.peak", 0x05C, 1, 0, 31, 16, .rc, 0, .none, .any⟩]

/-- Fields of the MBOX bank of a function (R434). -/
def fields_mbox : List Field :=
  [⟨"MBOX_CMD_BASE_LO.addr", 0x040, 1, 0, 31, 0, .rw, 0, .static, .any⟩,
   ⟨"MBOX_CMD_BASE_HI.addr", 0x044, 1, 0, 31, 0, .rw, 0, .static, .any⟩,
   ⟨"MBOX_CPL_BASE_LO.addr", 0x048, 1, 0, 31, 0, .rw, 0, .static, .any⟩,
   ⟨"MBOX_CPL_BASE_HI.addr", 0x04C, 1, 0, 31, 0, .rw, 0, .static, .any⟩,
   ⟨"MBOX_RING_CFG.enable", 0x050, 1, 0, 0, 0, .rw, 0, .live, .any⟩,
   ⟨"MBOX_RING_CFG.cmd_log2", 0x050, 1, 0, 7, 4, .rw, 4, .static, .range 4 12⟩,
   ⟨"MBOX_RING_CFG.cpl_log2", 0x050, 1, 0, 11, 8, .rw, 4, .static, .range 4 12⟩,
   ⟨"MBOX_CMD_CIDX.count", 0x054, 1, 0, 31, 0, .ro, 0, .none, .any⟩,
   ⟨"MBOX_CPL_PIDX.count", 0x058, 1, 0, 31, 0, .ro, 0, .none, .any⟩,
   ⟨"MBOX_STAT.ring_error", 0x05C, 1, 0, 0, 0, .ro, 0, .none, .any⟩,
   ⟨"MBOX_STAT.cause", 0x05C, 1, 0, 3, 1, .ro, 0, .none, .any⟩,
   ⟨"MBOX_STAT.in_progress", 0x05C, 1, 0, 12, 8, .ro, 0, .none, .any⟩,
   ⟨"MBOX_DB_CMD_SEEN.count", 0x060, 1, 0, 31, 0, .ro, 0, .none, .any⟩]

/-- Fields of the WDT page (R476). A value outside the range that a field's description states, here and in the other tables
(WDT0_CFG.period 0, TIME_CMP_CTL_j.width 0, TRACE_HBM_SIZE.mib outside 16–4,096, CKPT_JOB_CFG.log_gib 0 and above 64), is taken
for a reserved encoding (R12), which those descriptions do not call it (DESIGN CHOICE, assumption 70). -/
def fields_wdt : List Field :=
  [⟨"WDT0_CFG.enable", 0x040, 1, 0, 0, 0, .rw, 0, .live, .any⟩,
   ⟨"WDT0_CFG.freeze", 0x040, 1, 0, 1, 1, .rw, 1, .live, .any⟩,
   ⟨"WDT0_CFG.period", 0x040, 1, 0, 31, 8, .rw, 0xf4240, .live, .nonzero⟩,
   ⟨"WDT0_CNT.left", 0x044, 1, 0, 23, 0, .ro, 0, .none, .any⟩,
   ⟨"WDT0_KICK.key", 0x048, 1, 0, 15, 0, .wo, 0, .live, .any⟩,
   ⟨"WDT1_CNT.left", 0x04C, 1, 0, 23, 0, .ro, 0, .none, .any⟩,
   ⟨"WDT1_CNT.expiries", 0x04C, 1, 0, 31, 24, .ro, 0, .none, .any⟩]

/-- Fields of the DBG page (R485), part 0. -/
def fields_dbg_0 : List Field :=
  [⟨"DBG_CTL.halt_pkg_on_mon", 0x040, 1, 0, 0, 0, .rw, 0, .live, .any⟩,
   ⟨"DBG_CTL.mon_on_pkg_halt", 0x040, 1, 0, 1, 1, .rw, 0, .live, .any⟩,
   ⟨"DBG_CTL.catch_boot", 0x040, 1, 0, 2, 2, .rw, 0, .live, .any⟩,
   ⟨"DBG_CTL.session", 0x040, 1, 0, 3, 3, .rw, 0, .live, .any⟩,
   ⟨"DBG_STAT.unlocked", 0x044, 1, 0, 0, 0, .ro, 0, .none, .any⟩,
   ⟨"DBG_STAT.scope", 0x044, 1, 0, 2, 1, .ro, 0, .none, .any⟩,
   ⟨"DBG_STAT.uc_monitor", 0x044, 1, 0, 3, 3, .ro, 0, .none, .any⟩,
   ⟨"DBG_STAT.uc_sleep", 0x044, 1, 0, 4, 4, .ro, 0, .none, .any⟩,
   ⟨"DBG_STAT.auth_fails", 0x044, 1, 0, 11, 8, .ro, 0, .none, .any⟩,
   ⟨"DBG_RC_CMD.halt", 0x048, 1, 0, 0, 0, .wo, 0, .live, .any⟩,
   ⟨"DBG_RC_CMD.resume", 0x048, 1, 0, 1, 1, .wo, 0, .live, .any⟩,
   ⟨"DBG_RC_STAT.halted", 0x04C, 1, 0, 0, 0, .ro, 0, .none, .any⟩,
   ⟨"DBG_RC_STAT.pending", 0x04C, 1, 0, 1, 1, .ro, 0, .none, .any⟩,
   ⟨"DBG_RC_STAT.by_whistle", 0x04C, 1, 0, 2, 2, .ro, 0, .none, .any⟩,
   ⟨"DBG_VEC.vec", 0x050, 1, 0, 31, 2, .rw, 0, .live, .any⟩,
   ⟨"DBG_MON_CFG.live_prio", 0x054, 1, 0, 3, 0, .rw, 0xf, .live, .any⟩,
   ⟨"DBG_MON_CFG.ebreak", 0x054, 1, 0, 4, 4, .rw, 0, .live, .any⟩,
   ⟨"DBG_UC_CMD.halt", 0x058, 1, 0, 0, 0, .wo, 0, .live, .any⟩,
   ⟨"DBG_MON_PC.pc", 0x05C, 1, 0, 31, 0, .ro, 0, .none, .any⟩,
   ⟨"DBG_MON_CAUSE.cause", 0x060, 1, 0, 9, 0, .ro, 0, .none, .any⟩,
   ⟨"DBG_MON_STAT.ignored", 0x064, 1, 0, 15, 0, .rc, 0, .none, .any⟩,
   ⟨"DBG_BP_n.en", 0x080, 4, 8, 0, 0, .rw, 0, .live, .any⟩,
   ⟨"DBG_BP_n.addr", 0x080, 4, 8, 31, 1, .rw, 0, .live, .any⟩,
   ⟨"DBG_WP_n.addr", 0x0A0, 2, 8, 31, 0, .rw, 0, .live, .any⟩,
   ⟨"DBG_WP_CTL_n.en", 0x0A4, 2, 8, 0, 0, .rw, 0, .live, .any⟩,
   ⟨"DBG_WP_CTL_n.load", 0x0A4, 2, 8, 1, 1, .rw, 0, .live, .any⟩,
   ⟨"DBG_WP_CTL_n.store", 0x0A4, 2, 8, 2, 2, .rw, 0, .live, .any⟩,
   ⟨"DBG_WP_CTL_n.mask", 0x0A4, 2, 8, 7, 3, .rw, 0, .live, .any⟩,
   ⟨"DBG_DCC_TX.data", 0x0C0, 1, 0, 31, 0, .rc, 0, .none, .any⟩,
   ⟨"DBG_DCC_RX.data", 0x0C4, 1, 0, 31, 0, .wo, 0, .live, .any⟩]

/-- Fields of the DBG page (R485), part 1. -/
def fields_dbg_1 : List Field :=
  [⟨"DBG_DCC_STAT.tx_count", 0x0C8, 1, 0, 2, 0, .ro, 0, .none, .any⟩,
   ⟨"DBG_DCC_STAT.rx_count", 0x0C8, 1, 0, 6, 4, .ro, 0, .none, .any⟩,
   ⟨"DBG_DCC_STAT.tx_drop", 0x0C8, 1, 0, 8, 8, .w1c, 0, .live, .any⟩,
   ⟨"DBG_DCC_STAT.rx_drop", 0x0C8, 1, 0, 9, 9, .w1c, 0, .live, .any⟩,
   ⟨"DBG_DCC_STAT.rx_th", 0x0C8, 1, 0, 11, 10, .rw, 0, .live, .any⟩,
   ⟨"DBG_DCC_STAT.prio", 0x0C8, 1, 0, 15, 12, .rw, 0, .live, .any⟩,
   ⟨"DBG_DCC_STAT.tx_ie", 0x0C8, 1, 0, 16, 16, .rw, 0, .live, .any⟩,
   ⟨"DBG_DCC_STAT.tx_pop", 0x0C8, 1, 0, 17, 17, .wo, 0, .live, .any⟩,
   ⟨"DBG_AUTH_CMD.op", 0x100, 1, 0, 1, 0, .wo, 0, .live, .any⟩,
   ⟨"DBG_AUTH_CMD.scope", 0x100, 1, 0, 9, 8, .wo, 0, .live, .any⟩,
   ⟨"DBG_AUTH_STAT.chal_valid", 0x104, 1, 0, 0, 0, .ro, 0, .none, .any⟩,
   ⟨"DBG_AUTH_STAT.verifying", 0x104, 1, 0, 1, 1, .ro, 0, .none, .any⟩,
   ⟨"DBG_AUTH_CHAL_i.bytes", 0x120, 8, 4, 31, 0, .ro, 0, .none, .any⟩,
   ⟨"DBG_AUTH_RESP_i.bytes", 0x140, 16, 4, 31, 0, .rw, 0, .live, .any⟩]

/-- Fields of the DBG page (R485). -/
def fields_dbg : List Field := fields_dbg_0 ++ fields_dbg_1

/-- Fields of the TRACE page (R486). -/
def fields_trace : List Field :=
  [⟨"TRACE_CMD.op", 0x040, 1, 0, 1, 0, .wo, 0, .live, .any⟩,
   ⟨"TRACE_CFG.itrace", 0x044, 1, 0, 0, 0, .rw, 1, .static, .any⟩,
   ⟨"TRACE_CFG.dtrace", 0x044, 1, 0, 1, 1, .rw, 0, .static, .any⟩,
   ⟨"TRACE_CFG.cycles", 0x044, 1, 0, 2, 2, .rw, 0, .static, .any⟩,
   ⟨"TRACE_CFG.stall", 0x044, 1, 0, 3, 3, .rw, 0, .static, .any⟩,
   ⟨"TRACE_CFG.sink", 0x044, 1, 0, 5, 4, .rw, 2, .static, .any⟩,
   ⟨"TRACE_CFG.wrap", 0x044, 1, 0, 6, 6, .rw, 1, .static, .any⟩,
   ⟨"TRACE_CFG.mon_excl", 0x044, 1, 0, 7, 7, .rw, 0, .static, .any⟩,
   ⟨"TRACE_CFG.sync_log2", 0x044, 1, 0, 11, 8, .rw, 4, .static, .any⟩,
   ⟨"TRACE_CFG.stall_th", 0x044, 1, 0, 15, 12, .rw, 6, .static, .range 1 8⟩,
   ⟨"TRACE_STOP.window", 0x048, 1, 0, 23, 0, .rw, 0, .static, .any⟩,
   ⟨"TRACE_STOP.en", 0x048, 1, 0, 31, 31, .rw, 0, .static, .any⟩,
   ⟨"TRACE_TRIG.dbg", 0x04C, 1, 0, 0, 0, .rw, 0, .live, .any⟩,
   ⟨"TRACE_TRIG.pin", 0x04C, 1, 0, 1, 1, .rw, 0, .live, .any⟩,
   ⟨"TRACE_TRIG.now", 0x04C, 1, 0, 2, 2, .wo, 0, .live, .any⟩,
   ⟨"TRACE_TRIG.mon", 0x04C, 1, 0, 3, 3, .rw, 0, .live, .any⟩,
   ⟨"TRACE_PAR.div", 0x050, 1, 0, 7, 0, .rw, 1, .static, .nonzero⟩,
   ⟨"TRACE_DFILT_LO.addr", 0x054, 1, 0, 31, 0, .rw, 0, .static, .any⟩,
   ⟨"TRACE_DFILT_HI.addr", 0x058, 1, 0, 31, 0, .rw, 0, .static, .any⟩,
   ⟨"TRACE_HBM_BASE_LO.p", 0x05C, 1, 0, 31, 0, .rw, 0, .static, .any⟩,
   ⟨"TRACE_HBM_BASE_HI.p", 0x060, 1, 0, 31, 0, .rw, 0, .static, .any⟩,
   ⟨"TRACE_HBM_SIZE.mib", 0x064, 1, 0, 15, 0, .rw, 0x10, .static, .range 16 4096⟩,
   ⟨"TRACE_STAT.state", 0x068, 1, 0, 1, 0, .ro, 0, .none, .any⟩,
   ⟨"TRACE_STAT.fill", 0x068, 1, 0, 15, 2, .ro, 0, .none, .any⟩,
   ⟨"TRACE_STAT.ovf", 0x068, 1, 0, 31, 16, .rc, 0, .none, .any⟩,
   ⟨"TRACE_WR_PTR.off", 0x06C, 1, 0, 31, 0, .ro, 0, .none, .any⟩,
   ⟨"TRACE_BUF_ADDR.word", 0x070, 1, 0, 21, 2, .rw, 0, .live, .any⟩,
   ⟨"TRACE_BUF_DATA.data", 0x074, 1, 0, 31, 0, .ro, 0, .none, .any⟩]

/-- Fields of the GPIO page (R498). -/
def fields_gpio : List Field :=
  [⟨"GPIO_IN_w.level", 0x040, 3, 4, 31, 0, .ro, 0, .none, .any⟩,
   ⟨"GPIO_OUT_w.level", 0x050, 3, 4, 31, 0, .rw, 0, .live, .any⟩,
   ⟨"GPIO_SET_w.set", 0x060, 3, 4, 31, 0, .wo, 0, .live, .any⟩,
   ⟨"GPIO_CLR_w.clr", 0x070, 3, 4, 31, 0, .wo, 0, .live, .any⟩,
   ⟨"GPIO_TGL_w.tgl", 0x080, 3, 4, 31, 0, .wo, 0, .live, .any⟩,
   ⟨"GPIO_OE_w.oe", 0x090, 3, 4, 31, 0, .rw, 0, .live, .any⟩,
   ⟨"GPIO_DP_CFG_n.job", 0x100, 16, 4, 5, 0, .rw, 0, .staged, .any⟩,
   ⟨"GPIO_DP_CFG_n.en", 0x100, 16, 4, 8, 8, .rw, 0, .staged, .any⟩,
   ⟨"GPIO_DP_CFG_n.park", 0x100, 16, 4, 10, 9, .rw, 0, .staged, .range 0 2⟩,
   ⟨"GPIO_DP_SRC_q.cl", 0x200, 64, 4, 11, 0, .rw, 0, .staged, .any⟩,
   ⟨"GPIO_DP_SRC_q.tap", 0x200, 64, 4, 13, 12, .rw, 0, .staged, .any⟩,
   ⟨"GPIO_DP_SRC_q.k", 0x200, 64, 4, 23, 14, .rw, 0, .staged, .any⟩,
   ⟨"GPIO_DPCLK_j.job", 0x300, 4, 4, 5, 0, .rw, 0, .staged, .any⟩,
   ⟨"GPIO_DPCLK_j.en", 0x300, 4, 4, 8, 8, .rw, 0, .staged, .any⟩,
   ⟨"GPIO_DPCLK_j.fall_e", 0x300, 4, 4, 22, 9, .rw, 0x10, .staged, .any⟩,
   ⟨"GPIO_DP_LEVEL_LO.bits", 0x310, 1, 0, 31, 0, .ro, 0, .none, .any⟩,
   ⟨"GPIO_DP_LEVEL_HI.bits", 0x314, 1, 0, 31, 0, .ro, 0, .none, .any⟩]

/-- Fields of the PWR page (R502). -/
def fields_pwr : List Field :=
  [⟨"PWR_ON_w.bits", 0x040, 3, 4, 31, 0, .ro, 0, .none, .any⟩,
   ⟨"PWR_RET_w.bits", 0x050, 3, 4, 31, 0, .ro, 0, .none, .any⟩,
   ⟨"PWR_REQ.domain", 0x060, 1, 0, 6, 0, .rw, 0, .live, .range 0 83⟩,
   ⟨"PWR_REQ.op", 0x060, 1, 0, 9, 8, .rw, 0, .live, .range 0 2⟩,
   ⟨"PWR_REQ.go", 0x060, 1, 0, 31, 31, .wo, 0, .live, .any⟩,
   ⟨"PWR_STAT.busy", 0x064, 1, 0, 0, 0, .ro, 0, .none, .any⟩,
   ⟨"PWR_STAT.queued", 0x064, 1, 0, 8, 1, .ro, 0, .none, .any⟩]

/-- Fields of the CLK page (R504). -/
def fields_clk : List Field :=
  [⟨"CLK_STEP.n", 0x040, 1, 0, 9, 0, .rw, 0x320, .static, .range 200 1000⟩,
   ⟨"CLK_STAT.step_lock", 0x044, 1, 0, 3, 0, .ro, 0, .none, .any⟩,
   ⟨"CLK_STAT.hub_lock", 0x044, 1, 0, 4, 4, .ro, 0, .none, .any⟩,
   ⟨"CLK_STAT.hbm_lock", 0x044, 1, 0, 8, 5, .ro, 0, .none, .any⟩,
   ⟨"CLK_STAT.pcie_lock", 0x044, 1, 0, 9, 9, .ro, 0, .none, .any⟩,
   ⟨"CLK_UNLOCK.count", 0x048, 1, 0, 15, 0, .rc, 0, .none, .any⟩]

/-- Fields of the RST page (R509). -/
def fields_rst : List Field :=
  [⟨"RST_CAUSE.por", 0x040, 1, 0, 0, 0, .ro, 0, .none, .any⟩,
   ⟨"RST_CAUSE.pin", 0x040, 1, 0, 1, 1, .ro, 0, .none, .any⟩,
   ⟨"RST_CAUSE.cmd", 0x040, 1, 0, 2, 2, .ro, 0, .none, .any⟩,
   ⟨"RST_CAUSE.thermal", 0x040, 1, 0, 3, 3, .ro, 0, .none, .any⟩,
   ⟨"RST_CMD.key", 0x044, 1, 0, 15, 0, .wo, 0, .live, .any⟩,
   ⟨"RST_WARM.count", 0x048, 1, 0, 15, 0, .ro, 0, .none, .any⟩]

/-- Fields of the EVT page (R430). -/
def fields_evt : List Field :=
  [⟨"EVT_PEND_w.bits", 0x040, 16, 4, 31, 0, .ro, 0, .none, .any⟩,
   ⟨"EVT_ROUTE_s.fn", 0x100, 512, 4, 5, 0, .rw, 0, .live, .any⟩,
   ⟨"EVT_ROUTE_s.vec", 0x100, 512, 4, 8, 6, .rw, 0, .live, .any⟩,
   ⟨"EVT_ROUTE_s.msix", 0x100, 512, 4, 9, 9, .rw, 0, .live, .any⟩,
   ⟨"EVT_ROUTE_s.uc", 0x100, 512, 4, 10, 10, .rw, 0, .live, .any⟩,
   ⟨"EVT_ROUTE_s.uc_prio", 0x100, 512, 4, 14, 11, .rw, 0, .live, .any⟩,
   ⟨"EVT_ROUTE_s.log", 0x100, 512, 4, 15, 15, .rw, 1, .live, .any⟩]

/-- Fields of the GPIO_XBAR page (R499). -/
def fields_xbar : List Field :=
  [⟨"GPIO_XBAR_PIN_p.sel", 0x040, 96, 4, 7, 0, .rw, 0, .live, .range 0 160⟩,
   ⟨"GPIO_XBAR_PIN_p.owner", 0x040, 96, 4, 10, 8, .rw, 0, .live, .oneOf [0, 2, 3, 5]⟩,
   ⟨"GPIO_XBAR_PIN_p.pull", 0x040, 96, 4, 12, 11, .rw, 1, .live, .any⟩,
   ⟨"GPIO_XBAR_PIN_p.drive", 0x040, 96, 4, 14, 13, .rw, 1, .live, .any⟩,
   ⟨"GPIO_XBAR_PIN_p.slow", 0x040, 96, 4, 15, 15, .rw, 0, .live, .any⟩,
   ⟨"GPIO_XBAR_PIN_p.fixed", 0x040, 96, 4, 16, 16, .ro, 0, .none, .any⟩]

end Sys2Proof.Machine
end

