-- ==== Sys2Proof/Machine/Regs.lean ====
section
/-! DEFINITION. Register words: the page map (R35), reset values (R11), reading and changing a register's fields, the
header registers (R39) and recording an error code in a page (R40). -/

namespace Sys2Proof.Machine

/-! ### The page map (R35) -/

/-- PG_ID.block_type of a kind of page (R35). -/
def PageKind.code : PageKind → Nat
  | .dev => 0x01 | .pwr => 0x02 | .clk => 0x03 | .rst => 0x04 | .gpio => 0x05 | .xbar => 0x06 | .wdt => 0x07
  | .time => 0x08 | .sens => 0x09 | .dbg => 0x0A | .trace => 0x0B | .mbox => 0x0C | .evt => 0x0D | .noc => 0x10
  | .ref => 0x11 | .hbmc => 0x12 | .disp => 0x13 | .cap => 0x14 | .ckpt => 0x15 | .scrub => 0x16
  | .laneGroup => 0x17 | .lane => 0x18 | .fabs => 0x20 | .fabc => 0x21

/-- The kind and the instance of a page number; `none` for a number that no page maps (R35, R282, R283, R352, R377). -/
def pageOf (page : Nat) : Option (PageKind × Nat) :=
  if page = 0 then some (.dev, 0)
  else if page = 1 then some (.pwr, 0)
  else if page = 2 then some (.clk, 0)
  else if page = 3 then some (.rst, 0)
  else if page = 4 then some (.gpio, 0)
  else if page = 5 then some (.xbar, 0)
  else if page = 6 then some (.wdt, 0)
  else if page = 7 then some (.time, 0)
  else if page = 8 then some (.sens, 0)
  else if page = 0xA then some (.dbg, 0)
  else if page = 0xB then some (.trace, 0)
  else if page = 0xC then some (.mbox, 0)
  else if page = 0xD then some (.evt, 0)
  else if page < 0x10 then none
  else if page < 0x12 then some (.noc, page - 0x10)
  else if page < 0x20 then none
  else if page < 0xA0 then some (.ref, page - 0x20)
  else if page < 0xA4 then some (.hbmc, page - 0xA0)
  else if page < 0x100 then none
  else if page < 0x110 then some (.disp, page - 0x100)
  else if page < 0x113 then some (.cap, page - 0x110)
  else if page < 0x120 then none
  else if page < 0x129 then some (.ckpt, page - 0x120)
  else if page < 0x130 then none
  else if page = 0x130 then some (.scrub, 0)
  else if page < 0x140 then none
  else if page < 0x180 then if page % 0x10 = 0 then some (.laneGroup, (page - 0x140) / 0x10) else none
  else if page < 0x1C0 then some (.lane, page - 0x180)
  else if page < 0x1000 then none
  else if page < 0x3000 then
    let o := (page - 0x1000) % 0x80
    if o = 0 then some (.fabs, (page - 0x1000) / 0x80)
    else if o ≤ 64 then some (.fabc, o - 1)
    else none
  else none

/-- The first page number of each kind of page. -/
def PageKind.base : PageKind → Nat
  | .dev => 0 | .pwr => 1 | .clk => 2 | .rst => 3 | .gpio => 4 | .xbar => 5 | .wdt => 6 | .time => 7 | .sens => 8
  | .dbg => 0xA | .trace => 0xB | .mbox => 0xC | .evt => 0xD | .noc => 0x10 | .ref => 0x20 | .hbmc => 0xA0
  | .disp => 0x100 | .cap => 0x110 | .ckpt => 0x120 | .scrub => 0x130 | .laneGroup => 0x140 | .lane => 0x180
  | .fabs => 0x1000 | .fabc => 0x1001

/-- BAR0 offset of a register of the first page of a kind. -/
def PageKind.at (k : PageKind) (off : Nat) : Nat := k.base * 0x1000 + off

/-- BAR0 offset of a register of segment `seg`'s page (R35). -/
def fabsAt (seg off : Nat) : Nat := 0x1000000 + seg * 0x80000 + off

/-- BAR0 offset of a register of package cluster `cl`'s page (R35). -/
def fabcAt (cl off : Nat) : Nat := 0x1000000 + (cl / 64) * 0x80000 + (cl % 64 + 1) * 0x1000 + off

/-- BAR0 offset of a register of lane `n`'s page (R35). -/
def laneAt (n off : Nat) : Nat := 0x180000 + n * 0x1000 + off

/-- BAR0 offset of a register of lane group `k`'s page (R35). -/
def laneGroupAt (k off : Nat) : Nat := 0x140000 + k * 0x10000 + off

/-- BAR0 offset of a register of referee `n`'s page (R35). -/
def refAt (n off : Nat) : Nat := 0x20000 + n * 0x1000 + off

/-- BAR0 offset of a register of HBM controller `k`'s page (R35). -/
def hbmcAt (k off : Nat) : Nat := 0xA0000 + k * 0x1000 + off

/-- BAR0 offset of a register of DISP page `g` (R35). -/
def dispAt (g off : Nat) : Nat := 0x100000 + g * 0x1000 + off

/-- BAR0 offset of a register of CAP page `p` (R35). -/
def capAt (p off : Nat) : Nat := 0x110000 + p * 0x1000 + off

/-- BAR0 offset of a register of job `j`'s checkpoint slot (R283). -/
def ckptAt (j off : Nat) : Nat := 0x121000 + (j / 8) * 0x1000 + 0x40 + (j % 8) * 0x80 + off

/-- Key of a register of function `fn`'s bank of the MBOX page (R434). -/
def mboxAt (fn off : Nat) : Nat := 0x100000000 + fn * 0x1000 + off

/-- The page number of a register key; the MBOX banks belong to the MBOX page. -/
def pageNo (addr : Nat) : Nat := if addr < 0x100000000 then addr / 0x1000 else 0xC

/-- The block registers' fields of a page. -/
def fieldsOf (page : Nat) : List Field :=
  match pageOf page with
  | none => []
  | some (.dev, _) => fields_dev
  | some (.pwr, _) => fields_pwr
  | some (.clk, _) => fields_clk
  | some (.rst, _) => fields_rst
  | some (.gpio, _) => fields_gpio
  | some (.xbar, _) => fields_xbar
  | some (.wdt, _) => fields_wdt
  | some (.time, _) => fields_time
  | some (.sens, _) => fields_sens
  | some (.dbg, _) => fields_dbg
  | some (.trace, _) => fields_trace
  | some (.mbox, _) => fields_mbox
  | some (.evt, _) => fields_evt
  | some (.noc, i) => if i = 0 then fields_noc else fields_pcie
  | some (.ref, _) => fields_ref
  | some (.hbmc, _) => fields_hbmc
  | some (.disp, i) => if i = 0 then fields_disp ++ fields_dispTop else fields_disp
  | some (.cap, i) => if i = 0 then fields_cap else if i = 1 then fields_capSeq else fields_capCmp
  | some (.ckpt, i) => if i = 0 then [] else fields_ckptSlot
  | some (.scrub, _) => fields_scrub
  | some (.laneGroup, _) => fields_laneGroup
  | some (.lane, _) => fields_lane
  | some (.fabs, _) => fields_fabs
  | some (.fabc, _) => fields_fabc

/-- Whether a field has an instance at page offset `off`. -/
def Field.covers (f : Field) (off : Nat) : Bool :=
  if f.stride = 0 then f.off == off
  else f.off ≤ off && (off - f.off) % f.stride == 0 && decide ((off - f.off) / f.stride < f.count)

/-- The fields of the register word at page offset `off` of a page. -/
def fieldsAt (page off : Nat) : List Field := (fieldsOf page).filter (fun f => f.covers off)

/-- PG_CTL.enable at reset (R35). -/
def enableReset : PageKind → Bool
  | .dev | .pwr | .clk | .rst | .sens | .dbg | .mbox | .evt | .noc | .scrub => true
  | _ => false

/-- The Reset-column value of a register word (R11); 0 where the word has no such field. The fixed pins GP92–GP95 have values
of their own (R493, R499). -/
def resetWord (addr : Nat) : Word :=
  let page := pageNo addr
  let off := addr % 0x1000
  if off = 0x008 then
    match pageOf page with
    | some (k, _) => if enableReset k then 1 else 0
    | none => 0
  else if off < 0x40 then 0
  else if page = 5 ∧ 0x1B0 ≤ off ∧ off < 0x1C0 then
    BitVec.ofNat 32 ([142, 143, 158, 159].getD ((off - 0x1B0) / 4) 0 + 5 * 2 ^ 8 + 2 ^ 13 + 2 ^ 16)
  else BitVec.ofNat 32 ((fieldsAt page off).foldl (fun a f => a + f.reset * 2 ^ f.lo) 0)

/-! ### Register words and fields -/

/-- A register word as it stands. -/
def State.reg (s : State) (addr : Nat) : Word := Sparse.get 0 s.regs addr ^^^ resetWord addr

/-- The state with a register word changed. -/
def State.setReg (s : State) (addr : Nat) (v : Word) : State :=
  { s with regs := Sparse.set 0 s.regs addr (v ^^^ resetWord addr) }

/-- Bits `[hi:lo]` of a register word. -/
def State.fld (s : State) (addr hi lo : Nat) : Nat := natBits (s.reg addr).toNat hi lo

/-- One bit of a register word. -/
def State.flag (s : State) (addr i : Nat) : Bool := (s.reg addr).toNat.testBit i

/-- The state with bits `[hi:lo]` of a register word changed. -/
def State.setFld (s : State) (addr hi lo v : Nat) : State :=
  s.setReg addr (BitVec.ofNat 32 (natPut (s.reg addr).toNat hi lo v))

/-- The state with one bit of a register word changed. -/
def State.setFlag (s : State) (addr i : Nat) (v : Bool) : State := s.setFld addr i i (boolNat v)

/-- A counter field raised by `n`, saturating at its largest value. -/
def State.bump (s : State) (addr hi lo n : Nat) : State :=
  s.setFld addr hi lo (satAdd (2 ^ (hi + 1 - lo) - 1) (s.fld addr hi lo) n)

/-- A field raised to `n` where it is lower: the highest value since the last read. -/
def State.peak (s : State) (addr hi lo n : Nat) : State :=
  s.setFld addr hi lo (max (s.fld addr hi lo) (min n (2 ^ (hi + 1 - lo) - 1)))

/-- A 64-bit value in two consecutive words, low word first (R38). -/
def State.reg64 (s : State) (addr : Nat) : Nat := (s.reg addr).toNat + (s.reg (addr + 4)).toNat * 2 ^ 32

/-- The state with a 64-bit value in two consecutive words (R38). -/
def State.setReg64 (s : State) (addr v : Nat) : State :=
  (s.setReg addr (BitVec.ofNat 32 v)).setReg (addr + 4) (BitVec.ofNat 32 (v / 2 ^ 32))

/-! ### Time and events (R318, R423, R425, R426) -/

/-- The flat value of a time (R318). -/
def Stamp.flat (t : Stamp) : Nat := (t.sec * 1000000000 + t.ns) % 2 ^ 64

/-- The flat value of the time counter. -/
def State.flat (s : State) : Nat := s.time.now.flat

/-- Something sent out of the package. -/
def State.emit (s : State) (o : Out) : State := { s with out := s.out ++ [o] }

/-- A PCIe function. -/
def State.pcieFn (s : State) (fn : Nat) : PcieFn := Sparse.get {} s.fns fn

/-- The state with a PCIe function changed. -/
def State.setPcieFn (s : State) (fn : Nat) (x : PcieFn) : State := { s with fns := Sparse.set {} s.fns fn x }

/-- A function's vector signalled: the message is sent, or its PBA bit set while it or its function is masked (R365). -/
def State.msix (s : State) (fn vec : Nat) : State :=
  let f := s.pcieFn fn
  if f.sends fn vec then s.emit (.msix fn vec (f.message vec).1 (f.message vec).2)
  else s.setPcieFn fn { f with pba := f.pba ||| BitVec.ofNat 8 (2 ^ vec) }

/-- The messages held back that may go now are sent, in the order of their vectors (R365). -/
def State.msixFlush (s : State) (fn : Nat) : State :=
  (List.range 8).foldl (fun s v =>
    let f := s.pcieFn fn
    if f.pba.getLsbD v && f.sends fn v then
      (s.setPcieFn fn { f with pba := f.pba &&& ~~~(BitVec.ofNat 8 (2 ^ v)) }).emit (.msix fn v (f.message v).1 (f.message v).2)
    else s) s

/-- VF `n` exists (R366): VF Enable is set with NumVFs ≥ n. -/
def State.vfOn (s : State) (n : Nat) : Bool :=
  let f := s.pcieFn 0
  (f.config 0 cfgSriov).getLsbD 0 && decide (n ≤ (f.config 0 cfgNumVfs).toNat % 0x10000)

/-- The newest `n` entries of a list whose newest stands last. -/
def keepNewest {α : Type} (n : Nat) (xs : List α) : List α := xs.drop (xs.length - n)

/-- An entry joins the event log (R423): the SRAM ring keeps the newest 4,096. -/
def Theham.logged (t : Theham) (e : LogEntry) : Theham :=
  { t with log := keepNewest 4096 (t.log ++ [e]), logSeq := t.logSeq + 1, unflushed := satAdd 4096 t.unflushed 1 }

/-- An event-log entry made (R423). -/
def State.logEvent (s : State) (source code job sev : Nat) (detail : List Word) : State :=
  { s with theham := s.theham.logged { ns := s.flat, code := code, source := source, job := job, sev := sev
                                       seqNo := s.theham.logSeq, detail := detail } }

/-- The user core changed. -/
def State.setCore (s : State) (c : UserCore) : State := { s with dbg := { s.dbg with core := c } }

/-- An interrupt for the user core with its priority (R426, R471, R474): in monitor mode it is taken only above DBG_MON_CFG.live_prio,
else it waits. -/
def State.ucInterrupt (s : State) (source prio : Nat) : State :=
  let c := s.dbg.core
  if s.flag (PageKind.dbg.at 0x44) 3 && decide (prio ≤ s.fld (PageKind.dbg.at 0x54) 3 0) then
    s.setCore { c with irqs := c.irqs.filter (· != source) ++ [source] }
  else s.emit (.ucIrq source)

/-- EVT_ROUTE_s (R430). -/
def evtRoute (source : Nat) : Nat := PageKind.evt.at (0x100 + 4 * source)

/-- An event source raised (R426): logged where its route says, its pending bit set, and the function's vector and the user
core signalled if the bit was clear. -/
def State.raiseEvent (s : State) (source code job sev : Nat) (detail : List Word) : State :=
  let r := evtRoute source
  let s := if s.flag r 15 then s.logEvent source code job sev detail else s
  let p := PageKind.evt.at (0x40 + 4 * (source / 32))
  if s.flag p (source % 32) then s
  else
    let s := s.setFlag p (source % 32) true
    let s := if s.flag r 9 then s.msix (s.fld r 5 0) (s.fld r 8 6) else s
    if s.flag r 10 then s.ucInterrupt source (s.fld r 14 11) else s

/-- An event raised with the severity firmware gives its code. -/
def State.event (s : State) (source code job : Nat) (detail : List Word) : State :=
  s.raiseEvent source code job (Config.severity code).toNat detail

/-- The source of a sensor or limit event (R425). -/
def sensorSource (code : Nat) : Nat := 416 + (Config.sourceIndex code).toNat

/-- The source of a Theham event (R425). -/
def thehamSource (code : Nat) : Nat := 448 + (Config.sourceIndex code).toNat

/-- The event source of a page (R425); `none` for pages that have none. -/
def pageSource (page : Nat) : Option Nat :=
  match pageOf page with
  | some (.fabs, g) => some (128 + g)
  | some (.fabc, _) => some (128 + (page - 0x1000) / 0x80)
  | some (.lane, n) => some (64 + n)
  | some (.ref, n) => some (192 + n)
  | some (.disp, g) => some (320 + g)
  | some (.hbmc, k) => some (336 + k)
  | some (.dev, _) => some 340
  | some (.pwr, _) => some 341
  | some (.clk, _) => some 342
  | some (.rst, _) => some 343
  | some (.gpio, _) => some 344
  | some (.wdt, _) => some 345
  | some (.time, _) => some 346
  | some (.sens, _) => some 347
  | some (.dbg, _) => some 348
  | some (.trace, _) => some 349
  | some (.cap, _) => some 350
  | some (.noc, _) => some 351
  | _ => none

/-! ### The header (R39, R40) -/

/-- PG_ERR_INFO.requester of a requester (R39). -/
def rqClass : Requester → Nat
  | .pf => 0 | .vf _ => 1 | .fw => 2 | .uc => 3 | .dbg => 4 | .secfw => 5

/-- PG_ERR_INFO.vf of a requester (R39). -/
def rqVf : Requester → Nat
  | .vf n => n
  | _ => 0

/-- The header register `off` of a page. -/
def hdr (page off : Nat) : Nat := page * 0x1000 + off

/-- What a page holds beside its registers. -/
def State.page (s : State) (page : Nat) : PageDyn := Sparse.get {} s.pages page

/-- The state with what a page holds beside its registers changed. -/
def State.setPage (s : State) (page : Nat) (d : PageDyn) : State :=
  { s with pages := Sparse.set {} s.pages page d }

/-- A cause of a page's PG_IRQ_STAT set (R39); an enabled cause raises the page's event source (R425). -/
def State.raiseIrq (s : State) (page bit : Nat) : State :=
  let s := s.setFlag (hdr page 0x10) bit true
  if s.flag (hdr page 0x14) bit then
    match pageSource page with
    | some src => s.event src (Config.irqCode (src * 32 + bit)).toNat 0xFF []
    | none => s
  else s

/-- An error code recorded in a page: the first code since the last clear is kept with PG_ERR_INFO, a later one sets
PG_ERR.more (R40). `cls` and `vf` name the requester, 6 the block itself; `off` is the page offset. -/
def State.pgErrRaw (s : State) (page code cls vf off : Nat) : State :=
  let s := s.raiseIrq page 0
  if s.fld (hdr page 0x1C) 15 0 = 0 then
    (s.setFld (hdr page 0x1C) 15 0 code).setReg (hdr page 0x20)
      (BitVec.ofNat 32 (off % 0x1000 + cls * 2 ^ 12 + vf * 2 ^ 16))
  else s.setFlag (hdr page 0x1C) 31 true

/-- An error code recorded in a page for a requester's access (R40). -/
def State.pgErr (s : State) (page code : Nat) (rq : Requester) (off : Nat) : State :=
  s.pgErrRaw page code (rqClass rq) (rqVf rq) off

/-- A code that a block records by itself (R40). -/
def State.pgErrSelf (s : State) (page code off : Nat) : State := s.pgErrRaw page code 6 0 off

/-- PG_CTL.enable of a page. -/
def State.pgEnabled (s : State) (page : Nat) : Bool := s.flag (hdr page 0x08) 0

/-- PG_OWNER of a page as a requester (R41). -/
def State.owner (s : State) (page : Nat) : Nat × Nat := (s.fld (hdr page 0x38) 2 0, s.fld (hdr page 0x38) 13 8)

/-- PG_OWNER of a page handed to a requester (R41). -/
def State.setOwner (s : State) (page : Nat) (rq : Requester) : State :=
  s.setReg (hdr page 0x38) (BitVec.ofNat 32 (rqClass rq + rqVf rq * 2 ^ 8))

/-- The owner that a function number stands for: 0 the PF, 1–63 a VF. -/
def fnRequester (fn : Nat) : Requester := if fn = 0 then .pf else .vf fn

/-- A free value's number, taken from the state's counter. -/
def State.takeFree (s : State) : Nat × State := (s.free, { s with free := s.free + 1 })

/-- Bytes that the spec leaves open, such as those of a queue write that failed (R191), for a number from the counter. -/
def freeBytes (n len : Nat) : List Byte := (List.range len).map (fun i => Config.freeByte (n * 4096 + i))

/-- A job is STARTING, ACTIVE or RELOADING. -/
def Job.live (x : Job) : Bool := x.state == .starting || x.state == .active || x.state == .reloading

/-- A power domain is on. -/
def State.domainOn (s : State) (pd : Nat) : Bool := s.pwr.on.getLsbD pd

end Sys2Proof.Machine
end

