-- ==== Sys2Proof/Machine/Flags.lean ====
section
/-! DEFINITION. Check and status computations: the SECDED codes (R527), CRC-64 (R214), CRC-32 (R290), and the status
bits of the special area (R74). -/

namespace Sys2Proof.Machine

/-! ### SECDED (R527) -/

/-- The 8-bit values of a weight, in ascending order. -/
def weightCols (w : Nat) : List Nat :=
  (List.range 256).filter (fun v => (List.range 8).countP (fun i => v.testBit i) == w)

/-- The columns of data bits 0, 1, 2, …: the 56 values of weight 3, then those of weight 5 (R527). -/
def secdedCols : List Nat := weightCols 3 ++ weightCols 5

/-- XOR of the columns of the set data bits. -/
def secdedXor : List Nat → Nat → Nat
  | [], _ => 0
  | c :: cs, d => (if d % 2 = 1 then c else 0) ^^^ secdedXor cs (d / 2)

/-- The 8 check bits of `k` data bits (R527). -/
def secdedCheck (k data : Nat) : Nat := secdedXor (secdedCols.take k) data

/-- What a checked read finds: the data bits as delivered, and the syndrome; `ue` for an uncorrectable error. -/
structure Checked where
  data : Nat
  syn  : Nat
  ue   : Bool
  deriving DecidableEq, Repr

/-- Decoding of a stored word of `k` data bits and its check bits (R527). -/
def secdedRead (k data check : Nat) : Checked :=
  let syn := secdedCheck k data ^^^ check
  if syn = 0 then ⟨data, 0, false⟩
  else match (secdedCols.take k).findIdx? (· == syn) with
    | some i => ⟨data ^^^ 2 ^ i, syn, false⟩
    | none => if [1, 2, 4, 8, 16, 32, 64, 128].contains syn then ⟨data, syn, false⟩ else ⟨data, syn, true⟩

/-- A (72,64) stored word of 64 data bits (R527). -/
def secded72 (data : Dword) : StoredWord :=
  BitVec.ofNat 72 (data.toNat + secdedCheck 64 data.toNat * 2 ^ 64)

/-- The checked read of a (72,64) stored word, with the stored bits `flip` inverted in the data returned (R88, R167). -/
def secdedRead72 (w : StoredWord) (flip : Nat) : Checked :=
  let v := w.toNat ^^^ flip
  secdedRead 64 (natBits v 63 0) (natBits v 71 64)

/-- The bits an armed injection inverts: `bit`, and with `double` also `(bit + 1) mod n` (R88, R115, R136, R167). -/
def injectMask (n bit : Nat) (double : Bool) : Nat :=
  2 ^ bit ^^^ (if double then 2 ^ ((bit + 1) % n) else 0)

/-! ### CRCs -/

/-- One bit of a reflected CRC with the reflected polynomial `poly`. -/
def crcBit (poly v : Nat) : Nat := if v % 2 = 1 then (v / 2) ^^^ poly else v / 2

/-- One byte of a reflected CRC. -/
def crcByte (poly acc : Nat) (b : Byte) : Nat :=
  (List.range 8).foldl (fun v _ => crcBit poly v) (acc ^^^ b.toNat)

/-- CRC-64 with the parameters of R214: polynomial 0x42F0_E1EB_A9EA_3693, reflected. -/
def crc64 (bs : List Byte) : BitVec 64 :=
  BitVec.ofNat 64 (bs.foldl (crcByte 0xC96C5795D7870F42) 0xFFFFFFFFFFFFFFFF ^^^ 0xFFFFFFFFFFFFFFFF)

/-- CRC-64 continued: a signature that folds in a further list of bytes (R265, R278). -/
def crc64Fold (sig : BitVec 64) (bs : List Byte) : BitVec 64 :=
  BitVec.ofNat 64 (bs.foldl (crcByte 0xC96C5795D7870F42) (sig.toNat ^^^ 0xFFFFFFFFFFFFFFFF) ^^^ 0xFFFFFFFFFFFFFFFF)

/-- CRC-32 with the parameters of R290: polynomial 0x04C1_1DB7, reflected. -/
def crc32 (bs : List Byte) : BitVec 32 :=
  BitVec.ofNat 32 (bs.foldl (crcByte 0xEDB88320) 0xFFFFFFFF ^^^ 0xFFFFFFFF)

/-- CRC-32 of the low `n` bits of a value, bit 0 first, with the parameters of R290. -/
def crc32Bits (n v : Nat) : BitVec 32 :=
  BitVec.ofNat 32 ((List.range n).foldl (fun acc i => crcBit 0xEDB88320 (acc ^^^ boolNat (v.testBit i))) 0xFFFFFFFF ^^^ 0xFFFFFFFF)

/-! ### RS(544,514) over GF(2^10) (R291) -/

/-- A product in GF(2^10). The field polynomial x^10 + x^3 + 1 and the generator's roots α^0–α^29 are those of KP4, which the spec
names (PRESUMED, assumption 26). -/
def gfMul (a b : Nat) : Nat :=
  (List.range 10).foldl (fun acc i =>
    let acc := acc * 2
    let acc := if acc.testBit 10 then acc ^^^ 0x409 else acc
    if b.testBit (9 - i) then acc ^^^ a else acc) 0

/-- A polynomial, lowest coefficient first, times (x + r). -/
def gfTimesRoot (g : List Nat) (r : Nat) : List Nat :=
  List.zipWith (fun a b => a ^^^ b) (0 :: g) (g.map (gfMul r) ++ [0])

/-- The generator polynomial of the code, lowest coefficient first: 31 coefficients, the last 1. -/
def rsGenerator : List Nat :=
  ((List.range 30).foldl (fun (a : List Nat × Nat) _ => (gfTimesRoot a.1 a.2, gfMul a.2 2)) ([1], 1)).1

/-- The 30 parity symbols, 300 bits, of a message of 514 symbols: the first message symbol is the highest coefficient, and the first
parity symbol that of x^29 (R291). -/
def rsParity (msg : BitVec 5140) : BitVec 300 :=
  let g := rsGenerator
  let step := fun (reg : List Nat) (i : Nat) =>
    let f := (msg.toNat / 2 ^ (10 * i) % 1024) ^^^ reg.getD 29 0
    List.zipWith (fun a b => a ^^^ gfMul f b) (0 :: reg) g |>.take 30
  let reg := (List.range 514).foldl step (List.replicate 30 0)
  BitVec.ofNat 300 ((reg.reverse.zipIdx).foldl (fun a s => a + s.1 * 2 ^ (10 * s.2)) 0)

/-! ### Test patterns (R308) -/

/-- The places back in a pattern whose XOR is its next bit: PRBS7–PRBS31 by their usual polynomials, PRBS13Q and PRBS31Q as the bit
pairs of PRBS13 and PRBS31, and the 80-bit user pattern (PRESUMED, assumption 91). -/
def patternTaps (p : Nat) : List Nat :=
  match p with
  | 1 => [6, 7]
  | 2 => [5, 9]
  | 3 | 7 => [1, 2, 12, 13]
  | 4 => [14, 15]
  | 5 => [18, 23]
  | 6 | 8 => [28, 31]
  | 9 => [80]
  | _ => []

/-- The next bit of a pattern after `past`, newest first. -/
def patternNext (p : Nat) (past : List Bool) : Bool :=
  (patternTaps p).foldl (fun b d => b ^^ past.getD (d - 1) false) false

/-- The longest place back. -/
def patternSpan (p : Nat) : Nat := (patternTaps p).foldl max 0

/-! ### The special area (R74) -/

/-- The bits that the special area's status addresses read from: the lines, and the sequencer's status (R74). -/
structure Special where
  lines    : Nat
  first    : Bool
  held     : Bool
  rptFirst : Bool
  rptLast  : Bool
  odd      : Bool
  deriving DecidableEq, Repr

/-- The bit at a special-area address (R74). -/
def specialBit (p : Special) (a : Nat) : Bool :=
  if a = 0x7C1 then true
  else if 0x7D0 ≤ a ∧ a ≤ 0x7DF then p.lines.testBit (a - 0x7D0)
  else if 0x7E0 ≤ a ∧ a ≤ 0x7E3 then p.lines.testBit (16 + (a - 0x7E0))
  else if a = 0x7F0 then p.first
  else if a = 0x7F1 then p.held
  else if a = 0x7F2 then p.rptFirst
  else if a = 0x7F3 then p.rptLast
  else if a = 0x7F4 then p.odd
  else false

end Sys2Proof.Machine
end

