-- ==== Sys2Proof/Machine/Operands.lean ====
section
/-! DEFINITION. Operand forms: the numbering (R15, R16), the fields of the instruction word (R61), the control word
(R98), the slot word (R126–R128) and the repeat descriptor (R94), selectors and their effective addresses (R65, R79),
the two HBM address maps (R175, R179), and the byte places of the configuration stores (R211). -/

namespace Sys2Proof.Machine

/-! ### Numbering (R15, R16) -/

/-- The fabric die of a segment. -/
def dieOf (seg : Nat) : Nat := seg / 16

/-- The cluster group of a package cluster (R15). -/
def groupOf (cl : Nat) : Nat := cl / 32

/-- The octant of a segment (R179). -/
def octantOf (seg : Nat) : Nat := seg / 8

/-- The mesh x of a package cluster on its die (R16). -/
def meshX (cl : Nat) : Nat := (cl / 64 % 16 % 4) * 8 + cl % 64 % 8

/-- The mesh y of a package cluster on its die (R16). -/
def meshY (cl : Nat) : Nat := (cl / 64 % 16 / 4) * 8 + cl % 64 / 8

/-- The package cluster at mesh coordinates of a die (R16). -/
def clusterAt (die x y : Nat) : Nat := (die * 16 + (y / 8) * 4 + x / 8) * 64 + (y % 8) * 8 + x % 8

/-! ### The instruction word (R61) -/

/-- The fields of an instruction word (R61). -/
structure IWord where
  opc  : Nat
  fn   : Nat
  sel  : List Nat
  send : Bool
  port : Nat
  we   : Bool
  cap  : Bool
  gat  : Bool
  adv  : Bool
  rel  : Nat
  ofs  : Nat
  deriving DecidableEq, Repr

/-- The fields of a 96-bit instruction word (R61). -/
def iword (w : Nat) : IWord where
  opc  := natBits w 95 92
  fn   := natBits w 91 84
  sel  := [natBits w 83 73, natBits w 72 62, natBits w 61 51, natBits w 50 40, natBits w 39 29, natBits w 28 18]
  send := natBit w 17
  port := natBits w 16 12
  we   := natBit w 8
  cap  := natBit w 9
  gat  := natBit w 10
  adv  := natBit w 11
  rel  := natBits w 5 0
  ofs  := natBits w 7 6

/-- The effective address of selector `i` (R65): direct, or with the operand offset `f` added, modulo 1,024 in the local
area. -/
def effAddr (w : IWord) (f i : Nat) : Nat :=
  let a := w.sel.getD i 0
  if w.rel.testBit i then if a < 0x400 then (a + f) % 1024 else a + f else a

/-- The physical local address of chain position `p` in design cycle `m` (R79). -/
def chainAddr (m p : Nat) : Nat := (m + 2 * 1024 - 1 - p % 1024) % 1024

/-! ### The control word (R98) -/

/-- The fields of a control word (R98). -/
structure CWord where
  idx       : Nat
  wauOp     : Nat
  opnd      : Nat
  ldSrc     : Nat
  ldDst     : Nat
  scat      : Nat
  bankOp    : List Nat
  issueKind : Nat
  issueQ    : Nat
  waitEn    : Bool
  waitQ     : Nat
  waitCount : Nat
  cap       : List Nat
  deriving DecidableEq, Repr

/-- The fields of a 64-bit control word (R98). -/
def cword (w : Nat) : CWord where
  idx       := natBits w 63 60
  wauOp     := natBits w 59 57
  opnd      := natBits w 56 54
  ldSrc     := natBits w 53 51
  ldDst     := natBits w 50 48
  scat      := natBits w 47 45
  bankOp    := [natBits w 38 37, natBits w 40 39, natBits w 42 41, natBits w 44 43]
  issueKind := natBits w 36 35
  issueQ    := natBits w 34 32
  waitEn    := natBit w 31
  waitQ     := natBits w 30 28
  waitCount := natBits w 27 24
  cap       := [natBits w 5 0, natBits w 11 6, natBits w 17 12, natBits w 23 18]

/-! ### The slot word (R126–R128) -/

/-- Select `j` of TRK_t: 0 N, 1 E, 2 S, 3 W, 4 LANE, 5 DLV_LO, 6 DLV_HI (R127). -/
def trkSelect (slot t j : Nat) : Nat := natBits slot (21 * t + 3 * j + 2) (21 * t + 3 * j)

/-- DLV_p (R128). -/
def dlvField (slot p : Nat) : Nat := natBits slot (19 * p + 354) (19 * p + 336)

/-- PARK_p (R134). -/
def parkField (slot p : Nat) : Nat := natBits slot (2 * p + 945) (2 * p + 944)

/-- The delivery select of inbound port `p`: DLV_LO of track p or DLV_HI of track p - 16 (R127). -/
def dlvSelect (slot p : Nat) : Nat := if p < 16 then trkSelect slot p 5 else trkSelect slot (p - 16) 6

/-- The BPs that a delivery record writes (R128). -/
def dlvTargets (dlv : Nat) : List Nat :=
  let bp := natBits dlv 16 11
  match natBits dlv 18 17 with
  | 0 => [bp]
  | 1 => (List.range 8).map (fun i => 8 * (bp / 8) + i)
  | 2 => (List.range 32).map (fun i => 32 * (bp / 32) + i)
  | _ => List.range 64

/-! ### The repeat descriptor (R94) -/

/-- The fields of a repeat descriptor (R94). -/
structure Rpt where
  start   : Nat
  stop    : Nat
  countM1 : Nat
  valid   : Bool
  level   : Nat
  rstride : Nat
  dOfs    : List Nat
  dOcr    : List Nat
  deriving DecidableEq, Repr

/-- The fields of a descriptor's eight words (R94). -/
def rptOf (ws : List Nat) : Rpt :=
  let w := fun i => ws.getD i 0
  { start := natBits (w 0) 9 0, stop := natBits (w 0) 19 10, countM1 := natBits (w 0) 31 20
    valid := natBit (w 1) 0, level := natBits (w 1) 2 1, rstride := natBits (w 1) 17 8
    dOfs := [natBits (w 2) 9 0, natBits (w 2) 19 10, natBits (w 2) 29 20, natBits (w 3) 9 0]
    dOcr := (List.range 4).flatMap (fun i => [natBits (w (4 + i)) 11 0, natBits (w (4 + i)) 27 16]) }

/-- The reserved bits of a descriptor are all 0 (R94, R95). -/
def rptReservedClear (ws : List Nat) : Bool :=
  let w := fun i => ws.getD i 0
  natBits (w 1) 7 3 == 0 && natBits (w 1) 31 18 == 0 && natBits (w 2) 31 30 == 0 && natBits (w 3) 31 10 == 0 &&
    (List.range 4).all (fun i => natBits (w (4 + i)) 15 12 == 0 && natBits (w (4 + i)) 31 28 == 0)

/-! ### HBM addresses -/

/-- The pseudo-channel of a physical HBM address (R175). -/
def pcOf (p : Nat) : Nat := (p / 512) % 128

/-- The offset of a physical HBM address within its pseudo-channel (R175). -/
def pcOffset (p : Nat) : Nat := (p / 65536) * 512 + p % 512

/-- The physical HBM address of an offset in pseudo-channel `n` (R179). -/
def hbmAddr (n offset : Nat) : Nat := (offset / 512) * 65536 + n * 512 + offset % 512

/-- The pseudo-channel of a window address of octant `o` (R179). -/
def windowPc (o a : Nat) : Nat := o + 8 * ((a / 512) % 16)

/-- The offset within its pseudo-channel of a window address (R179). -/
def windowOffset (a : Nat) : Nat := (a / 8192) * 512 + a % 512

/-! ### Places of the configuration stores: a cluster's image bodies (R211), 2^20 bytes a cluster -/

/-- The store types, coded as SCRUB_POS.store (R282). -/
def storeBase (store : Nat) : Nat :=
  match store with
  | 0 => 0
  | 1 => 0xD0000
  | 2 => 0xD2400
  | _ => 0xD4000

/-- The length of a store's body (R211). -/
def storeLen (store : Nat) : Nat :=
  match store with
  | 0 => 851968
  | 1 => 9216
  | 2 => 1920
  | _ => 147456

/-- The place of the CINIT body, which is no part of the verified copy (R211). -/
def cinitBase : Nat := 0xF8000

/-- The first key of a cluster's stores. -/
def cfgBase (cl : Nat) : Nat := cl * 0x100000

/-- The place of entry `k` of BP `bp`: its word and its check bits (R211). -/
def istoreAt (cl bp k : Nat) : Nat × Nat :=
  (cfgBase cl + bp * 13312 + 12 * k, cfgBase cl + bp * 13312 + 12288 + k)

/-- The place of control word `k` and its check bits (R211). -/
def cstoreAt (cl k : Nat) : Nat × Nat := (cfgBase cl + 0xD0000 + 8 * k, cfgBase cl + 0xD0000 + 8192 + k)

/-- The place of loadable function-library entry `fn` (R211). -/
def fnlibAt (cl fn : Nat) : Nat := cfgBase cl + 0xD2400 + 8 * (fn - 16)

/-- The place of codeword `w` of slot entry `k` and its check bits (R211). -/
def slotAt (cl k w : Nat) : Nat × Nat :=
  (cfgBase cl + 0xD4000 + 128 * k + 8 * w, cfgBase cl + 0xD4000 + 131072 + 16 * k + w)

/-! ### The fixed function-library entries (R76) -/

/-- Entries 0–15 of every function library (R76). -/
def fixedFn (fn : Nat) : Nat :=
  match fn with
  | 0 => 0x0000000000000000
  | 1 => 0xFFFFFFFFFFFFFFFF
  | 2 => 0x8000000000000000
  | 3 => 0xFFFFFFFFFFFFFFFE
  | 4 => 0x6996966996696996
  | 5 => 0x9669699669969669
  | 6 => 0xAAAAAAAAAAAAAAAA
  | 7 => 0x5555555555555555
  | 8 => 0xCACACACACACACACA
  | 9 => 0xFF00F0F0CCCCAAAA
  | 10 => 0xE8E8E8E8E8E8E8E8
  | 11 => 0x9696969696969696
  | 12 => 0x8888888888888888
  | 13 => 0xEEEEEEEEEEEEEEEE
  | 14 => 0x6666666666666666
  | _ => 0x2222222222222222

end Sys2Proof.Machine
end

