-- ==== Sys2Proof/Machine/Mesh.lean ====
section
/-! DEFINITION. The mesh of the on-chip network (R367–R373): the header of a packet, the endpoints, routes, and what crosses them. -/

namespace Sys2Proof.Machine

/-! ### The header (R369) -/

/-- Bits `[hi:lo]` of a packet's header flit. -/
def nocFld (p : NocPacket) (hi lo : Nat) : Nat := natBits p.header.toNat hi lo

/-- The packet is one that an endpoint discards: its cmd or len is reserved. -/
def nocBad (p : NocPacket) : Bool :=
  ! [1, 2, 3, 4, 5, 6, 8, 9, 10, 11].contains (nocFld p 19 16) || decide (64 < nocFld p 41 35)

/-- The requester that a header names: its class and VF, or the debug port where the debug attribute is set (R56); `none` for a class
that is no requester. -/
def nocRequester (p : NocPacket) : Option Requester :=
  if nocFld p 51 51 = 1 then some .dbg
  else match nocFld p 44 42 with
    | 0 => some .pf
    | 1 => some (.vf (nocFld p 50 45))
    | 2 => some .fw
    | 3 => some .uc
    | 4 => some .dbg
    | 5 => some .secfw
    | _ => none

/-- The cmd of a request's response; `none` where it has none. -/
def responseCmd (cmd : Nat) : Option Nat :=
  match cmd with
  | 1 => some 8
  | 3 => some 9
  | 4 | 5 => some 10
  | 6 => some 11
  | _ => none

/-- The response to a request: it goes back with the request's tag, priority and requester, a status, an old word and data. -/
def nocResponse (p : NocPacket) (cmd prio status operand : Nat) (data : List (BitVec 512)) : NocPacket :=
  { header := BitVec.ofNat 512 (nocFld p 15 8 + nocFld p 7 0 * 2 ^ 8 + cmd * 2 ^ 16 + prio * 2 ^ 20 + nocFld p 34 23 * 2 ^ 23 +
      data.length * 2 ^ 35 + nocFld p 51 42 * 2 ^ 42 + nocFld p 127 64 * 2 ^ 64 + nocFld p 255 128 * 2 ^ 128 + status % 65536 * 2 ^ 256 +
      operand * 2 ^ 272)
    data := data }

/-! ### Endpoints (R367) -/

/-- The hub link of a die. -/
def dieRouter (die : Nat) : Nat × Nat := [(0, 0), (7, 0), (0, 7), (7, 7)].getD die (0, 0)

/-- The router of an HBM controller. -/
def hbmRouter (k : Nat) : Nat × Nat := [(0, 3), (7, 3), (0, 4), (7, 4)].getD k (0, 3)

/-- A router has endpoints (R367). At (4, 0) the ports 0 and 1 stand; of the others the rule numbers no port. -/
def nocEndpoint (x y port : Nat) : Bool :=
  if x = 4 ∧ y = 0 then decide (port < 2)
  else [(0, 0), (7, 0), (0, 7), (7, 7), (0, 3), (7, 3), (0, 4), (7, 4), (3, 0), (3, 1), (4, 1), (3, 3), (4, 3), (3, 4), (4, 4)].any
    (fun r => r.1 == x && r.2 == y)

/-- The router at whose endpoint a page lies. -/
def pageRouter (page : Nat) : Option (Nat × Nat) :=
  match pageOf page with
  | some (.fabs, g) => some (dieRouter (dieOf g))
  | some (.fabc, _) => some (dieRouter (dieOf ((page - 0x1000) / 0x80)))
  | some (.lane, n) => some (dieRouter (dieOf n))
  | some (.laneGroup, k) => some (dieRouter k)
  | some (.ref, n) => some (hbmRouter (n / 32))
  | some (.hbmc, k) => some (hbmRouter k)
  | some (.noc, _) | some (.time, _) | some (.dbg, _) | some (.trace, _) => some (4, 1)
  | some (.disp, _) => some (4, 3)
  | some (.cap, _) => some (3, 4)
  | some (.ckpt, _) | some (.scrub, _) => some (4, 4)
  | some _ => some (3, 1)
  | none => none

/-- The sources that may inject packets of priority 7 (R372): Theham's management port, through which the firmware cores reach the
mesh, and the debug access port. -/
def nocMayManage (p : NocPacket) : Bool := nocFld p 10 8 == 4 && nocFld p 13 11 == 0 && decide (nocFld p 41 35 ≤ 1)

/-! ### Routes (R370–R373) -/

/-- The router outputs that a packet from one router to another passes, x first and then y, as keys of the NoC's counters (R370, R377):
output 0 is N, 1 E, 2 S, 3 W. -/
def nocRoute (sx sy dx dy : Nat) : List Nat :=
  let key := fun (x y out : Nat) => (y * 8 + x) * 4 + out
  let xs := if sx ≤ dx then (List.range (dx - sx)).map (fun i => key (sx + i) sy 1) else (List.range (sx - dx)).map (fun i => key (sx - i) sy 3)
  let ys := if sy ≤ dy then (List.range (dy - sy)).map (fun i => key dx (sy + i) 2) else (List.range (sy - dy)).map (fun i => key dx (sy - i) 0)
  xs ++ ys

/-- A packet crosses the mesh (R369, R370, R372, R377): its flits are counted at each output of its route. How often its header lost
arbitration there, and how much longer than the h + 2 cycles of a free path a packet of priority 7 took, is contention, of which the
model keeps no time: free values (assumption 97). -/
def State.nocCarry (s : State) (p : NocPacket) (prio : Nat) : State :=
  let route := nocRoute (nocFld p 10 8) (nocFld p 13 11) (nocFld p 2 0) (nocFld p 5 3)
  let n := 1 + nocFld p 41 35
  let q := route.foldl (fun (q : Noc) k => { q with flits := Sparse.set 0 q.flits k ((Sparse.get 0 q.flits k + n) % 2 ^ 32) }) s.noc
  let k := s.free
  let q := (route.zipIdx).foldl (fun (q : Noc) r =>
    { q with busy := Sparse.set 0 q.busy r.1 (Sparse.get 0 q.busy r.1 + Config.freeNat (k + r.2)) }) q
  let s := { s with noc := q, free := k + route.length + 1 }
  if prio = 7 then s.peak (PageKind.noc.at 0x48) 15 0 (min 0xFFFF (route.length + 2 + Config.freeNat (k + route.length))) else s

/-- A response leaves for its requester. -/
def State.nocReply (s : State) (p : NocPacket) : State := (s.nocCarry p (nocFld p 22 20)).emit (.noc p)

/-! ### Byte enables -/

/-- The byte places that a packet's data enables, counted from the start of the 64-byte block that holds its address: those of the first
and the last flit by their enables, all of those between. A packet of one flit has its first enables; one without data, for which the
enables say what is asked for, has them too. -/
def nocPlaces (p : NocPacket) : List Nat :=
  let n := max 1 (nocFld p 41 35)
  (List.range (64 * n)).filter (fun i =>
    if i < 64 then natBit p.header.toNat (128 + i)
    else if i / 64 + 1 = n then natBit p.header.toNat (192 + i % 64)
    else true)

/-- The byte of a packet's data at a place. -/
def nocByte (p : NocPacket) (i : Nat) : Byte := BitVec.ofNat 8 ((p.data.getD (i / 64) 0).toNat / 256 ^ (i % 64))

/-- 64 bytes as a data flit. -/
def flitOf (bs : List Byte) : BitVec 512 := BitVec.ofNat 512 (leNat (bs.take 64))

/-! ### Traffic that no packet of a command shows (R367, R373, R377) -/

/-- Flits counted at the outputs between two routers. -/
def State.nocFlits (s : State) (src dst : Nat × Nat) (n : Nat) : State :=
  { s with noc := { s.noc with flits := (nocRoute src.1 src.2 dst.1 dst.2).foldl (fun q k =>
      Sparse.set 0 q k ((Sparse.get 0 q k + n) % 2 ^ 32)) s.noc.flits } }

/-- The router at which a requester's traffic enters: the PCIe controller's, else that of the Theham management port and the debug
access port. -/
def rqRouter : Requester → Nat × Nat
  | .pf | .vf _ => (3, 0)
  | _ => (4, 0)

/-- A register access crosses the mesh: a read is a header, answered by a header and a data flit; a write is a header and a data flit.
Whether a write that PCIe posts is acknowledged on the mesh the spec does not say: here none is (DESIGN CHOICE, assumption 97). -/
def State.cross (s : State) (rq : Requester) (addr : Nat) (write : Bool) : State :=
  match pageRouter (addr / 0x1000) with
  | some d =>
    let r := rqRouter rq
    if write then s.nocFlits r d 2 else (s.nocFlits r d 1).nocFlits d r 2
  | none => s

/-- The router of the bridge to the memory crossbar. -/
def bridgeRouter : Nat × Nat := (3, 3)

/-- The data flits that a stretch of bytes takes. -/
def flitCount (off n : Nat) : Nat := if n = 0 then 0 else (off + n - 1) / 64 - off / 64 + 1

/-- Bytes from an address on as data flits, each byte at its place in the 64-byte block that holds it. -/
def flitsOf (off : Nat) (bs : List Byte) : List (BitVec 512) :=
  let all := List.replicate (off % 64) 0 ++ bs
  (List.range (flitCount off bs.length)).map (fun i => flitOf (all.drop (64 * i)))

/-- A host access to BAR2 crosses the mesh to the bridge (R368). -/
def State.crossBar2 (s : State) (off n : Nat) (write : Bool) : State :=
  if write then s.nocFlits (3, 0) bridgeRouter (1 + flitCount off n)
  else (s.nocFlits (3, 0) bridgeRouter 1).nocFlits bridgeRouter (3, 0) (1 + flitCount off n)

end Sys2Proof.Machine
end

