-- ==== Sys2Proof/Machine/Fabric.lean ====
section
/-! DEFINITION. What an executed position reads and brings about (chapters 3–8): the units' reads of the state before
the position, and the effects they have at its end (R59). -/

namespace Sys2Proof.Machine

/-! ### Reading the units -/

/-- A segment's sequencer. -/
def State.seq (s : State) (seg : Nat) : Seq := Sparse.get {} s.fab.seqs seg

/-- The state with a segment's sequencer changed. -/
def State.setSeq (s : State) (seg : Nat) (q : Seq) : State :=
  { s with fab := { s.fab with seqs := Sparse.set {} s.fab.seqs seg q } }

/-- A job. -/
def State.job (s : State) (j : Nat) : Job := Sparse.get {} s.jobs j

/-- The state with a job changed. -/
def State.setJob (s : State) (j : Nat) (x : Job) : State := { s with jobs := Sparse.set {} s.jobs j x }

/-- The segments of a mask, ascending. -/
def segsOf (mask : BitVec 64) : List Nat := (List.range 64).filter (fun i => mask.getLsbD i)

/-- The job that holds a segment (R226: at most one). -/
def State.jobOfSeg (s : State) (seg : Nat) : Option Nat :=
  (s.jobs.find? (fun e => e.2.mask.getLsbD seg)).map (·.1)

/-- The clusters of a segment. -/
def clustersOf (seg : Nat) : List Nat := (List.range 64).map (fun c => seg * 64 + c)

/-- The index in the image's block table of a cluster's block of a kind (R211), in compare mode that of copy A's (R219). -/
def blockIndex (j : Job) (type seg cl : Nat) : Nat :=
  match j.image with
  | none => 0
  | some im =>
    match im.blocks.find? (fun b => b.type == type && b.seg == (if j.compare then seg % 32 else seg) && b.cl == cl) with
    | some b => b.index
    | none => 0

/-- The initial value of OCRj of a cluster, from its CINIT block (R211). -/
def State.ocrInit (s : State) (cl j : Nat) : Nat := Sparse.num s.fab.cfg (cfgBase cl + cinitBase + 4 * j) 4 % 4096

/-- The current value of OCRj of a cluster (R97). -/
def State.ocr (s : State) (cl j : Nat) : Nat :=
  (s.ocrInit cl j + (s.seq (cl / 64)).ocr.getD j 0) % 4096

/-- FABC_MQ_BASE_q of a cluster (R201, R211). -/
def State.mqBase (s : State) (cl q : Nat) : Nat :=
  Sparse.num s.fab.cfg (cfgBase cl + cinitBase + 32 + 8 * q) 4

/-- FABC_MQ_CFG_q of a cluster (R201, R211). -/
def State.mqCfg (s : State) (cl q : Nat) : Nat :=
  Sparse.num s.fab.cfg (cfgBase cl + cinitBase + 36 + 8 * q) 4

/-- An operand register of a cluster's WAU (R138). -/
def State.opReg (s : State) (cl i : Nat) : Dword := Sparse.get 0 s.fab.ors (cl * 8 + i)

/-- A decoupling queue. -/
def State.mq (s : State) (cl q : Nat) : Mq := Sparse.get {} s.fab.queues (cl * 8 + q)

/-- The state with a decoupling queue changed. -/
def State.setMq (s : State) (cl q : Nat) (x : Mq) : State :=
  { s with fab := { s.fab with queues := Sparse.set {} s.fab.queues (cl * 8 + q) x } }

/-- The special-area bits of a segment's BPs in the position that executes next (R74, R97). -/
def State.special (s : State) (j seg : Nat) : Special :=
  let job := s.job j
  let q := s.seq seg
  let top := q.stack.head?
  { lines := job.lines, first := job.m == 0, held := job.stHeld, odd := job.m % 2 == 1
    rptFirst := match top with | some f => f.iter == 0 | none => false
    rptLast := match top with
      | some f => f.iter == (rptOf (q.rpt.getD f.desc [])).countM1
      | none => false }

/-- The inverted bits of an armed injection whose target fields match: INJ registers at page offset `off`. -/
def State.injected (s : State) (cl off n bitHi bitLo dbl : Nat) (hit : Nat → Bool) : Nat :=
  let r := (s.reg (fabcAt cl off)).toNat
  if natBit r 31 && hit r then injectMask n (natBits r bitHi bitLo) (natBit r dbl) else 0

/-- The execution port's read of instruction-store entry `k` of a BP (R83, R88): the checked word, and whether an armed
injection was made. -/
def State.istoreRead (s : State) (cl bp k : Nat) : Checked × Bool :=
  let flip := s.injected cl 0x58 104 22 16 23 (fun r => natBits r 5 0 == bp && natBits r 15 6 == k)
  let at_ := istoreAt cl bp k
  let v := (Sparse.num s.fab.cfg at_.1 12 + Sparse.num s.fab.cfg at_.2 1 * 2 ^ 96) ^^^ flip
  (secdedRead 96 (natBits v 95 0) (natBits v 103 96), flip != 0)

/-- The read of control-store entry `k` of a cluster (R100). -/
def State.cstoreRead (s : State) (cl k : Nat) : Checked × Bool :=
  let flip := s.injected cl 0x88 72 16 10 17 (fun r => natBits r 9 0 == k)
  let at_ := cstoreAt cl k
  let v := (Sparse.num s.fab.cfg at_.1 8 + Sparse.num s.fab.cfg at_.2 1 * 2 ^ 64) ^^^ flip
  (secdedRead 64 (natBits v 63 0) (natBits v 71 64), flip != 0)

/-- The control word a cluster executes at step `k`: all zeros after an uncorrectable error (R100). -/
def State.control (s : State) (cl k : Nat) : CWord :=
  let r := (s.cstoreRead cl k).1
  cword (if r.ue then 0 else r.data)

/-- The read of codeword `w` of slot entry `k` of a cluster's router (R130). -/
def State.slotRead (s : State) (cl k w : Nat) : Checked × Bool :=
  let flip := s.injected cl 0x108 72 20 14 21 (fun r => natBits r 9 0 == k && natBits r 13 10 == w)
  let at_ := slotAt cl k w
  let v := (Sparse.num s.fab.cfg at_.1 8 + Sparse.num s.fab.cfg at_.2 1 * 2 ^ 64) ^^^ flip
  (secdedRead 64 (natBits v 63 0) (natBits v 71 64), flip != 0)

/-- The data bits of a codeword of a slot entry as FABC_NET_SLOT_DATA shows them (R136): as corrected, with no injection, which only the
execution port's reads take (R88). Of a codeword with an uncorrectable error the stored bits are shown: the spec says only
"as corrected" (DESIGN CHOICE, assumption 77). -/
def State.slotStored (s : State) (cl k w : Nat) : Nat :=
  let at_ := slotAt cl k w
  (secdedRead 64 (Sparse.num s.fab.cfg at_.1 8) (Sparse.num s.fab.cfg at_.2 1)).data

/-- The slot word a router executes at step `k`: all zeros after an uncorrectable error in any codeword (R130). -/
def State.slotWord (s : State) (cl k : Nat) : Nat :=
  let rs := (List.range 16).map (fun w => (s.slotRead cl k w).1)
  if rs.any (·.ue) then 0 else (rs.foldr (fun r acc => r.data + acc * 2 ^ 64) 0)

/-- The truth table of function-library entry `fn` of a cluster (R76). -/
def State.fnTable (s : State) (cl fn : Nat) : Nat :=
  if fn < 16 then fixedFn fn else Sparse.num s.fab.cfg (fnlibAt cl fn) 8

/-- A BP is in chain mode (R77): the image loaded in its cluster has it so. -/
def State.chainMode (s : State) (cl bp : Nat) : Bool := (Sparse.get 0 s.fab.chain cl).getLsbD bp

/-- The data-store bit at an effective address of a BP (R71, R74, R79). -/
def State.dsBit (s : State) (j cl bp a : Nat) : Bool :=
  let base := (cl * 64 + bp) * 2048
  if a < 0x400 then
    if s.chainMode cl bp then Sparse.get false s.fab.ds (base + chainAddr (s.job j).m a)
    else Sparse.get false s.fab.ds (base + a)
  else if a < 0x7C0 then Sparse.get false s.fab.ds (base + a)
  else specialBit (s.special j (cl / 64)) a

/-- The read of word `w` of bank `b` of a cluster on any port, with an armed injection (R165, R167). -/
def State.bankRead (s : State) (bank w : Nat) : Checked × Bool :=
  let cl := bank / 4
  let flip := s.injected cl 0x194 72 20 14 21 (fun r => natBits r 11 0 == w && natBits r 13 12 == bank % 4)
  (secdedRead72 (Sparse.get 0 s.fab.mb (bank * 4096 + w)) flip, flip != 0)

/-- The static-port address of bank `b` of a cluster under a control word (R155). -/
def State.staticAddr (s : State) (cl : Nat) (cw : CWord) (b : Nat) : Nat :=
  if cw.idx.testBit b then (s.ocr cl b + natBits (s.opReg cl 7).toNat (12 * b + 11) (12 * b)) % 4096
  else s.ocr cl b

/-- The access that the fabric makes to a bank in the position in progress (R155, R157, R159): whether it writes, and the word. There
is none in hold and pad steps, while the job is halted, and in a segment that no job runs. -/
def State.fabricUse (s : State) (bank : Nat) : Option (Bool × Nat) :=
  let cl := bank / 4
  let b := bank % 4
  let q := s.seq (cl / 64)
  match s.jobOfSeg (cl / 64) with
  | none => none
  | some j =>
    if q.state ≠ .run ∨ (s.job j).len ≤ (s.job j).e then none
    else
      let w := s.control cl q.k
      let op := w.bankOp.getD b 0
      if op = 1 then some (false, s.staticAddr cl w b)
      else if op ≠ 0 then some (true, s.staticAddr cl w b)
      else if w.ldSrc = 3 + b then some (false, s.ocr cl (b + 4))
      else none

/-- The data a checked bank read delivers to a fabric port: 0 after an uncorrectable error (R165). -/
def Checked.delivered (c : Checked) : Dword := if c.ue then 0 else BitVec.ofNat 64 c.data

/-- MBb static-port read data of the position (R156): 0 where MBb does no static read. -/
def State.staticData (s : State) (cl : Nat) (cw : CWord) (b : Nat) : Dword :=
  if cw.bankOp.getD b 0 = 1 then ((s.bankRead (cl * 4 + b) (s.staticAddr cl cw b)).1).delivered else 0

/-- The latency of a WAU operation (R143). -/
def wauLatency (op : Nat) : Nat :=
  match op with
  | 2 | 3 | 4 => 3
  | 5 => 2
  | _ => 1

/-- The WAU pipeline of a cluster. -/
def State.pipeOf (s : State) (cl : Nat) : List WauOp := Sparse.get [] s.fab.pipe cl

/-- The WAU result of position `e` (R139): 0 where no operation presents one. -/
def State.wauResult (s : State) (cl e : Nat) : Dword :=
  match (s.pipeOf cl).find? (fun o => o.pos + wauLatency o.op == e) with
  | some o => o.res.getD 0
  | none => 0

/-- The oldest read entry of a queue whose eight words have not all been taken (R188). -/
def Mq.oldestRead (q : Mq) : Option MqEntry := q.entries.find? (fun x => !x.write)

/-- The checked read of the return word that a queue presents (R188, R191). -/
def State.returnRead (s : State) (cl q : Nat) : Option (MqEntry × Checked) :=
  match (s.mq cl q).oldestRead with
  | none => none
  | some x => some (x, match x.buf[(s.mq cl q).word]? with
    | some w => secdedRead72 w 0
    | none => ⟨(Config.freeDword (s.free + cl * 8 + q)).toNat, 0, false⟩)

/-- Queue return data of the position (R188); 0 where the queue has no read entry, which the loader excludes (R189). -/
def State.returnData (s : State) (cl q : Nat) : Dword :=
  match s.returnRead cl q with
  | some (_, c) => c.delivered
  | none => 0

/-- The scatter bus of a cluster in position `e` (R98). -/
def State.scatter (s : State) (cl e : Nat) (cw : CWord) : Dword :=
  match cw.scat with
  | 1 => s.wauResult cl e
  | 2 => s.staticData cl cw 0
  | 3 => s.staticData cl cw 1
  | 4 => s.staticData cl cw 2
  | 5 => s.staticData cl cw 3
  | 6 => s.returnData cl cw.waitQ
  | _ => 0

/-! ### The Boolean processors (R57–R88) -/

/-- The word a BP executes at step `k`: NOP after an uncorrectable error (R84). -/
def State.bpWord (s : State) (cl bp k : Nat) : IWord :=
  let r := (s.istoreRead cl bp k).1
  iword (if r.ue then 0 else r.data)

/-- The index into the truth table (R63): the bits that selectors S0–S5 read, with operand offset `f`. -/
def State.tableIndex (s : State) (j cl bp f : Nat) (w : IWord) : Nat :=
  (List.range 6).foldl (fun a i => a + boolNat (s.dsBit j cl bp (effAddr w f i)) * 2 ^ i) 0

/-- The operand offset that a word's relative selectors use (R65, R97). -/
def State.operandOfs (s : State) (seg : Nat) (w : IWord) : Nat := (s.seq seg).ofs.getD w.ofs 0

/-- The result of the instruction that a BP executes in the position (R62): `none` for NOP. -/
def State.bpResult (s : State) (j seg cl bp : Nat) : Option (IWord × Bool) :=
  let k := (s.seq seg).k
  let w := s.bpWord cl bp k
  match w.opc with
  | 1 | 2 => some (w, (s.fnTable cl w.fn).testBit (s.tableIndex j cl bp (s.operandOfs seg w) w))
  | 3 => some (w, (s.scatter cl (s.job j).e (s.control cl k)).getLsbD bp)
  | _ => none

/-- The results of a cluster's BPs in the position, by BP. -/
def State.clusterResults (s : State) (j seg cl : Nat) : List (Nat × IWord × Bool) :=
  (List.range 64).filterMap (fun bp => (s.bpResult j seg cl bp).map (fun r => (bp, r.1, r.2)))

/-- The gather bus of a cluster in the position (R69). -/
def State.gather (s : State) (j seg cl : Nat) : Dword :=
  BitVec.ofNat 64 ((s.clusterResults j seg cl).foldl
    (fun a r => if r.2.1.gat && r.2.2 then a + 2 ^ r.1 else a) 0)

/-- Effects of an execution-port read of an instruction-store entry (R83, R84, R88). -/
def State.istoreEffects (s : State) (j cl bp k : Nat) : List Effect :=
  let r := s.istoreRead cl bp k
  (if r.2 then [Effect.disarm (fabcAt cl 0x58)] else []) ++
  (if r.1.ue then [Effect.istoreUe j cl bp k r.1.syn]
   else if r.1.syn != 0 then [Effect.istoreFix cl bp k r.1.syn] else [])

/-- Effects of the instruction that a BP executes in the position (R59, R67–R73, R80). -/
def State.bpEffects (s : State) (j seg cl bp : Nat) : List Effect :=
  let q := s.seq seg
  let key := (cl * 64 + bp) * 2048
  s.istoreEffects j cl bp q.k ++
  match s.bpResult j seg cl bp with
  | none => []
  | some (w, res) =>
    (if w.opc = 2 && w.adv then [Effect.setDs (key + (s.job j).m % 1024) res] else []) ++
    (if w.we then [Effect.setDs (key + (q.k + q.rofs) % 1024) res] else []) ++
    (if w.opc = 3 then
      let a := effAddr w (s.operandOfs seg w) 0
      if 0x400 ≤ a ∧ a < 0x7C0 then [Effect.setDs (key + a) res] else []
     else []) ++
    (if w.send then [Effect.send (cl * 32 + w.port) res] else [])

/-! ### Control words, taps and the wide arithmetic unit (R98–R100, R138–R149) -/

/-- Effects of the control store's read and of the cluster's four capture taps (R70, R100). -/
def State.controlEffects (s : State) (j seg cl : Nat) : List Effect :=
  let k := (s.seq seg).k
  let r := s.cstoreRead cl k
  let cw := s.control cl k
  (if r.2 then [Effect.disarm (fabcAt cl 0x88)] else []) ++
  (if r.1.ue then [Effect.cwUe j cl k r.1.syn]
   else if r.1.syn != 0 then [Effect.cwFix cl k r.1.syn] else []) ++
  (List.range 4).map (fun t =>
    let v := match s.bpResult j seg cl (cw.cap.getD t 0) with
      | some (w, res) => w.cap && res && !r.1.ue
      | none => false
    Effect.tap ((cl * 4 + t) * 1024 + k) v)

/-- The operation issued by a control word, as it enters the pipeline (R139, R142). ADD64, EXPX and CLZ64 form their
result at once. -/
def issuedOp (op opnd pos : Nat) (a b : Dword) (res : Option Dword) : WauOp := ⟨op, opnd, pos, a, b, res⟩

/-- The exact value of ADD64 (R143). -/
def add64Result (opnd : Nat) (a b : Dword) : Dword := if opnd % 2 = 1 then a - b else a + b

/-- The exact value of MUL32 (R143): unsigned, or two's-complement factors under option 1. -/
def mul32Result (opnd : Nat) (a : Dword) : Dword :=
  let x := natBits a.toNat 31 0
  let y := natBits a.toNat 63 32
  if opnd % 2 = 1 then BitVec.ofInt 64 (signedOf 32 x * signedOf 32 y) else BitVec.ofNat 64 (x * y)

/-- The real and imaginary parts of CMUL16, 33 bits each, sign-extended (R144). -/
def cmul16Result (opnd : Nat) (a : Dword) : Dword × Dword :=
  let xr := signedOf 16 (natBits a.toNat 15 0)
  let xi := signedOf 16 (natBits a.toNat 31 16)
  let yr := signedOf 16 (natBits a.toNat 47 32)
  let yi := signedOf 16 (natBits a.toNat 63 48)
  if opnd % 2 = 1 then (BitVec.ofInt 64 (xr * yr + xi * yi), BitVec.ofInt 64 (xi * yr - xr * yi))
  else (BitVec.ofInt 64 (xr * yr - xi * yi), BitVec.ofInt 64 (xr * yi + xi * yr))

/-- The new accumulator of MAC48 from A and the accumulator as it stands (R145). -/
def mac48Result (opnd : Nat) (a acc : Dword) : Dword :=
  let x := natBits a.toNat 23 0
  let y := natBits a.toNat 47 24
  let prod : Int := if opnd % 2 = 1 then signedOf 24 x * signedOf 24 y else (x * y : Nat)
  let sum := unsignedOf 48 (prod + (natBits acc.toNat 47 0 : Nat))
  if opnd % 2 = 1 then BitVec.ofInt 64 (signedOf 48 sum) else BitVec.ofNat 64 sum

/-- Leading zeros of the low `n` bits of a number. -/
def leadingZeros : Nat → Nat → Nat
  | 0, _ => 0
  | n + 1, v => if v.testBit n then 0 else 1 + leadingZeros n v

/-- NORM64: the shifted value and the count (R146). -/
def norm64Result (opnd : Nat) (a : Dword) : Dword × Dword :=
  if opnd % 2 = 0 then
    let n := leadingZeros 64 a.toNat
    (a <<< n, BitVec.ofNat 64 n)
  else
    let v := if a.getLsbD 63 then (~~~a).toNat else a.toNat
    let n := leadingZeros 64 v
    if n = 64 then (a, 63) else (a <<< (n - 1), BitVec.ofNat 64 (n - 1))

/-- CLZ64: leading zeros of A, or leading ones under option 1 (R146). -/
def clz64Result (opnd : Nat) (a : Dword) : Dword :=
  BitVec.ofNat 64 (leadingZeros 64 (if opnd % 2 = 1 then (~~~a).toNat else a.toNat))

/-- The lanes of EXPX: lane width, field bits and bias for a format (R147). -/
def expxFormat (fmt : Nat) : Nat × Nat × Nat × Nat :=
  match fmt with
  | 0 => (16, 14, 10, 15)
  | 1 => (16, 14, 7, 127)
  | 2 => (32, 30, 23, 127)
  | _ => (64, 62, 52, 1023)

/-- EXPX: the exponent field of each lane, or the field minus the bias under option 1 (R147). -/
def expxResult (opnd : Nat) (a b : Dword) : Dword :=
  let f := expxFormat (natBits b.toNat 1 0)
  BitVec.ofNat 64 ((List.range (64 / f.1)).foldl (fun acc i =>
    let fld := natBits a.toNat (f.1 * i + f.2.1) (f.1 * i + f.2.2.1)
    let v := if opnd % 2 = 1 then unsignedOf f.1 ((fld : Int) - f.2.2.2) else fld
    acc + v * 2 ^ (f.1 * i)) 0)

/-- The register pair of WAU.opnd (R142). -/
def pairOf (opnd : Nat) : Nat := opnd / 2 % 4

/-- A and B of the issue named by WAU.opnd (R142). -/
def State.wauA (s : State) (cl opnd : Nat) : Dword := s.opReg cl (2 * pairOf opnd)

/-- B of the issue named by WAU.opnd (R142). -/
def State.wauB (s : State) (cl opnd : Nat) : Dword := s.opReg cl (2 * pairOf opnd + 1)

/-- P of an operation whose last position is `e`, from its captured operands, or for MAC48 from the accumulator as it
stands at the start of the position (R145). -/
def State.wauP (s : State) (cl : Nat) (o : WauOp) : Dword :=
  match o.op with
  | 1 => add64Result o.opnd o.a o.b
  | 2 => mul32Result o.opnd o.a
  | 3 => (cmul16Result o.opnd o.a).1
  | 4 => mac48Result o.opnd o.a (s.wauB cl o.opnd)
  | 5 => (norm64Result o.opnd o.a).1
  | 6 => expxResult o.opnd o.a o.b
  | _ => clz64Result o.opnd o.a

/-- What an operation writes to B, where it does (R143). -/
def State.wauWriteB (s : State) (cl : Nat) (o : WauOp) : Option Dword :=
  match o.op with
  | 3 => some (cmul16Result o.opnd o.a).2
  | 4 => some (mac48Result o.opnd o.a (s.wauB cl o.opnd))
  | 5 => some (norm64Result o.opnd o.a).2
  | _ => none

/-- Effects of the issue that a control word names, for the operation `op` (R139, R142). -/
def State.wauIssueEffects (s : State) (j seg cl op : Nat) : List Effect :=
  let cw := s.control cl (s.seq seg).k
  if cw.wauOp = op ∧ op ≠ 0 then
    let a := s.wauA cl cw.opnd
    let b := s.wauB cl cw.opnd
    let o := issuedOp op cw.opnd (s.job j).e a b none
    let o := if wauLatency op = 1 then { o with res := some (s.wauP cl o) } else o
    [Effect.wauIssue cl o, Effect.cycAdd (cl * 16 + 1) 1, Effect.cycOr (cl * 16 + 2) (2 ^ op)]
  else []

/-- Effects of the operations whose result is formed at the end of position `e` (R139): pad positions included. -/
def State.wauDoneEffects (s : State) (cl e : Nat) : List Effect :=
  ((s.pipeOf cl).filter (fun o => o.res.isNone && o.pos + wauLatency o.op == e + 1)).flatMap (fun o =>
    Effect.wauDone cl o.pos (s.wauP cl o) ::
    match s.wauWriteB cl o with
    | some v => [Effect.setOr (cl * 8 + 2 * pairOf o.opnd + 1) v]
    | none => [])

/-- Effects of an operand-register load from the gather bus, the WAU result or the queue return data (R140). -/
def State.wauLoadEffects (s : State) (j seg cl : Nat) : List Effect :=
  let cw := s.control cl (s.seq seg).k
  let key := cl * 8 + cw.ldDst
  match cw.ldSrc with
  | 1 => [Effect.setOr key (s.gather j seg cl)]
  | 2 => [Effect.setOr key (s.wauResult cl (s.job j).e)]
  | 7 => [Effect.setOr key (s.returnData cl cw.waitQ)]
  | _ => []

/-! ### Model-memory banks on the fabric ports (R155–R165) -/

/-- Effects of a checked bank read on a port (R165, R167): port 0 static, 1 WAU. -/
def State.bankReadEffects (s : State) (j bank w port : Nat) : List Effect :=
  let r := s.bankRead bank w
  (if r.2 then [Effect.disarm (fabcAt (bank / 4) 0x194)] else []) ++
  (if r.1.ue then [Effect.mbUe j bank w r.1.syn port]
   else if r.1.syn != 0 then [Effect.mbFix bank w r.1.syn port] else [])

/-- Effects of a WAU-port read of bank `b` (R157). -/
def State.wauPortEffects (s : State) (j seg cl b : Nat) : List Effect :=
  let cw := s.control cl (s.seq seg).k
  if cw.ldSrc = 3 + b then
    let w := s.ocr cl (b + 4)
    s.bankReadEffects j (cl * 4 + b) w 1 ++
    [Effect.setOr (cl * 8 + cw.ldDst) ((s.bankRead (cl * 4 + b) w).1).delivered, Effect.cycAdd (cl * 16 + 3) 1]
  else []

/-- The staged-release stage restrains a job's memory write enables (R237, R238). -/
def Job.writesSuppressed (j : Job) : Bool := !j.bulk && decide (j.stage < 2)

/-- Effects of the static-port operation `op` on bank `b` (R156, R238). -/
def State.staticEffects (s : State) (j seg cl b op : Nat) : List Effect :=
  let cw := s.control cl (s.seq seg).k
  if cw.bankOp.getD b 0 = op ∧ op ≠ 0 then
    let w := s.staticAddr cl cw b
    Effect.cycAdd (cl * 16 + 3) 1 ::
    (if op = 1 then s.bankReadEffects j (cl * 4 + b) w 0
     else if (s.job j).writesSuppressed then []
     else if op = 2 then [Effect.bankWrite (cl * 4 + b) w (s.gather j seg cl)]
     else [Effect.bankWrite (cl * 4 + b) w (s.wauResult cl (s.job j).e)])
  else []

/-! ### Decoupling queues (R182, R188, R189) -/

/-- The window address of an issue on a queue (R182). -/
def State.mqAddr (s : State) (j seg cl q : Nat) : Nat :=
  let cfg := s.mqCfg cl q
  let idx := if natBit cfg 5 then natBits (s.gather j seg cl).toNat 31 0
    else (s.job j).m * natBits cfg 31 16 + (s.mq cl q).issued
  natBits (s.mqBase cl q) 27 0 * 64 + (idx % 2 ^ natBits cfg 4 0) * 64

/-- The 64 bytes of a queue write: byte 8i + b is byte b of ORi (R182). -/
def State.mqData (s : State) (cl : Nat) : List Byte :=
  (List.range 8).flatMap (fun i => leBytes 8 (s.opReg cl i).toNat)

/-- Effects of the request that a control word issues, for direction `write` (R182, R191, R238). -/
def State.mqIssueEffects (s : State) (j seg cl : Nat) (write : Bool) : List Effect :=
  let cw := s.control cl (s.seq seg).k
  if cw.issueKind = (if write then 2 else 1) then
    let q := cw.issueQ
    if 16 ≤ (s.mq cl q).entries.length then [Effect.mqOverflow j cl q]
    else [Effect.mqIssue cl q write (s.mqAddr j seg cl q) (s.job j).e
      (if write then s.mqData cl else []) (write && (s.job j).writesSuppressed)]
  else []

/-- The requests that a WAIT with count `c` covers, of `n` issued in the design cycle (R186). -/
def waitCovers (n c ord : Nat) : Bool := decide (ord + c < n)

/-- Effects of a WAIT at its position: the write entries it covers are freed (R189). -/
def State.mqWaitEffects (s : State) (seg cl : Nat) : List Effect :=
  let cw := s.control cl (s.seq seg).k
  if cw.waitEn then
    let q := s.mq cl cw.waitQ
    (q.entries.filter (fun x => x.write && x.state == .complete && waitCovers q.issued cw.waitCount x.ord)).map
      (fun x => Effect.mqFree cl cw.waitQ x.slot)
  else []

/-- Effects of taking a word of return data (R188, R189, R191). -/
def State.mqTakeEffects (s : State) (j seg cl : Nat) : List Effect :=
  let cw := s.control cl (s.seq seg).k
  if cw.ldSrc = 7 ∨ cw.scat = 6 then
    match s.returnRead cl cw.waitQ with
    | none => []
    | some (x, c) =>
      let w := (s.mq cl cw.waitQ).word
      (if c.ue then [Effect.retUe j cl cw.waitQ x.slot w c.syn]
       else if c.syn != 0 then [Effect.retFix cl cw.waitQ x.slot w c.syn] else []) ++
      [Effect.mqTake cl cw.waitQ]
  else []

end Sys2Proof.Machine
end

