-- ==== Sys2Proof/Machine/Network.lean ====
section
/-! DEFINITION. The static design network (chapter 5): links and crossings, what a router sees in a position, and the
effects of its slot entry. -/

namespace Sys2Proof.Machine

/-- A lane. -/
def State.lane (s : State) (n : Nat) : Lane := Sparse.get {} s.lanes n

/-- The state with a lane changed. -/
def State.setLane (s : State) (n : Nat) (x : Lane) : State := { s with lanes := Sparse.set {} s.lanes n x }

/-- The far end of a router's link in direction 0 N, 1 E, 2 S, 3 W, and whether the link is a die crossing (R116, R117);
`none` for a dead direction. -/
def linkEnd (cl dir : Nat) : Option (Nat × Bool) :=
  let die := cl / 1024
  let x := meshX cl
  let y := meshY cl
  match dir with
  | 0 => if y = 0 then (if die / 2 = 1 then some (clusterAt (die - 2) x 31, true) else none)
         else some (clusterAt die x (y - 1), false)
  | 1 => if x = 31 then (if die % 2 = 0 then some (clusterAt (die + 1) 0 y, true) else none)
         else some (clusterAt die (x + 1) y, false)
  | 2 => if y = 31 then (if die / 2 = 0 then some (clusterAt (die + 2) x 0, true) else none)
         else some (clusterAt die x (y + 1), false)
  | _ => if x = 0 then (if die % 2 = 1 then some (clusterAt (die - 1) 31 y, true) else none)
         else some (clusterAt die (x - 1) y, false)

/-- The sub-port of a lane-attached router (R118). -/
def laneSub (cl : Nat) : Option Nat :=
  match cl % 64 with
  | 27 => some 0
  | 28 => some 1
  | 35 => some 2
  | 36 => some 3
  | _ => none

/-- FABC_NET_CFG of a cluster (R136): its coordinates, crossings, dead directions and lane attachment. -/
def netCfg (cl : Nat) : Nat :=
  let bits (f : Nat → Bool) := (List.range 4).foldl (fun a d => a + boolNat (f d) * 2 ^ d) 0
  meshX cl + meshY cl * 2 ^ 8 +
  bits (fun d => match linkEnd cl d with | some (_, c) => c | none => false) * 2 ^ 16 +
  bits (fun d => (linkEnd cl d).isNone) * 2 ^ 20 +
  (match laneSub cl with | some i => 2 ^ 24 + i * 2 ^ 25 | none => 0)

/-- The lane whose received bits a segment of a job takes: lane n for segment n, and in compare mode also for segment
n + 32 (R118, R277). -/
def rxLaneOf (j : Job) (seg : Nat) : Nat := if j.compare && 32 ≤ seg then seg - 32 else seg

/-- A lane is bound to a job (R299): LANE_JOB. -/
def State.laneBound (s : State) (n j : Nat) : Bool :=
  s.flag (laneAt n 0x50) 31 && s.fld (laneAt n 0x50) 20 15 == j

/-- The absolute position of a job: design cycle times L plus the executed position. -/
def Job.abs (j : Job) : Nat := j.m * j.len + j.e

/-- The word that a lane's elastic buffer holds for a position (R300). -/
def Lane.due (l : Lane) (at_ : Nat) : Option ElWord := l.elastic.find? (fun w => w.due == at_)

/-- LANE_LAT.prog of a lane: Λ (R300). -/
def State.lambda (s : State) (n : Nat) : Nat := s.fld (laneAt n 0x48) 9 0

/-- A bound lane owes a word in the position that executes next, and its buffer does not hold it (R301). Nothing is due
before the sender's position 0 of design cycle 0 can arrive. -/
def State.wordMissing (s : State) (j n : Nat) : Bool :=
  let job := s.job j
  s.laneBound n j && decide (s.lambda n ≤ job.abs) && ((s.lane n).due job.abs).isNone

/-- The input of router port `port` (0–3 links, 4 the lane sub-port), track `t`, in position `e`, with its parked tag
(R119, R121, R133). An input that was not driven reads 0. -/
def State.routerIn (s : State) (j cl port t : Nat) : Bool × Bool :=
  let job := s.job j
  if port = 4 then
    match laneSub cl with
    | none => (false, false)
    | some i =>
      let n := rxLaneOf job (cl / 64)
      if s.laneBound n j then
        match (s.lane n).due job.abs with
        | some w => (w.word.getLsbD (16 * i + t), w.parked)
        | none => (false, false)
      else (false, false)
  else
    let far := match linkEnd cl port with
      | some (c, _) => (s.seq (c / 64)).region
      | none => false
    match s.fab.flights.find? (fun f => f.cl == cl && f.port == port && f.track == t && f.pos == job.e) with
    | some f => (f.bit, f.tag || far)
    | none => (false, far)

/-- A send of the position on outbound port `p` of a cluster (R68). -/
def sendBit (results : List (Nat × IWord × Bool)) (p : Nat) : Bool :=
  results.any (fun r => r.2.1.send && r.2.1.port == p && r.2.2)

/-- What a select of a link or LANE output drives (R127). -/
def State.outputSource (s : State) (j cl sel t : Nat) : Bool × Bool :=
  match sel with
  | 1 => s.routerIn j cl 0 t
  | 2 => s.routerIn j cl 1 t
  | 3 => s.routerIn j cl 2 t
  | 4 => s.routerIn j cl 3 t
  | 5 => (Sparse.get false s.fab.inj (cl * 32 + t), false)
  | 6 => (Sparse.get false s.fab.inj (cl * 32 + t + 16), false)
  | 7 => s.routerIn j cl 4 t
  | _ => (false, false)

/-- What a delivery select delivers (R127): a local delivery takes the outbound port in this position. -/
def State.deliverySource (s : State) (j cl sel t : Nat) (results : List (Nat × IWord × Bool)) : Bool × Bool :=
  match sel with
  | 5 => (sendBit results t, false)
  | 6 => (sendBit results (t + 16), false)
  | _ => s.outputSource j cl sel t

/-- Effects of the delivery on inbound port `p` (R119, R128, R134). A tagged delivery that PARK_p = 0b00 keeps from writing counts in
FABC_NET_DLV too: the spec does not say (DESIGN CHOICE, assumption 78). -/
def State.deliveryEffects (s : State) (j cl slot p : Nat) (results : List (Nat × IWord × Bool)) : List Effect :=
  let sel := dlvSelect slot p
  if sel = 0 then []
  else
    let v := s.deliverySource j cl sel (p % 16) results
    let dlv := dlvField slot p
    let write (b : Bool) := (dlvTargets dlv).map (fun bp => Effect.setDs ((cl * 64 + bp) * 2048 + natBits dlv 10 0) b)
    Effect.cycAdd (cl * 16) 1 ::
    (if v.2 then
      Effect.park cl 1 ::
      (match parkField slot p with
      | 1 => write false
      | 2 => write true
      | _ => [])
    else write v.1)

/-- Effects of one track's outputs (R119, R120, R122): a mesh hop takes 1 step, a die crossing 12. -/
def State.trackEffects (s : State) (j seg cl slot t : Nat) : List Effect :=
  let e := (s.job j).e
  ((List.range 4).flatMap (fun dir =>
    let v := s.outputSource j cl (trkSelect slot t dir) t
    match linkEnd cl dir with
    | none => []
    | some (far, crossing) =>
      if v.1 || v.2 then
        [Effect.flight ⟨far, (dir + 2) % 4, t, e + (if crossing then 12 else 1), v.1, v.2⟩]
      else [])) ++
  (match laneSub cl with
  | none => []
  | some i =>
    let sel := trkSelect slot t 4
    if sel = 0 then [] else
      let v := s.outputSource j cl sel t
      [Effect.laneOut seg (16 * i + t) v.1 v.2])

/-- Effects of the slot table's read (R130). -/
def State.slotEffects (s : State) (j cl k : Nat) : List Effect :=
  (List.range 16).flatMap (fun w =>
    let r := s.slotRead cl k w
    (if r.2 then [Effect.disarm (fabcAt cl 0x108)] else []) ++
    (if r.1.ue then [Effect.netUe j cl k w r.1.syn]
     else if r.1.syn != 0 then [Effect.netFix cl k w r.1.syn] else []))

/-- Effects of a router in a position its segment executes (R119–R134). -/
def State.routerEffects (s : State) (j seg cl : Nat) : List Effect :=
  let k := (s.seq seg).k
  let slot := s.slotWord cl k
  let results := s.clusterResults j seg cl
  s.slotEffects j cl k ++
  (List.range 16).flatMap (fun t => s.trackEffects j seg cl slot t) ++
  (List.range 32).flatMap (fun p => s.deliveryEffects j cl slot p results)

end Sys2Proof.Machine
end

