-- ==== Sys2Proof/Machine/Edge.lean ====
section
/-! DEFINITION. The edge that ends an executed position: applying the effects of its units (R59), error counting and
write-back (R83, R84, R100, R130, R165, R191), and fault records (R219, R223). -/

namespace Sys2Proof.Machine

/-! ### Fault records -/

/-- The eight words of a fault record (R219). -/
def FaultRec.toWords (r : FaultRec) : List Word :=
  [BitVec.ofNat 32 (r.code + r.phase * 2 ^ 16 + r.cls * 2 ^ 20 + r.job * 2 ^ 24),
   BitVec.ofNat 32 (r.seg + r.cl * 2 ^ 6 + r.bp * 2 ^ 12 + r.unit * 2 ^ 20 + r.sub * 2 ^ 24),
   BitVec.ofNat 32 (r.k + r.e % 16384 * 2 ^ 10), BitVec.ofNat 32 r.blk, BitVec.ofNat 32 r.m, BitVec.ofNat 32 (r.m / 2 ^ 32),
   BitVec.ofNat 32 r.w6, BitVec.ofNat 32 r.w7]

/-- The detail of a fault record's event: W0, W1, W2 and W4, as the log shows it (R423), and what the event tells further. -/
def FaultRec.detail (r : FaultRec) : List Word :=
  let w := r.toWords
  [w.getD 0 0, w.getD 1 0, w.getD 2 0, w.getD 4 0] ++ r.extra

/-- A fault record raised for a job (R222, R281): its event, and its handling left to firmware (R251). -/
def State.raiseFault (s : State) (j : Nat) (r : FaultRec) : State :=
  let x := s.job j
  (s.setJob j { x with faults := x.faults ++ [{ r with ns := s.flat }] }).event j r.code j r.detail

/-- The segment pads at the position that executes next (R91). -/
def Seq.padding (q : Seq) : Bool := q.k == q.cycLen && q.stack.isEmpty

/-- The programmed step that a record of a job's present position names for a segment (R219): 0 where it has none, in a pad position
(R114) and in a hold before position 0. -/
def State.recStep (s : State) (j seg : Nat) : Nat :=
  let q := s.seq seg
  if (s.job j).e = (s.job j).len ∨ q.padding then 0 else q.k

/-- The position that a record of a job's present position names: the held one in a hold before position 0 (R219). -/
def Job.recPos (x : Job) : Nat := if x.e = x.len then 0 else x.e

/-- The record of a class 1 fault found in a job's present position (R224). In a hold before position 0 the held position is
position 0 (R219). -/
def State.classOneRec (s : State) (j code seg cl bp unit sub type : Nat) : FaultRec :=
  let x := s.job j
  { code := code, phase := 4, cls := 1, job := j, seg := seg, cl := cl % 64, bp := bp
    unit := unit, sub := sub, k := s.recStep j seg, e := x.recPos
    m := x.m, blk := if type = 0 then 0 else blockIndex x type seg (cl % 64) }

/-- A class 1 fault raised: the job is to stop before the boundary (R84, R108). -/
def State.stopFor (s : State) (j : Nat) (r : FaultRec) : State :=
  (s.setJob j { s.job j with ue := true, holdAt := none, nextHold := none }).raiseFault j r

/-- A class 1 fault found in a job's position: the record, and the stop before the boundary (R84, R108, R224). -/
def State.classOne (s : State) (j code seg cl bp unit sub type : Nat) : State :=
  s.stopFor j (s.classOneRec j code seg cl bp unit sub type)

/-! ### Stored words -/

/-- A 64-bit word and its check bits in the configuration stores rewritten as corrected (R83, R130). -/
def State.rewrite64 (s : State) (place : Nat × Nat) : State :=
  let r := secdedRead 64 (Sparse.num s.fab.cfg place.1 8) (Sparse.num s.fab.cfg place.2 1)
  if r.ue || r.syn = 0 then s
  else { s with fab := { s.fab with cfg := Sparse.putBytes (Sparse.putBytes s.fab.cfg place.1 (leBytes 8 r.data))
                                            place.2 (leBytes 1 (secdedCheck 64 r.data)) } }

/-- An instruction-store entry rewritten as corrected (R83). -/
def State.rewrite96 (s : State) (place : Nat × Nat) : State :=
  let r := secdedRead 96 (Sparse.num s.fab.cfg place.1 12) (Sparse.num s.fab.cfg place.2 1)
  if r.ue || r.syn = 0 then s
  else { s with fab := { s.fab with cfg := Sparse.putBytes (Sparse.putBytes s.fab.cfg place.1 (leBytes 12 r.data))
                                            place.2 (leBytes 1 (secdedCheck 96 r.data)) } }

/-- A bank word written with its check bits; the block's dirty bit is set (R152, R168). -/
def State.bankStore (s : State) (bank w : Nat) (data : Dword) : State :=
  { s with fab := { s.fab with
      mb := Sparse.set 0 s.fab.mb (bank * 4096 + w) (secded72 data)
      dirty := Sparse.set 0 s.fab.dirty bank (Sparse.get 0 s.fab.dirty bank ||| BitVec.ofNat 32 (2 ^ (w / 128 % 32))) } }

/-- A write-back of an instruction-store entry: the entry rewritten, counted and recorded (R83). -/
def State.istoreWriteback (s : State) (x : IstoreWb) : State :=
  let s := s.rewrite96 (istoreAt x.cl x.bp x.entry)
  let s := { s with fab := { s.fab with istoreWb := s.fab.istoreWb.erase x } }
  (s.bump (fabcAt x.cl 0x40) 15 0 1).setReg (fabcAt x.cl 0x44)
    (BitVec.ofNat 32 (x.bp + x.entry * 2 ^ 6 + x.syn * 2 ^ 16 + 2 ^ 31))

/-- FABC_MB_ECC_LAST (R173): port 0 static, 1 WAU, 2 dynamic. -/
def State.mbEccLast (s : State) (bank w syn port : Nat) (ue : Bool) : State :=
  s.setReg (fabcAt (bank / 4) 0x190)
    (BitVec.ofNat 32 (w + bank % 4 * 2 ^ 12 + syn * 2 ^ 14 + port * 2 ^ 22 + boolNat ue * 2 ^ 24 + 2 ^ 31))

/-- A corrected bank word: counted once while its write-back is pending, recorded, and its write-back queued (R165). -/
def State.mbCorrected (s : State) (bank w syn port : Nat) : State :=
  let s := s.mbEccLast bank w syn port false
  if s.fab.mbWb.any (fun x => x.bank == bank && x.word == w) then s
  else { s.bump (fabcAt (bank / 4) (0x180 + 4 * (bank % 4))) 15 0 1 with
          fab := { s.fab with mbWb := s.fab.mbWb ++ [⟨bank, w⟩] } }

/-! ### Tags (R183) -/

/-- The entries of a cluster group's queues. -/
def State.groupEntries (s : State) (cg : Nat) : List (Nat × MqEntry) :=
  (Sparse.range s.fab.queues (cg * 256) (cg * 256 + 256)).flatMap (fun e => e.2.entries.map (fun x => (e.1, x)))

/-- The slots of a cluster group's pool in use (R183). -/
def State.tagsInUse (s : State) (cg : Nat) : List Nat :=
  (s.groupEntries cg).filterMap (fun e => match e.2.state with | .out t => some (t % 512) | _ => none)

/-- The lowest free slot of a cluster group's pool of 512 tags (R183). -/
def State.freeTag (s : State) (cg : Nat) : Option Nat :=
  let used := s.tagsInUse cg
  ((List.range 512).find? (fun i => !used.contains i)).map (fun i => cg * 512 + i)

/-- FABC_MQ_TAG.peak follows the tags in use, in each of the group's 32 pages (R201). -/
def State.tagPeak (s : State) (cg : Nat) : State :=
  let n := (s.tagsInUse cg).length
  (List.range 32).foldl (fun s i => s.peak (fabcAt (cg * 32 + i) 0x288) 25 16 n) s

/-- The oldest request of a cluster group that waits for a tag (R183): queue key and entry. -/
def State.oldestWaiting (s : State) (cg : Nat) : Option (Nat × MqEntry) :=
  ((s.groupEntries cg).filter (fun e => e.2.state == .waitTag)).foldl
    (fun best e => match best with
      | none => some e
      | some b => if e.2.seqNo < b.2.seqNo then some e else some b) none

/-- A queue's entry in place `slot` changed by `f`. -/
def Mq.mapSlot (q : Mq) (slot : Nat) (f : MqEntry → MqEntry) : Mq :=
  { q with entries := q.entries.map (fun x => if x.slot == slot then f x else x) }

/-- The oldest waiting request of a cluster group takes a free tag (R183). -/
def State.grantTag (s : State) (cg : Nat) : State :=
  match s.oldestWaiting cg, s.freeTag cg with
  | some (key, x), some t =>
    (s.setMq (key / 8) (key % 8)
      ((s.mq (key / 8) (key % 8)).mapSlot x.slot (fun y => { y with state := .out t }))).tagPeak cg
  | _, _ => s

/-! ### Applying effects -/

/-- The lane's word of the position with one bit set: the last word appended (R295). -/
def Lane.setOutBit (l : Lane) (idx : Nat) (v : Bool) : Lane :=
  match l.words.reverse with
  | [] => l
  | w :: ws =>
    if v && !w.parked then { l with words := (({ w with word := w.word ||| BitVec.ofNat 64 (2 ^ idx) }) :: ws).reverse }
    else l

/-- A queue request issued: an entry allocated in the lowest free place, and a tag taken where one is free (R182, R183). -/
def State.mqAllocate (s : State) (cl q : Nat) (write : Bool) (addr pos : Nat) (data : List Byte) (suppress : Bool) :
    State :=
  let x := s.mq cl q
  let slot := ((List.range 16).find? (fun i => !x.entries.any (fun y => y.slot == i))).getD 0
  let ent : MqEntry := { slot := slot, write := write, ord := x.issued, pos := pos,
                         seqNo := s.fab.issueSeq * 4096 + cl, addr := addr, suppress := suppress, arrived := false,
                         state := .waitTag, ue := false, data := data, buf := [] }
  let s := s.setMq cl q { x with entries := x.entries ++ [ent], issued := x.issued + 1 }
  let s := { s with fab := { s.fab with cyc := Sparse.set 0 s.fab.cyc (cl * 16 + 8 + q)
                                                 (Sparse.get 0 s.fab.cyc (cl * 16 + 8 + q) + 1) } }
  s.grantTag (groupOf cl)

/-- One word of the oldest read entry taken; after word 7 the entry is retired (R188, R189). -/
def Mq.take (q : Mq) : Mq :=
  match q.oldestRead with
  | none => q
  | some x =>
    if q.word = 7 then { q with word := 0, entries := q.entries.filter (fun y => y.slot != x.slot) }
    else { q with word := q.word + 1 }

/-- A missing lane word (R301): the first since the last read is recorded in LANE_LATO, the interrupt and PG_ERR are
set, and firmware makes one record for each lane and episode (R280). -/
def State.latOver (s : State) (j n m e : Nat) : State :=
  let s := if s.flag (laneAt n 0x70) 31 then s
    else s.setReg (laneAt n 0x70) (BitVec.ofNat 32 (e + m % 65536 * 2 ^ 14 + 2 ^ 31))
  let s := (s.raiseIrq (0x180 + n) 5).pgErrSelf (0x180 + n) 0x389 0x70
  let l := s.lane n
  match l.episode with
  | some _ => s.setLane n { l with wordsLost := true }
  | none =>
    (s.setLane n { l with episode := some m, wordsLost := true }).raiseFault j
      { code := 0x389, phase := 4, cls := 3, job := j, seg := n, unit := 8, sub := n, e := e, m := m }

/-- One effect of a position applied. -/
def applyEffect (s : State) (x : Effect) : State :=
  match x with
  | .setDs key v => { s with fab := { s.fab with ds := Sparse.set false s.fab.ds key v } }
  | .setOr key v => { s with fab := { s.fab with ors := Sparse.set 0 s.fab.ors key v } }
  | .bankWrite bank w data =>
    let s := s.bankStore bank w data
    { s with fab := { s.fab with mbWb := s.fab.mbWb.filter (fun y => !(y.bank == bank && y.word == w)) } }
  | .wauIssue cl op => { s with fab := { s.fab with pipe := Sparse.set [] s.fab.pipe cl (s.pipeOf cl ++ [op]) } }
  | .wauDone cl pos res =>
    { s with fab := { s.fab with pipe := Sparse.set [] s.fab.pipe cl ((s.pipeOf cl).map (fun o =>
        if o.pos == pos && o.res.isNone then { o with res := some res } else o)) } }
  | .send key v => { s with fab := { s.fab with inj := Sparse.set false s.fab.inj key
                                                        (Sparse.get false s.fab.inj key || v) } }
  | .flight f => { s with fab := { s.fab with flights := s.fab.flights ++ [f] } }
  | .laneOut n idx v _ => s.setLane n ((s.lane n).setOutBit idx v)
  | .tap key v => { s with fab := { s.fab with taps := Sparse.set false s.fab.taps key v } }
  | .istoreFix cl bp entry syn =>
    if s.fab.istoreWb.any (fun y => y.cl == cl && y.bp == bp && y.entry == entry) then s
    else { s with fab := { s.fab with istoreWb := s.fab.istoreWb ++ [⟨cl, bp, entry, syn, 0⟩] } }
  | .istoreUe j cl bp entry syn =>
    (s.setReg (fabcAt cl 0x44) (BitVec.ofNat 32 (bp + entry * 2 ^ 6 + syn * 2 ^ 16 + 2 ^ 24 + 2 ^ 31))).classOne
      j 0x380 (cl / 64) cl bp 1 0 0x01
  | .cwFix cl entry syn =>
    ((s.rewrite64 (cstoreAt cl entry)).bump (fabcAt cl 0x80) 15 0 1).setReg (fabcAt cl 0x84)
      (BitVec.ofNat 32 (entry + syn * 2 ^ 10 + 2 ^ 31))
  | .cwUe j cl entry syn =>
    (s.setReg (fabcAt cl 0x84) (BitVec.ofNat 32 (entry + syn * 2 ^ 10 + 2 ^ 24 + 2 ^ 31))).classOne
      j 0x381 (cl / 64) cl 0 2 0 0x02
  | .netFix cl entry w syn =>
    ((s.rewrite64 (slotAt cl entry w)).bump (fabcAt cl 0x100) 15 0 1).setReg (fabcAt cl 0x104)
      (BitVec.ofNat 32 (entry + w * 2 ^ 10 + syn * 2 ^ 14 + 2 ^ 31))
  | .netUe j cl entry w syn =>
    (s.setReg (fabcAt cl 0x104) (BitVec.ofNat 32 (entry + w * 2 ^ 10 + syn * 2 ^ 14 + 2 ^ 24 + 2 ^ 31))).classOne
      j 0x382 (cl / 64) cl 0 3 w 0x04
  | .mbFix bank w syn port => s.mbCorrected bank w syn port
  | .mbUe j bank w syn port =>
    let s := s.mbEccLast bank w syn port true
    s.stopFor j { s.classOneRec j 0x383 (bank / 256) (bank / 4) 0 5 (bank % 4) 0 with place := w }
  | .disarm addr => s.setFlag addr 31 false
  | .mqIssue cl q write addr pos data suppress => s.mqAllocate cl q write addr pos data suppress
  | .mqOverflow j cl q => s.classOne j 0x329 (cl / 64) cl 0 6 q 0
  | .mqTake cl q => s.setMq cl q (s.mq cl q).take
  | .mqFree cl q slot =>
    s.setMq cl q { s.mq cl q with entries := (s.mq cl q).entries.filter (fun y => y.slot != slot) }
  | .retFix cl q slot w syn =>
    (s.bump (fabcAt cl 0x280) 15 0 1).setReg (fabcAt cl 0x284)
      (BitVec.ofNat 32 (q + slot * 2 ^ 3 + w * 2 ^ 7 + syn * 2 ^ 10 + 2 ^ 31))
  | .retUe j cl q slot w syn =>
    let s := s.setReg (fabcAt cl 0x284) (BitVec.ofNat 32 (q + slot * 2 ^ 3 + w * 2 ^ 7 + syn * 2 ^ 10 + 2 ^ 24 + 2 ^ 31))
    s.stopFor j { s.classOneRec j 0x384 (cl / 64) cl 0 6 q 0 with place := slot * 8 + w }
  | .cycAdd key n => { s with fab := { s.fab with cyc := Sparse.set 0 s.fab.cyc key (Sparse.get 0 s.fab.cyc key + n) } }
  | .cycOr key n => { s with fab := { s.fab with cyc := Sparse.set 0 s.fab.cyc key (Sparse.get 0 s.fab.cyc key ||| n) } }
  | .park cl n => s.bump (fabcAt cl 0x110) 31 16 n
  | .latOver j n m e => s.latOver j n m e

/-- The effects of a position applied together. -/
def applyAll (s : State) (xs : List Effect) : State := xs.foldl applyEffect s

/-! ### Units of a position -/

/-- The unit number of BP `bp` of a cluster within a position's bookkeeping. -/
def bpUnit (cl bp : Nat) : Nat := cl * 128 + bp

/-- The unit number of a cluster's unit `u`: 0 WAU load, 1–7 the issue of WAU.op u, 8 WAU results, 9–12 the WAU ports,
13–16 static reads, 17–20 static gather writes, 21–24 static result writes, 25 MQ read, 26 MQ write, 27 WAIT, 28 return
data, 29 control store and taps, 30 router. -/
def clUnit (cl u : Nat) : Nat := cl * 128 + 64 + u

/-- A unit's effects entered for the edge, once per position. -/
def State.stage (s : State) (unit : Nat) (xs : List Effect) : State :=
  if s.fab.staged.any (fun u => u.1 == unit) then s
  else { s with fab := { s.fab with staged := s.fab.staged ++ [(unit, xs)] } }

/-- The effects of the cluster's units in the position its segment executes, by unit number. -/
def State.clusterUnits (s : State) (j seg cl : Nat) : List (Nat × List Effect) :=
  (List.range 64).map (fun bp => (bpUnit cl bp, s.bpEffects j seg cl bp)) ++
  [(clUnit cl 29, s.controlEffects j seg cl), (clUnit cl 0, s.wauLoadEffects j seg cl)] ++
  (List.range 7).map (fun i => (clUnit cl (1 + i), s.wauIssueEffects j seg cl (1 + i))) ++
  (List.range 4).map (fun b => (clUnit cl (9 + b), s.wauPortEffects j seg cl b)) ++
  (List.range 4).map (fun b => (clUnit cl (13 + b), s.staticEffects j seg cl b 1)) ++
  (List.range 4).map (fun b => (clUnit cl (17 + b), s.staticEffects j seg cl b 2)) ++
  (List.range 4).map (fun b => (clUnit cl (21 + b), s.staticEffects j seg cl b 3)) ++
  [(clUnit cl 25, s.mqIssueEffects j seg cl false), (clUnit cl 26, s.mqIssueEffects j seg cl true),
   (clUnit cl 27, s.mqWaitEffects seg cl), (clUnit cl 28, s.mqTakeEffects j seg cl),
   (clUnit cl 30, s.routerEffects j seg cl)]

/-- The units of a cluster whose segment executes a step or pads: the WAU pipeline advances in both (R148). -/
def State.unitsOf (s : State) (j seg cl : Nat) : List (Nat × List Effect) :=
  let q := s.seq seg
  (clUnit cl 8, s.wauDoneEffects cl (s.job j).e) ::
  (if q.state = .run then s.clusterUnits j seg cl else [])

/-- The position's whole list of effects: those entered by the units that have acted, and those of every other unit. -/
def State.positionEffects (s : State) (j : Nat) : List Effect :=
  (segsOf (s.job j).mask).flatMap (fun seg => (clustersOf seg).flatMap (fun cl =>
    (s.unitsOf j seg cl).flatMap (fun u =>
      match s.fab.staged.find? (fun x => x.1 == u.1) with
      | some x => x.2
      | none => u.2)))

/-- A segment of the job is among a list's keys: a cluster of the job. -/
def Job.hasCluster (j : Job) (cl : Nat) : Bool := j.mask.getLsbD (cl / 64)

/-- The words owed by the job's bound lanes in the position and missing (R301). -/
def State.missingWords (s : State) (j : Nat) : List Effect :=
  ((segsOf (s.job j).mask).filter (fun n => s.wordMissing j n)).map
    (fun n => Effect.latOver j n (s.job j).m (s.job j).e)

/-- The job's segment outputs are parked in the current design cycle (R237, R238, R240). -/
def State.parked (s : State) (j seg : Nat) : Bool :=
  let x := s.job j
  (!x.bulk && x.stage == 0) || (s.seq seg).region

/-- A lane is marked external for its job (R269): CKPT_JOB_EXT. -/
def State.external (s : State) (j n : Nat) : Bool := (s.reg64 (ckptAt j 0x20)).testBit n

/-- The job re-executes (R270). -/
def Job.reexec (j : Job) : Bool := j.prot.state == .reexec

/-- A lane carries design blocks: it is OPERATIONAL, and in fallback STEPCLK is 625 MHz or below (R296, R306). -/
def State.carriesDesign (s : State) (n : Nat) : Bool :=
  (s.lane n).state == .operational && (s.fld (laneAt n 0x40) 3 2 == 0 || decide (s.fld (PageKind.clk.at 0x40) 9 0 ≤ 500))

/-- The lanes of the job on which words are sent in the position: bound lanes in operation, but for external lanes during
re-execution (R270) and for the lanes of copy B (R277). -/
def State.sendingLanes (s : State) (j : Nat) : List Nat :=
  (segsOf (s.job j).mask).filter (fun n => s.laneBound n j && s.carriesDesign n && !((s.job j).compare && 32 ≤ n) &&
    !((s.job j).reexec && s.external j n))

/-- The design cycles in a row in which a lane was given payload, once it is given some in design cycle `m` (R271). -/
def paidIn (old : Option (Nat × Nat)) (m : Nat) : Option (Nat × Nat) :=
  match old with
  | some (a, b) => if b = m ∨ b + 1 = m then some (a, m) else some (m, m)
  | none => some (m, m)

/-- Words appended for the position on the job's sending lanes (R295): zero until the routers' bits are set. -/
def State.openWords (s : State) (j : Nat) : State :=
  (s.sendingLanes j).foldl (fun s n =>
    let l := s.lane n
    let m := (s.job j).m
    let parked := s.parked j n
    s.setLane n { l with words := l.words ++ [⟨m, (s.job j).e, 0, parked, false⟩]
                         paid := if parked then l.paid else paidIn l.paid m }) s

/-- The marks on the job's lanes that close the design block being filled (R295). -/
def State.closeBlocks (s : State) (j : Nat) : State :=
  (s.sendingLanes j).foldl (fun s n =>
    let l := s.lane n
    match l.words.reverse with
    | [] => s
    | w :: ws => s.setLane n { l with words := (({ w with close := true }) :: ws).reverse }) s

/-- Write-backs of corrected instruction-store entries of the job age by a step; within 4 steps they are made (R83). -/
def State.ageWritebacks (s : State) (j : Nat) : State :=
  let mine := fun (x : IstoreWb) => (s.job j).hasCluster x.cl
  let due := s.fab.istoreWb.filter (fun x => mine x && 3 ≤ x.age)
  let s' := due.foldl (fun s x => s.istoreWriteback x) s
  { s' with fab := { s'.fab with istoreWb := s'.fab.istoreWb.map (fun x =>
      if mine x then { x with age := x.age + 1 } else x) } }

/-- The pending write-backs of the job's instruction stores made where its sequencers stand: the maintenance port goes on within its 4
steps (R83). -/
def State.flushWritebacks (s : State) (j : Nat) : State :=
  (s.fab.istoreWb.filter (fun x => (s.job j).hasCluster x.cl)).foldl (fun s x => s.istoreWriteback x) s

/-- A lane input is in the replay log already: the first run delivered it (R265). -/
def laneLogged (log : List LogItem) (m n e : Nat) : Bool :=
  log.any (fun i => match i with
    | .laneIn m' n' e' _ _ => m' == m && n' == n && e' == e
    | _ => false)

/-- The words that the job's external lanes deliver in the position recorded in the replay log, a missing one as 0 (R265); in
re-execution those of the positions that the first run of m_f did not reach. -/
def State.logLanes (s : State) (j : Nat) : State :=
  let x := s.job j
  if x.prot.state = .off then s
  else
    let new := fun (n : Nat) => s.laneBound n j && s.external j n && !(x.reexec && laneLogged x.prot.log x.m n x.e)
    let items := ((segsOf x.mask).filter new).map (fun n =>
      match (s.lane n).due x.abs with
      | some w => LogItem.laneIn x.m n x.e w.word w.parked
      | none => LogItem.laneIn x.m n x.e 0 false)
    if items = [] then s else s.setJob j { x with prot := { x.prot with log := x.prot.log ++ items } }

/-- The edge that ends an executed position of a job: injection registers reload, every effect lands, what the position
consumed is gone, and the position's bookkeeping starts anew (R59, R119). -/
def State.edge (s : State) (j : Nat) : State :=
  let x := s.job j
  let xs := s.positionEffects j ++ s.missingWords j
  let s := (s.logLanes j).openWords j
  let s := { s with fab := { s.fab with
      inj := s.fab.inj.filter (fun e => !x.hasCluster (e.1 / 32))
      flights := s.fab.flights.filter (fun f => !(x.hasCluster f.cl && f.pos ≤ x.e))
      pipe := (s.fab.pipe.map (fun e => if x.hasCluster e.1 then
          (e.1, e.2.filter (fun o => x.e < o.pos + wauLatency o.op)) else e)).filter (fun e => e.2 != [])
      issueSeq := s.fab.issueSeq + 1
      staged := s.fab.staged.filter (fun u => !x.hasCluster (u.1 / 128)) } }
  let s := applyAll s xs
  let s := (segsOf x.mask).foldl (fun s n =>
    let l := s.lane n
    if s.laneBound n j then s.setLane n { l with elastic := l.elastic.filter (fun w => x.abs < w.due) } else s) s
  s.ageWritebacks j

end Sys2Proof.Machine
end

