-- ==== Sys2Proof/Machine/Referee.lean ====
section
/-! DEFINITION. External memory (chapter 8): the referees' decisions (R193–R199), the HBM controllers, and the completion
of requests (R184, R191). -/

namespace Sys2Proof.Machine

/-- A referee. -/
def State.ref (s : State) (n : Nat) : Referee := Sparse.get {} s.refs n

/-- The state with a referee changed. -/
def State.setRef (s : State) (n : Nat) (r : Referee) : State := { s with refs := Sparse.set {} s.refs n r }

/-- A requester's FIFO at a referee (R193). -/
def Referee.fifo (r : Referee) (q : Nat) : List RefPend := Sparse.get [] r.fifos q

/-- The referee with a requester's FIFO changed. -/
def Referee.setFifo (r : Referee) (q : Nat) (xs : List RefPend) : Referee :=
  { r with fifos := Sparse.set [] r.fifos q xs }

/-- The requesters that may lock (R193). -/
def mayLock (q : Nat) : Bool := decide (16 ≤ q) && decide (q ≤ 21)

/-- The bias of a requester: REF_PRIO × 32 for the privileged ones (R194, R200). -/
def State.bias (s : State) (n q : Nat) : Nat :=
  match q with
  | 16 => s.fld (refAt n 0x44) 2 0 * 32
  | 17 => s.fld (refAt n 0x44) 6 4 * 32
  | 18 => s.fld (refAt n 0x44) 10 8 * 32
  | 20 => s.fld (refAt n 0x44) 14 12 * 32
  | _ => 0

/-- The effective age of a pending request (R194). -/
def State.effAge (s : State) (n q : Nat) (p : RefPend) : Nat := p.age + p.boost + s.bias n q

/-- The heads a decision can rank: present before this cycle and not held for the undo log (R195, R262). -/
def Referee.heads (r : Referee) : List (Nat × RefPend) :=
  (List.range 22).filterMap (fun q => match r.fifo q with
    | p :: _ => if p.fresh || p.held then none else some (q, p)
    | [] => none)

/-- `a` outranks `b` (R194): the higher effective age, and on a tie the lower requester number. -/
def State.outranks (s : State) (n : Nat) (a b : Nat × RefPend) : Bool :=
  decide (s.effAge n b.1 b.2 < s.effAge n a.1 a.2) ||
    (s.effAge n a.1 a.2 == s.effAge n b.1 b.2 && decide (a.1 < b.1))

/-- The winner of a decision (R194). -/
def State.winner (s : State) (n : Nat) (hs : List (Nat × RefPend)) : Option (Nat × RefPend) :=
  hs.foldl (fun best h => match best with
    | none => some h
    | some b => if s.outranks n h b then some h else some b) none

/-- The grant decided in the cycle before takes effect (R195): the head joins the controller's command queue. -/
def State.refGrant (s : State) (n : Nat) : State :=
  let r := s.ref n
  match r.granted with
  | none => s
  | some q =>
    match r.fifo q with
    | [] => s.setRef n { r with granted := none }
    | p :: ps =>
      let s := s.bump (refAt n (0x100 + q * 0x10)) 31 0 1
      let s := s.peak (refAt n (0x108 + q * 0x10)) 15 0 p.waited
      s.setRef n { (r.setFifo q ps) with granted := none, ctl := r.ctl ++ [(q, p.req)], granting := 0
                                         locks := if q < 16 then r.locks else r.locks ++ [r.granting] }

/-- The heads' waiting in a cycle is counted, whatever the referee's state (R202), and the requests that arrived in it can be ranked from
the next on (R195). -/
def State.refWait (s : State) (n : Nat) : State :=
  let r := s.ref n
  let s := (List.range 22).foldl (fun s q => if r.fifo q != [] then s.bump (refAt n (0x104 + q * 0x10)) 31 0 1 else s) s
  let old := fun (p : RefPend) => { p with fresh := false }
  s.setRef n { r with fifos := r.fifos.map (fun e => (e.1, match e.2 with
    | [] => []
    | p :: ps => { old p with waited := min 65535 (p.waited + 1) } :: ps.map old)) }

/-- Every pending request ages by one cycle in ARB and LOCKED (R194). -/
def State.refAge (s : State) (n : Nat) : State :=
  let r := s.ref n
  let older := fun (p : RefPend) => { p with age := min 65535 (p.age + 1) }
  s.setRef n { r with fifos := r.fifos.map (fun e => (e.1, e.2.map older)) }

/-- A round is lost: the boost of every eligible head but the winner rises by one, up to 15 (R194). -/
def Referee.loseRound (r : Referee) (winner : Nat) : Referee :=
  { r with fifos := r.fifos.map (fun e =>
      if e.1 = winner then e else (e.1, match e.2 with
        | [] => []
        | p :: ps => (if p.fresh || p.held then p else { p with boost := min 15 (p.boost + 1) }) :: ps)) }

/-- The predicted-grant hints of the waiting heads (R196): the heads ranked above one include the winner, which in a lock another may
outrank. -/
def State.refHints (s : State) (n : Nat) (hs : List (Nat × RefPend)) (winner left : Nat) : State :=
  hs.foldl (fun s h =>
    if h.1 = winner then s
    else
      let a := (hs.filter (fun g => g.1 == winner || s.outranks n g h)).length
      s.setFld (refAt n (0x10C + h.1 * 0x10)) 7 0 (min 255 ((a + left) * s.fld (refAt n 0x40) 3 0))) s

/-- The end of a lock (R197, R198): a pending freeze or disable takes effect; where both are pending the referee is disabled, which the
spec does not say (DESIGN CHOICE, assumption 115). -/
def Referee.endLock (r : Referee) : Referee :=
  { r with left := 0, pendFreeze := false, pendDisable := false
           state := if r.pendDisable then .disabled else if r.pendFreeze then .frozen else .arb }

/-- A decision in ARB (R194–R197, R199). -/
def State.decideArb (s : State) (n : Nat) : State :=
  let r := s.ref n
  let hs := r.heads
  match s.winner n hs with
  | none => s
  | some (q, p) =>
    let lock := if mayLock q && 2 ≤ p.req.lock then min 16 p.req.lock else 1
    let r' := { r.loseRound q with granted := some q, granting := 0 }
    let r' := if 2 ≤ lock then
        { r' with state := .locked, owner := q, left := lock - 1, lockNo := r.lockNo + 1, granting := r.lockNo + 1 }
      else r'
    s.refHints n hs q (lock - 1) |>.setRef n r'

/-- A decision in LOCKED (R197, R199). Where the locker presents no head the lock ends, and the decision grants no other head and gives no
hints: the spec does not say whether it does (DESIGN CHOICE, assumption 115). -/
def State.decideLocked (s : State) (n : Nat) : State :=
  let r := s.ref n
  match r.heads.find? (fun h => h.1 == r.owner) with
  | none => (s.bump (refAt n 0x50) 15 0 1).setRef n r.endLock
  | some _ =>
    let r' := { r.loseRound r.owner with granted := some r.owner, granting := r.lockNo, left := r.left - 1 }
    let s := s.refHints n r.heads r.owner (r.left - 1)
    s.setRef n (if r.left ≤ 1 then r'.endLock else r')

/-- One HUBCLK cycle of a referee (R195, R199): last cycle's grant takes effect, a decision is made unless the
controller's queue is full, and ages advance. A frozen or disabled referee makes no decision. -/
def State.refereeCycle (s : State) (n : Nat) : State :=
  let st := (s.ref n).state
  let s := s.refGrant n
  match st with
  | .arb => ((if (s.ref n).ctl.length < 16 then s.decideArb n else s).refAge n).refWait n
  | .locked => ((if (s.ref n).ctl.length < 16 then s.decideLocked n else s).refAge n).refWait n
  | _ => s.refWait n

/-- A resume by run control (R199): a frozen referee arbitrates again, and a freeze that waits for a lock's end is off. -/
def State.refResume (s : State) (n : Nat) : State :=
  let r := s.ref n
  match r.state with
  | .frozen => s.setRef n { r with state := .arb }
  | .locked => s.setRef n { r with pendFreeze := false }
  | _ => s

/-- PG_CTL.enable set or cleared, or a freeze by run control (R198, R199). A frozen referee whose enable is cleared is disabled, which the
table of R199 leaves open (DESIGN CHOICE, assumption 88). -/
def State.refControl (s : State) (n : Nat) (want : RefState) : State :=
  let r := s.ref n
  match want, r.state with
  | .arb, .disabled => s.setRef n { r with state := .arb, pendDisable := false }
  | .arb, .locked => s.setRef n { r with pendDisable := false }
  | .disabled, .locked => s.setRef n { r with pendDisable := true }
  | .disabled, _ => s.setRef n { r with state := .disabled }
  | .frozen, .arb => s.setRef n { r with state := .frozen }
  | .frozen, .locked => s.setRef n { r with pendFreeze := true }
  | _, _ => s

/-- A request withdrawn by its requester (R195): free before its grant is decided; after it the next cycle is dead, and a
lock it belongs to ends (R197). A cluster queue's request that is withdrawn leaves the FIFO, its entry stays as it is and is not presented
again: the spec does not say what becomes of it (DESIGN CHOICE, assumption 114). -/
def State.refWithdraw (s : State) (n q : Nat) : State :=
  let r := s.ref n
  match r.fifo q with
  | [] => s
  | _ :: ps =>
    if r.granted = some q then
      let r' := { r.setFifo q ps with granted := none }
      let r' := if r.state = .locked && r.owner = q then r'.endLock else r'
      (s.bump (refAt n 0x4C) 31 0 1).setRef n r'
    else s.setRef n (r.setFifo q ps)

/-! ### The HBM controllers (R174–R178, R191) -/

/-- A pseudo-channel is in service (R177): HBMC_PC_OK. -/
def State.pcOk (s : State) (n : Nat) : Bool := s.flag (hbmcAt (n / 32) 0x44) (n % 32)

/-- The window of an octant is available: all of its 16 pseudo-channels are in service (R177, R179). -/
def State.octantOk (s : State) (o : Nat) : Bool := (List.range 16).all (fun j => s.pcOk (o + 8 * j))

/-- 64 bytes of a pseudo-channel at an offset. -/
def State.hbmRead (s : State) (n offset len : Nat) : List Byte :=
  (List.range len).map (fun i => Sparse.get 0 s.hbm (hbmAddr n (offset + i)))

/-- Bytes written to a pseudo-channel at an offset. -/
def State.hbmWrite (s : State) (n offset : Nat) (bs : List Byte) : State :=
  { s with hbm := (bs.foldl (fun acc b => (Sparse.set 0 acc.1 (hbmAddr n acc.2) b, acc.2 + 1)) (s.hbm, offset)).1 }

/-- An uncorrected HBM error recorded by the controller (R191, R203). -/
def State.hbmUe (s : State) (n offset : Nat) : State :=
  (s.bump (hbmcAt (n / 32) 0x50) 15 0 1).setReg (hbmcAt (n / 32) 0x54)
    (BitVec.ofNat 32 (n % 32 + offset / 64 % 2 ^ 24 * 2 ^ 5 + 2 ^ 31))

/-- The package cluster of a queue key. -/
def keyCluster (key : Nat) : Nat := key / 8

/-- The entry that holds a tag (R183). -/
def State.tagEntry (s : State) (tag : Nat) : Option (Nat × MqEntry) :=
  (s.groupEntries (tag / 512)).find? (fun e => e.2.state == .out tag)

/-- The pseudo-channel and offset of a queue entry (R179). -/
def entryPlace (key : Nat) (x : MqEntry) : Nat × Nat :=
  (windowPc (octantOf (keyCluster key / 64)) x.addr, windowOffset x.addr)

/-- No older request of the same cluster group to the same pseudo-channel is outstanding: the order of R184. -/
def State.inOrder (s : State) (key : Nat) (x : MqEntry) (later : MqEntry → Bool) : Bool :=
  !(s.groupEntries (key / 256)).any (fun e =>
    (entryPlace e.1 e.2).1 == (entryPlace key x).1 && decide (e.2.seqNo < x.seqNo) && later e.2)

/-- A queue request completes (R184, R191): a read's words enter the return buffer, a write is performed unless staged
release suppresses it (R238), and the tag is freed. -/
def State.mqComplete (s : State) (key : Nat) (x : MqEntry) (result : ReqStatus) : State :=
  let p := entryPlace key x
  let cl := keyCluster key
  let bad := result != .ok
  let s := if result = .hbmUe then s.hbmUe p.1 p.2 else s
  let s :=
    if !x.write || x.suppress then s
    else if result = .ok then s.hbmWrite p.1 p.2 x.data
    else if result = .hbmUe then { s.hbmWrite p.1 p.2 (freeBytes s.free 64) with free := s.free + 1 }
    else s
  let words : List StoredWord :=
    if x.write then []
    else if bad then (List.range 8).map (fun _ => secded72 0)
    else (List.range 8).map (fun i => secded72 (BitVec.ofNat 64 (leNat (s.hbmRead p.1 (p.2 + 8 * i) 8))))
  let q := s.mq cl (key % 8)
  let s := s.setMq cl (key % 8) (q.mapSlot x.slot (fun y => { y with state := .complete, ue := bad, buf := words }))
  if result = .hbmUe then
    match s.jobOfSeg (cl / 64) with
    | some j => s.stopFor j { s.classOneRec j 0x385 (cl / 64) cl 0 6 (key % 8) 0 with extra := [BitVec.ofNat 32 (pcOf p.2)] }
    | none => s
  else s

end Sys2Proof.Machine
end

