-- ==== Sys2Proof/Machine/Pins.lean ====
section
/-! DEFINITION. Pins and the crossbar: signals and their directions (R487–R493), pad levels, and the levels of the design
ports (R496, R497). -/

namespace Sys2Proof.Machine

/-- BAR0 offset of a GPIO register. -/
def gpioAt (off : Nat) : Nat := PageKind.gpio.at off

/-- BAR0 offset of GPIO_XBAR_PIN_p (R499). -/
def xbarAt (p : Nat) : Nat := PageKind.xbar.at (0x40 + 4 * p)

/-- BAR0 offset of DEV_WHISTLE. -/
def whistleReg : Nat := PageKind.dev.at 0xA00

/-- Directions of a pin's source. -/
inductive SigDir where
  | input | output | both
  deriving DecidableEq, Repr

/-- The direction of a peripheral signal (R488). -/
def signalDir (n : Nat) : SigDir :=
  if n ≤ 16 then (if (n - 1) % 4 % 2 = 0 then .output else .input)
  else if n ≤ 44 then (if (n - 17) % 7 = 2 then .input else .output)
  else if n ≤ 52 then .both
  else if n ≤ 60 then .output
  else if n ≤ 68 then .input
  else if n ≤ 136 then .output
  else if n ≤ 140 then .input
  else if n = 142 ∨ n = 144 then .input
  else if 154 ≤ n ∧ n ≤ 157 then .input
  else if n = 158 ∨ n = 159 then .both
  else .output

/-- What an input signal with no pin reads (R488). -/
def unconnected (n : Nat) : Bool := n ≤ 16 && (n - 1) % 4 == 1 || 45 ≤ n && n ≤ 52 || n == 158 || n == 159

/-- A pin carries its signal: a fixed pin always, every other one while PD78 is on (R493, R500). -/
def State.pinPowered (s : State) (p : Nat) : Bool := s.domainOn 78 || decide (92 ≤ p)

/-- The pin that a signal is connected to: the lowest, of which an input signal has at most one (R489). -/
def State.pinOf (s : State) (sig : Nat) : Option Nat :=
  (List.range 96).find? (fun p => s.fld (xbarAt p) 7 0 == sig && s.pinPowered p)

/-- The level the board puts on a pad: a value from outside, free at each sample (assumption 12). -/
def State.boardLevel (s : State) (p : Nat) : Bool := Config.freeBit (s.free * 96 + p)

/-- The level that a pad or signal keeps from before a change of source, by the key of `Pins.swap`: for two MGTCLK cycles (R492). The
model keeps no time of MGTCLK, so whether they are over is free (assumption 105). -/
def State.swapHeld (s : State) (key : Nat) : Option Bool :=
  match s.pins.swap.find? (fun x => x.1 == key) with
  | some x => if Config.freeBit (s.free * 256 + key) then some x.2.1 else none
  | none => none

/-- The level of an input signal: its pad's, or, after the value that it held when it lost its pin, R488's where no pin carries it (R489,
R492). -/
def State.inputLevel (s : State) (sig : Nat) : Bool :=
  match s.pinOf sig with
  | some p => s.boardLevel p
  | none => (s.swapHeld (96 + sig)).getD (unconnected sig)

/-- Design-port bit `q` drives its source's level and no park value (R497). -/
def State.dpDriven (s : State) (q : Nat) : Bool :=
  let cfg := gpioAt (0x100 + 4 * (q / 4))
  s.flag cfg 8 && (s.job (s.fld cfg 5 0)).live && s.pins.driven.getLsbD q

/-- The level that design-port bit `q` drives (R496, R497): its source's, or its park value. -/
def State.dpLevel (s : State) (q : Nat) : Bool :=
  let cfg := gpioAt (0x100 + 4 * (q / 4))
  if s.dpDriven q then s.pins.samples.getLsbD q
  else match s.fld cfg 10 9 with
    | 1 => false
    | 2 => true
    | _ => s.pins.samples.getLsbD q

/-- The level of DP_CLKj (R497). -/
def State.dpClkLevel (s : State) (j : Nat) : Bool :=
  let cfg := gpioAt (0x300 + 4 * j)
  s.flag cfg 8 && (s.job (s.fld cfg 5 0)).live && s.pins.dpClk.getLsbD j

/-- DEV_BOOT.stage is RECOVERY (R428). -/
def State.recovery (s : State) : Bool := s.fld (PageKind.dev.at 0x44) 1 0 == 2

/-! ### Peripheral controllers (R494) -/

/-- The registers of controller `i`, by offset in its 4 KiB of the window. -/
def State.periphWords (s : State) (i : Nat) : List (Nat × Word) :=
  (Sparse.range s.periph.words (i * 0x1000) ((i + 1) * 0x1000)).map (fun e => (e.1 - i * 0x1000, e.2))

/-- A core's store to its peripheral window (R494): the register takes the word; a byte for a UART joins its FIFO of 64, from which some
bytes have gone out since (a free number: the model keeps no time, assumption 98). The registers' places are not in the spec. -/
def State.periphStore (s : State) (addr : Nat) (v : Word) : State :=
  let off := (addr - 0x40000000) / 4 * 4
  let u := off / 0x1000
  if addr < 0x40000000 ∨ 0x4000E000 ≤ addr then s
  else
    let p := { s.periph with words := Sparse.set 0 s.periph.words off v }
    if u < 4 ∧ Config.uartTx (off % 0x1000) then
      let old := (Sparse.get [] p.tx u).drop (Config.freeNat s.free)
      { s with free := s.free + 1
               periph := { p with tx := Sparse.set [] p.tx u (if old.length < 64 then old ++ [BitVec.ofNat 8 v.toNat] else old) } }
    else { s with periph := p }

/-- The level of PWMn (R494): low for no duty, high for a duty of the whole period, between them by a phase that is free. -/
def State.pwmLevel (s : State) (n : Nat) : Bool :=
  let t := Config.pwmTiming n (s.periphWords 12)
  if t.2 = 0 then false else if t.1 ≤ t.2 then true else Config.freeBit (s.free * 96 + 53 + n)

/-- The level of an output signal; one that the model keeps no level of is free (R488). A UART's TX is high while it has nothing to send
(R494). -/
def State.outputLevel (s : State) (sig : Nat) : Bool :=
  if 69 ≤ sig ∧ sig ≤ 132 then s.dpLevel (sig - 69)
  else if 53 ≤ sig ∧ sig ≤ 60 then s.pwmLevel (sig - 53)
  else if sig ≤ 16 ∧ (sig - 1) % 4 = 0 ∧ Sparse.get [] s.periph.tx ((sig - 1) / 4) = [] then true
  else if 133 ≤ sig ∧ sig ≤ 136 then s.dpClkLevel (sig - 133)
  else if sig = 143 then s.flag whistleReg 0
  else if 146 ≤ sig ∧ sig ≤ 153 then s.time.high.getLsbD (sig - 146)
  else if sig = 160 then !(s.flag whistleReg 0 || s.recovery)
  else Config.freeBit (s.free * 96 + sig)

/-- A pin carries a level of the package (R487, R492). -/
def State.pinDriven (s : State) (p : Nat) : Bool :=
  let sel := s.fld (xbarAt p) 7 0
  s.pinPowered p && if sel = 0 then s.flag (gpioAt (0x90 + 4 * (p / 32))) (p % 32) else signalDir sel == .output

/-- The level that a pin's source gives its pad (R487). -/
def State.padSource (s : State) (p : Nat) : Bool :=
  let sel := s.fld (xbarAt p) 7 0
  if !s.pinDriven p then s.boardLevel p
  else if sel = 0 then s.flag (gpioAt (0x50 + 4 * (p / 32))) (p % 32)
  else s.outputLevel sel

/-- The level at a pad: its source's (R487), after the level it keeps at a change of source (R492), or the level held while the GPIO block
is frozen (R469). -/
def State.padLevel (s : State) (p : Nat) : Bool :=
  if !s.pinPowered p then s.boardLevel p
  else if (s.page 4).frozen then
    match s.pins.hold with
    | some h => if h.1.getLsbD p then h.2.getLsbD p else s.boardLevel p
    | none => s.padSource p
  else (s.swapHeld p).getD (s.padSource p)

/-- A change of a pin's source from `old` (R492): the pad keeps its level, and an input signal that has lost its pin its last value. -/
def State.swapSource (s : State) (p : Nat) (old : Word) : State :=
  let from_ := natBits old.toNat 7 0
  let before := s.setReg (xbarAt p) old
  if from_ = s.fld (xbarAt p) 7 0 then s
  else
    let pad := if before.pinDriven p || s.pinDriven p then [(p, before.padLevel p, false)] else []
    let sig := if from_ ≠ 0 ∧ signalDir from_ ≠ .output then [(96 + from_, before.inputLevel from_, false)] else []
    let rest := s.pins.swap.filter (fun x => x.1 != p && x.1 != 96 + from_)
    { s with pins := { s.pins with swap := rest ++ pad ++ sig }, free := s.free + 1 }

/-- TIMEREF counts 6.4 ns, more than two MGTCLK cycles (R492): what a change of source held is over with the second tick after it. -/
def State.swapTick (s : State) : State :=
  { s with pins := { s.pins with swap := (s.pins.swap.filter (fun x => !x.2.2)).map (fun x => (x.1, x.2.1, true)) } }

end Sys2Proof.Machine
end

