-- ==== Sys2Proof/Machine/Trace.lean ====
section
/-! DEFINITION. The trace encoder (R477–R483): packets, the FIFO and its sinks, and the trace rows. -/

namespace Sys2Proof.Machine

/-- BAR0 offset of a TRACE register. -/
def traceAt (off : Nat) : Nat := PageKind.trace.at off

/-- TRACE_STAT.state: 0 IDLE, 1 RUN, 2 POST, 3 STOPPED (R482). -/
def State.traceState (s : State) : Nat := s.fld (traceAt 0x68) 1 0

/-- Trace is running: RUN or POST (R482). -/
def State.tracing (s : State) : Bool := s.traceState == 1 || s.traceState == 2

/-- A head unit (R478). -/
def traceHead (kind n fields : Nat) : BitVec 16 := BitVec.ofNat 16 (kind * 2 ^ 13 + n * 2 ^ 10 + fields)

/-- The 16-bit units of a value, most significant first (R478). -/
def traceUnits : Nat → Nat → List (BitVec 16)
  | 0, _ => []
  | n + 1, v => traceUnits n (v / 65536) ++ [BitVec.ofNat 16 v]

/-- TRACE_CFG.cycles. -/
def State.traceCycles (s : State) : Bool := s.flag (traceAt 0x44) 2

/-- The cycle delta that a packet written now carries, where deltas are on (R478). -/
def State.traceDelta (s : State) : List (BitVec 16) :=
  if s.traceCycles then [BitVec.ofNat 16 (min 65535 s.trace.cycles)] else []

/-- A packet written into the 8 KiB FIFO; one that does not fit is dropped whole and its units counted (R481). -/
def State.tracePut (s : State) (us : List (BitVec 16)) : State :=
  let t := s.trace
  if t.fifo.length + us.length ≤ 4096 then
    { s with trace := { t with fifo := t.fifo ++ us, bytes := t.bytes + 2 * us.length } }
  else { s with trace := { t with lost := t.lost + us.length } }

/-- A packet that carries the delta written now: the count of cycles starts anew (R478). -/
def State.tracePacket (s : State) (us : List (BitVec 16)) : State :=
  let s' := s.tracePut us
  if s.traceCycles then { s' with trace := { s'.trace with cycles := 0 } } else s'

/-- A SYNC packet (R478), and `fills` FILL units before it. -/
def State.traceSyncAfter (s : State) (fills : Nat) (pc : Word) (mode : Nat) : State :=
  let s := s.tracePut (List.replicate fills 0 ++ [0xFED5] ++ traceUnits 2 pc.toNat ++ [BitVec.ofNat 16 (mode % 4)] ++
    traceUnits 4 s.flat)
  { s with trace := { s.trace with bytes := 0, last := pc.toNat, idle := 0 } }

/-- 8 FILL units and a SYNC packet (R478, R479). -/
def State.traceSync (s : State) (pc : Word) (mode : Nat) : State := s.traceSyncAfter 8 pc mode

/-- Before a packet after 8 FILL units or more that the sink sent of itself: a SYNC packet (R479). -/
def State.traceResync (s : State) (pc : Word) (mode : Nat) : State := if 8 ≤ s.trace.idle then s.traceSyncAfter 0 pc mode else s

/-- The same for a packet that no instruction calls for: the user core stands where it stands. -/
def State.traceResyncHere (s : State) : State := s.traceResync s.dbg.core.pc s.dbg.core.mode

/-- The open BRANCH packet closed and written (R478). -/
def State.traceClose (s : State) : State :=
  match s.trace.branch with
  | [] => s
  | os =>
    let bits := os.foldr (fun b a => boolNat b + 2 * a) 0
    let d := s.traceDelta
    let s := s.tracePacket (traceHead 1 d.length (os.length * 2 ^ 7 + bits) :: d)
    { s with trace := { s.trace with branch := [] } }

/-- A TARGET packet: relative where the offset fits one unit, else absolute (R478). -/
def State.traceTarget (s : State) (addr : Word) : State :=
  let s := s.traceClose
  let off : Int := ((addr.toNat : Int) - s.trace.last) / 2
  let d := s.traceDelta
  let c := boolNat s.traceCycles * 2 ^ 8
  let us :=
    if -32768 ≤ off ∧ off < 32768 then traceHead 2 (1 + d.length) (2 ^ 9 + c) :: BitVec.ofInt 16 off :: d
    else traceHead 2 (2 + d.length) c :: traceUnits 2 addr.toNat ++ d
  let s := s.tracePacket us
  { s with trace := { s.trace with last := addr.toNat } }

/-- A MARK packet of a source: 0 debug event, 1 TRIG_IN, 2 register (R478). -/
def State.traceMark (s : State) (source : Nat) : State :=
  let s := s.traceResyncHere.traceClose
  let d := s.traceDelta
  s.tracePacket (traceHead 5 d.length (source * 2 ^ 8 + boolNat s.traceCycles * 2 ^ 7) :: d)

/-- Units sent to the selected sink (R483). A ring sink wraps; a buffer with wrap = 0 takes no more than it holds. -/
def State.traceSend (s : State) (us : List (BitVec 16)) : State :=
  let sink := s.fld (traceAt 0x44) 5 4
  if sink < 2 then { s with trace := { s.trace with sent := s.trace.sent ++ us } }
  else
    let size := if sink = 2 then 4194304 else s.fld (traceAt 0x64) 15 0 * 1048576
    let base := s.reg64 (traceAt 0x5C)
    us.foldl (fun s u =>
      let p := (s.reg (traceAt 0x6C)).toNat
      if size ≤ p ∧ !s.flag (traceAt 0x44) 6 then s
      else
        let at_ := if size = 0 then 0 else p % size
        let s := if sink = 2 then { s with trace := { s.trace with buf := Sparse.putBytes s.trace.buf at_ (leBytes 2 u.toNat) } }
          else { s with hbm := Sparse.putBytes s.hbm (base + at_) (leBytes 2 u.toNat) }
        let next := at_ + 2
        s.setReg (traceAt 0x6C) (BitVec.ofNat 32 (if s.flag (traceAt 0x44) 6 && next == size then 0 else next))) s

/-- FILL units that a parallel-port or serial-lane sink sends of itself while the FIFO is empty (R479). -/
def State.traceFill (s : State) (n : Nat) : State :=
  if s.fld (traceAt 0x44) 5 4 < 2 ∧ 0 < n then
    let s := s.traceSend (List.replicate n 0)
    { s with trace := { s.trace with idle := s.trace.idle + n } }
  else s

/-- The FIFO drained by `n` units; a STATE LOSS packet follows as soon as two units are free, and a SYNC (R479, R481). What a sink of a
fixed rate takes beyond the FIFO's units are FILL units. -/
def State.traceDrain (s : State) (n : Nat) (pc : Word) (mode : Nat) : State :=
  let us := s.trace.fifo.take n
  let s := { s with trace := { s.trace with fifo := s.trace.fifo.drop n, idle := if us = [] then s.trace.idle else 0 } }
  let s := (s.traceSend us).traceFill (n - us.length)
  if 0 < s.trace.lost ∧ s.trace.fifo.length + 2 ≤ 4096 then
    let l := min 65535 s.trace.lost
    let s := { s with trace := { s.trace with lost := 0 } }
    ((s.tracePut [traceHead 6 1 0, BitVec.ofNat 16 l]).bump (traceAt 0x68) 31 16 1).traceSync pc mode
  else s

/-- Units that the selected sink takes in a number of MGTCLK cycles: the parallel port and the serial lane at their rates,
the others as far as the spec gives no rate, a free number (R483). -/
def State.traceRate (s : State) (cycles : Nat) : Nat :=
  match s.fld (traceAt 0x44) 5 4 with
  | 0 => cycles / (s.fld (traceAt 0x50) 7 0 + 1)
  | 1 => cycles * 375 / 176
  | _ => Config.freeNat s.free

/-- The whole FIFO drained (R480, R482). -/
def State.traceFlush (s : State) : State :=
  let us := s.trace.fifo
  { s with trace := { s.trace with fifo := [], idle := if us = [] then s.trace.idle else 0 } }.traceSend us

/-- The user core's clock stops after `cycles` more cycles (R480): the open BRANCH packet and a STATE SLEEP packet written and the FIFO
drained. -/
def State.ucSleep (s : State) (cycles : Nat) : State :=
  let s := s.setFlag (PageKind.dbg.at 0x44) 4 true
  if s.tracing then
    let s := s.traceResyncHere.traceClose
    let d := BitVec.ofNat 16 (min 65535 (s.trace.cycles + cycles))
    let s := s.tracePut [traceHead 6 1 (2 ^ 8), d]
    { s with trace := { s.trace with cycles := 0, asleep := true } }.traceFlush
  else { s with trace := { s.trace with asleep := true } }

/-- The user core wakes (R479, R480): a STATE WAKE packet, FILL units and a SYNC. How many FILL units a sink sent meanwhile is free. -/
def State.ucWake (s : State) (pc : Word) (mode : Nat) : State :=
  let s := { s.setFlag (PageKind.dbg.at 0x44) 4 false with trace := { s.trace with asleep := false } }
  if s.tracing then
    let s := ({ s with free := s.free + 1 }.traceFill (Config.freeNat s.free)).traceResync pc mode
    let s := s.tracePut ([traceHead 6 5 (2 * 2 ^ 8)] ++ traceUnits 4 s.flat ++ [BitVec.ofNat 16 (s.time.now.frac / 65536)])
    s.traceSync pc mode
  else s

/-- Trace stopped: the FIFO drained, STOPPED entered (R482). -/
def State.traceHalt (s : State) : State := (s.traceClose.traceFlush).setFld (traceAt 0x68) 1 0 3

/-- A trigger from a source (R482): a MARK packet, and with TRACE_STOP.en the window count loaded. -/
def State.traceTriggered (s : State) (source : Nat) : State :=
  if s.traceState = 1 then
    let s := s.traceMark source
    if s.flag (traceAt 0x48) 31 then
      { s.setFld (traceAt 0x68) 1 0 2 with trace := { s.trace with window := s.fld (traceAt 0x48) 23 0 } }
    else s
  else s

/-- The HBM range of sink 3 lies outside every window allocation and every firmware allocation (R483): windows take
128 MiB of physical address for each 16 MiB unit (R179). -/
def State.traceRangeOk (s : State) : Bool :=
  let base := s.reg64 (traceAt 0x5C)
  let len := s.fld (traceAt 0x64) 15 0 * 1048576
  let clash := fun (b n : Nat) => decide (b < base + len) && decide (base < b + n)
  base % 4096 == 0 && decide (16777216 ≤ len) && decide (len ≤ 4294967296) && decide (base + len ≤ 0x1800000000) &&
  !s.allocs.any (fun a => clash a.base a.len) &&
  !s.jobs.any (fun e => (e.2.windows ++ e.2.reserve).any (fun w => clash (w.2.1 * 134217728) (w.2.2 * 134217728)))

/-- TRACE_START (R482): the sink opened, FILL units and a SYNC; a start whose HBM range is not free is refused with
TRACE_REGION (R483). -/
def State.traceBegin (s : State) (rq : Requester) : State :=
  if s.traceState = 0 ∨ s.traceState = 3 then
    if s.fld (traceAt 0x44) 5 4 = 3 && !s.traceRangeOk then s.pgErr 0xB 0x01A2 rq 0x40
    else
      let pc := s.dbg.core.pc
      let mode := s.dbg.core.mode
      let s := { s with trace := { buf := s.trace.buf, asleep := s.trace.asleep, sent := s.trace.sent } }
      ((s.setReg (traceAt 0x6C) 0).setFld (traceAt 0x68) 1 0 1).traceSync pc mode
  else s

end Sys2Proof.Machine
end

