-- ==== Sys2Proof/Machine/Hub.lean ====
section
/-! DEFINITION. What the rows of the hub and of Theham share: buffers and completions (R433–R437), the jobs' standing, halts
(R105), the whistle (R374), the package halt (R466), debug events (R470, R471), the scoreboard's words (R456), and HBM outside
the windows. -/

namespace Sys2Proof.Machine

/-! ### Callers, buffers and completions -/

/-- The PCIe function whose rights a caller has (R407, R420, R435). -/
def State.callerFn (s : State) (r : Ring) : Nat :=
  match r with
  | .host fn => fn
  | .agent => s.theham.agentFn
  | .bmc => 0

/-- A caller has VF rights. -/
def State.callerIsVf (s : State) (r : Ring) : Bool := s.callerFn r != 0

/-- Bytes of a buffer that a command names: host memory, the shared window or the transfer window (R435, R438). -/
def State.bufRead (s : State) (r : Ring) (addr n : Nat) : List Byte :=
  match r with
  | .host _ => s.hostMem.bytes addr n
  | .agent => s.theham.shared.bytes addr n
  | .bmc => s.theham.bmcWin.bytes addr n

/-- Bytes written to a buffer that a command names. -/
def State.bufWrite (s : State) (r : Ring) (addr : Nat) (bs : List Byte) : State :=
  match r with
  | .host _ => { s with hostMem := s.hostMem.putBytes addr bs }
  | .agent => { s with theham := { s.theham with shared := s.theham.shared.putBytes addr bs } }
  | .bmc => { s with theham := { s.theham with bmcWin := s.theham.bmcWin.putBytes addr bs } }

/-- A list of bytes cut or filled with zeros to `n`. -/
def padTo (n : Nat) (bs : List Byte) : List Byte := bs.take n ++ List.replicate (n - bs.length) 0

/-- The 64 bytes of a completion (R437). -/
def completionBytes (op status : Nat) (c : Call) (detail : Nat) (result : List Byte) (phase : Nat) : List Byte :=
  leBytes 2 op ++ leBytes 2 status ++ leBytes 4 c.tag.toNat ++ leBytes 4 c.index ++ leBytes 4 detail ++ padTo 40 result ++
    List.replicate 7 0 ++ leBytes 1 phase

/-- The completion event of a function (R433). -/
def State.completionEvent (s : State) (c : Call) : State :=
  if c.irq then
    let src := 352 + s.callerFn c.ring
    s.event src (Config.irqCode (src * 32)).toNat 0xFF []
  else s

/-- A completion written to its ring (R433, R435, R495). The completion of a function whose ring is not enabled, or was reset since,
is discarded, its event still raised (R443). -/
def State.complete (s : State) (c : Call) (op status detail : Nat) (result : List Byte) : State :=
  match c.ring with
  | .host fn =>
    if s.flag (mboxAt fn 0x50) 0 && !c.lost then
      let n := (s.reg (mboxAt fn 0x58)).toNat
      let size := 2 ^ s.fld (mboxAt fn 0x50) 11 8
      let bs := completionBytes op status c detail result (1 - n / size % 2)
      let s := { s with hostMem := s.hostMem.putBytes (s.reg64 (mboxAt fn 0x48) + 64 * (n % size)) bs }
      (s.setReg (mboxAt fn 0x58) (BitVec.ofNat 32 (n + 1))).completionEvent c
    else s.completionEvent c
  | .agent =>
    let t := s.theham
    let n := t.written.toNat
    let bs := completionBytes op status c detail result (1 - n / 64 % 2)
    let sh := (t.shared.putBytes (0x1000 + 64 * (n % 64)) bs).putBytes 0x200C (leBytes 4 (n + 1))
    let s := { s with theham := { t with shared := sh, written := t.written + 1 } }
    (s.ucInterrupt 512 0).completionEvent c
  | .bmc =>
    let t := s.theham
    let bs := completionBytes op status c detail result (1 - t.bmcSent % 2)
    let s := { s with theham := { t with bmcCpl := bs, bmcBusy := false, bmcValid := true, bmcSent := t.bmcSent + 1 } }
    if t.bmcIbiEn then s.emit .bmcIbi else s

/-- A completion without detail or result. -/
def State.reply (s : State) (c : Call) (op status : Nat) : State := s.complete c op status 0 []

/-- A command that waits for a later event (R441). -/
def State.await (s : State) (w : Waiting) : State := { s with theham := { s.theham with waiting := s.theham.waiting ++ [w] } }

/-- The waiting commands that a test picks complete, in the order they were taken. -/
def State.finish (s : State) (pick : Waiting → Bool) (status : Nat) (detail : Nat) (result : Waiting → List Byte) : State :=
  let done := s.theham.waiting.filter pick
  let s := { s with theham := { s.theham with waiting := s.theham.waiting.filter (fun w => !pick w) } }
  done.foldl (fun s w => s.complete w.call w.op status detail (result w)) s

/-- The waiting commands of a job with an opcode complete. -/
def State.finishJob (s : State) (j op status : Nat) (result : List Byte) : State :=
  s.finish (fun w => w.op == op && w.job == j) status 0 (fun _ => result)

/-- Bytes written to a command's buffer, then its completion; HOST_DMA_ERR where the buffer cannot be reached (R438). -/
def State.answer (s : State) (c : Call) (op addr : Nat) (bs : List Byte) (detail : Nat) (result : List Byte) : State :=
  if c.dmaOk then (s.bufWrite c.ring addr bs).complete c op 0 detail result else s.reply c op 0x0014

/-! ### The scoreboard's words (R424, R456) -/

/-- A scoreboard word raised by `n`, saturating (R424). -/
def State.scoreAdd (s : State) (i n : Nat) : State :=
  let v := satAdd 0xFFFFFFFF (Sparse.get 0 s.theham.score i) n
  { s with theham := { s.theham with score := Sparse.set 0 s.theham.score i v } }

/-! ### Jobs -/

/-- Some job is STARTING, ACTIVE or RELOADING. -/
def State.anyLive (s : State) : Bool := s.jobs.any (fun e => e.2.live)

/-- Every segment of a job stands halted, stopped or idle. -/
def State.standing (s : State) (j : Nat) : Bool :=
  (segsOf (s.job j).mask).all (fun g => [SeqState.halted, .stopped, .idle].contains (s.seq g).state)

/-- Some segment of a job is STOPPED before its boundary (R108). -/
def State.stopped (s : State) (j : Nat) : Bool := (segsOf (s.job j).mask).any (fun g => (s.seq g).state == .stopped)

/-- The sequencers of a job changed. -/
def State.mapSeqs (s : State) (j : Nat) (f : Seq → Seq) : State :=
  (segsOf (s.job j).mask).foldl (fun s g => s.setSeq g (f (s.seq g))) s

/-- The reason for a halt that stands when a further one comes: the package halt and the whistle replace none (R467), none
replaces a stop (R242), and a fault's halt, which ends with its rollback, replaces none that ends by run control alone (R26). -/
def mergeHalt (old : Option HaltWhy) (new : HaltWhy) : Option HaltWhy :=
  match old, new with
  | some .stop, _ => some .stop
  | some o, .pkg => some o
  | some o, .whistle => some o
  | some o, .fault => some o
  | _, n => some n

/-- The firmware cores run: they are in reset while the hub system PLL is out of lock (R26). -/
def State.fwUp (s : State) : Bool := s.flag (PageKind.clk.at 0x44) 4

/-- A halt request reaches a job (R105): a job that stands keeps standing, for the further reason too. -/
def State.requestHalt (s : State) (j : Nat) (why : HaltWhy) : State :=
  let x := s.job j
  if x.live then
    if x.haltedBy.isSome then s.setJob j { x with haltedBy := mergeHalt x.haltedBy why }
    else s.setJob j { x with haltReq := mergeHalt x.haltReq why }
  else s

/-! ### Debug events and monitor mode (R470, R471) -/

/-- BAR0 offset of a DBG register. -/
def dbgAt (off : Nat) : Nat := PageKind.dbg.at off

/-- The user core is in monitor mode: DBG_STAT.uc_monitor. -/
def State.inMonitor (s : State) : Bool := s.flag (dbgAt 0x44) 3

/-- A debug event is taken and not ignored: monitor mode is enabled and the core is not in it (R470). -/
def State.takesDebugEvent (s : State) : Bool := s.fld (dbgAt 0x50) 31 2 != 0 && !s.inMonitor

/-- Monitor entry: pc, mode and cause saved and mirrored, machine mode entered at DBG_VEC; a trace trigger on debug events (R471, R482),
whose own event finds the core in monitor mode (R470). -/
def State.monitorEnter (s : State) (cause index : Nat) (pc : Word) (mode : Nat) : State :=
  let s := s.setReg (dbgAt 0x5C) pc
  let s := s.setReg (dbgAt 0x60) (BitVec.ofNat 32 (cause % 16 + index % 4 * 2 ^ 4 + mode % 4 * 2 ^ 8))
  let s := s.setFlag (dbgAt 0x44) 3 true
  let s := s.setCore { s.dbg.core with pc := s.reg (dbgAt 0x50) &&& 0xFFFFFFFC, mode := 3 }
  if s.flag (traceAt 0x4C) 0 then
    let s := s.traceTriggered 0
    if s.flag (traceAt 0x4C) 3 then s.bump (dbgAt 0x64) 15 0 1 else s
  else s

/-! ### Freezing and the package halt (R466, R469) -/

/-- The pages whose PG_CAP.freeze_capable is 1 (R469): REF, DISP, SCRUB and GPIO. -/
def freezePages : List Nat := (List.range 128).map (0x20 + ·) ++ (List.range 16).map (0x100 + ·) ++ [0x130, 4]

/-- The GPIO block frozen (R469): every pin that carries a level of the package holds it. -/
def State.holdPins (s : State) : State :=
  let mask := fun (f : Nat → Bool) => BitVec.ofNat 96 ((List.range 96).foldl (fun a p => a + boolNat (f p) * 2 ^ p) 0)
  { s with pins := { s.pins with hold := some (mask s.pinDriven, mask s.padLevel) }, free := s.free + 1 }

/-- Every freeze-capable page with PG_CTL.freeze_on_halt freezes (R466). -/
def State.freezeAll (s : State) : State :=
  freezePages.foldl (fun s p =>
    if s.flag (hdr p 0x08) 2 then
      let s := if p = 4 ∧ !(s.page 4).frozen then s.holdPins else s
      let s := s.setPage p { s.page p with frozen := true }
      if 0x20 ≤ p ∧ p < 0xA0 then s.refControl (p - 0x20) .frozen else s
    else s) s

/-- Every job of the package is halted, every page that freezes on halt freezes, and the package-halt state is entered
(R466). -/
def State.haltPackage (s : State) (why : HaltWhy) : State :=
  let s := (List.range 64).foldl (fun s j => s.requestHalt j why) s
  let s := if s.pkgHalt then s else s.setFlag (dbgAt 0x4C) 2 (why == .whistle)
  { s.freezeAll with pkgHalt := true }

/-- An ignored debug event is counted (R470). -/
def State.ignoreDebugEvent (s : State) : State := s.bump (dbgAt 0x64) 15 0 1

/-- A debug event (R470): monitor entry, and the package halt under DBG_CTL.halt_pkg_on_mon, whose own event, where the package was not
halted before, finds the core in monitor mode; or the event is ignored and counted. With PD82 off there is no event (R462). -/
def State.debugEvent (s : State) (cause index : Nat) (pc : Word) (mode : Nat) : State :=
  if !s.domainOn 82 then s
  else if s.takesDebugEvent then
    let s := s.monitorEnter cause index pc mode
    if s.flag (dbgAt 0x40) 0 then
      let entered := !s.pkgHalt
      let s := s.haltPackage .pkg
      if entered && s.flag (dbgAt 0x40) 1 then s.ignoreDebugEvent else s
    else s
  else s.ignoreDebugEvent

/-- A debug event that finds the user core where it stands. -/
def State.debugEventHere (s : State) (cause : Nat) : State := s.debugEvent cause 0 s.dbg.core.pc s.dbg.core.mode

/-- A halt request for the user core put off (R473): for at most 16 retired instructions. -/
def State.deferHalt (s : State) (cause : Nat) : State := { s with dbg := { s.dbg with deferred := cause, deferLeft := 16 } }

/-- The package halt entered, with the debug event of DBG_CTL.mon_on_pkg_halt (R466). It is put off while the user core holds a
reservation (R473). -/
def State.packageHalt (s : State) (why : HaltWhy) : State :=
  let entered := !s.pkgHalt
  let s := s.haltPackage why
  if entered && s.flag (dbgAt 0x40) 1 then
    if s.dbg.core.reserved && s.domainOn 82 then s.deferHalt 6 else s.debugEventHere 6
  else s

/-! ### The whistle (R374, R375) -/


/-- The whistle asserted by a source: 1 pin, 2 host, 3 firmware, 4 PLL, 0 none of these. A further assertion only sets its
source bit (R374). -/
def State.assertWhistle (s : State) (source : Nat) : State :=
  let on := s.flag whistleReg 0
  let s := if source = 0 then s else s.setFlag whistleReg source true
  if on then s
  else ((s.setFlag whistleReg 0 true).scoreAdd 3876 1).packageHalt .whistle

/-- The whistle cleared with its source bits, unless its input is 1 or the hub system PLL is out of lock (R376): whether it
was. -/
def State.clearWhistle (s : State) : Bool × State :=
  if s.flag whistleReg 5 || !s.flag (PageKind.clk.at 0x44) 4 then (false, s)
  else (true, s.setFld whistleReg 4 0 0)

/-! ### HBM outside the windows (R180, R259) -/

/-- A 128 MiB stretch of physical HBM addresses: unit `u` of every octant's window (R179). -/
def unitBytes : Nat := 134217728

/-- An octant's unit of 16 MiB is free: no job holds it and no firmware allocation covers it. -/
def State.unitFree (s : State) (o u : Nat) : Bool :=
  !s.jobs.any (fun e => (e.2.windows ++ e.2.reserve).any (fun w => w.1 == o && decide (w.2.1 ≤ u) && decide (u < w.2.1 + w.2.2))) &&
  !s.allocs.any (fun a => decide (a.base < (u + 1) * unitBytes) && decide (u * unitBytes < a.base + a.len))

/-- A stretch is free in every octant. -/
def State.stretchFree (s : State) (u : Nat) : Bool := (List.range 8).all (fun o => s.unitFree o u)

/-- HBM allocated for firmware's use: the highest free run of stretches (assumption 20). -/
def State.allocHbm (s : State) (len user : Nat) : Option (Nat × State) :=
  let n := (len + unitBytes - 1) / unitBytes
  let free := (List.range 768).map s.stretchFree
  ((List.range (769 - n)).reverse.find? (fun b => (free.drop b).take n |>.all id)).map
    (fun b => (b * unitBytes, { s with allocs := s.allocs ++ [⟨b * unitBytes, len, user⟩] }))

/-- The firmware allocations of a user freed. -/
def State.freeHbm (s : State) (user : Nat) : State := { s with allocs := s.allocs.filter (fun a => a.user != user) }

/-- The lowest `n` free units of an octant's window (R180, R230). -/
def State.takeUnits (s : State) (o n : Nat) : Option (List Nat) :=
  let us := ((List.range 768).filter (fun u => s.unitFree o u)).take n
  if us.length = n then some us else none

/-! ### Power domains -/

/-- The power domain of a page (R18); `none` for always-on pages. -/
def pageDomain (page : Nat) : Option Nat :=
  match pageOf page with
  | some (.fabs, g) => some g
  | some (.fabc, _) => some ((page - 0x1000) / 0x80)
  | some (.laneGroup, k) => some (64 + k)
  | some (.lane, n) => some (64 + n / 16)
  | some (.disp, _) => some 74
  | some (.cap, _) => some 75
  | some (.ckpt, _) => some 76
  | some (.scrub, _) => some 76
  | some (.time, _) => some 77
  | some (.gpio, _) => some 78
  | some (.xbar, _) => some 78
  | some (.wdt, _) => some 79
  | some (.dbg, _) => some 82
  | some (.trace, _) => some 82
  | _ => none

end Sys2Proof.Machine
end

