-- ==== Sys2Proof/Machine/LaneState.lean ====
section
/-! DEFINITION. The state of a lane (R306) and what its changes bring about: state_change, taps (R305), the loss of a peer (R327)
and the end of a LANE_UP command (R453). -/

namespace Sys2Proof.Machine

/-- BAR0 page number of a lane. -/
def lanePage (n : Nat) : Nat := 0x180 + n

/-- The lane PLL of lane `n`'s group is locked: LANEG_STAT.pll_lock (R310). -/
def State.lanePllLocked (s : State) (n : Nat) : Bool := s.flag (laneGroupAt (n / 16) 0x40) 0

/-- The job that a lane is bound to (R299). -/
def State.laneJob (s : State) (n : Nat) : Option Nat :=
  if s.flag (laneAt n 0x50) 31 then some (s.fld (laneAt n 0x50) 20 15) else none

/-- The partner that LANE_STAT shows: package and lane (R311). -/
def State.lanePartner (s : State) (n : Nat) : Option (Nat × Nat) :=
  if s.flag (laneAt n 0x44) 19 then some (s.fld (laneAt n 0x44) 18 14, s.fld (laneAt n 0x44) 13 8) else none

/-- HUD_PEER_LOST (R327): a peer lane of a live job leaves OPERATIONAL or finds another partner; the job is halted as a class 3
fault. Whether words in flight were lost is open. -/
def State.peerLost (s : State) (n : Nat) : State :=
  match s.laneJob n with
  | some j =>
    let x := s.job j
    if x.live && !s.external j n then
      let s := s.raiseFault j { code := 0x0905, phase := 4, cls := 3, job := j, seg := n, unit := 8, sub := n, e := x.recPos, m := x.m }
      let l := s.lane n
      let s := s.setLane n { l with wordsLost := l.wordsLost || Config.freeBit s.free }
      let s := { s with free := s.free + 1 }
      let x := s.job j
      (s.setJob j { x with laneDown := x.laneDown ++ [n] }).requestHalt j .fault
    else s
  | none => s

/-- The lanes in a mask. -/
def lanesOf (mask : BitVec 64) : List Nat := (List.range 64).filter (fun n => mask.getLsbD n)

/-- The lanes of a mask that are OPERATIONAL. -/
def State.operMask (s : State) (mask : BitVec 64) : Nat :=
  (lanesOf mask).foldl (fun a n => a + boolNat ((s.lane n).state == .operational) * 2 ^ n) 0

/-- LANE_UP completes when every lane it names is OPERATIONAL or FAILED (R453): LANE_FAILED where one did not get there. -/
def State.laneUpDone (s : State) : State :=
  let done := fun (w : Waiting) => w.op == 0x0801 &&
    (lanesOf w.lanes).all (fun n => [LaneState.operational, .failed].contains (s.lane n).state)
  let ok := fun (w : Waiting) => decide (s.operMask w.lanes = w.lanes.toNat)
  let res := fun (w : Waiting) => leBytes 8 (s.operMask w.lanes)
  (s.finish (fun w => done w && ok w) 0 0 res).finish (fun w => done w && !ok w) 0x0802 0 res

/-- A lane changes its state (R306). The fallback scrambler starts from a state that the spec does not give (R294; a free value,
assumption 92), and the pattern checker starts unlocked (R308). Errors still owed are injected in TEST and OPERATIONAL only (R309). A lane
in FAILED keeps the newest reason. -/
def State.laneTo (s : State) (n : Nat) (st : LaneState) (fail : Nat) : State :=
  let l := s.lane n
  if l.state = st then if st = .failed then s.setLane n { l with failCode := fail } else s
  else
    let leaves := l.state == .operational
    let l' : Lane :=
      if st = .off then { partner := l.partner, wordsLost := l.wordsLost, episode := l.episode, changed := l.changed }
      else { l with state := st, failCode := fail, words := [], marker := none, curCtl := [], lostRun := 0
                    line := { l.line with rxCtl := none, held := none
                                          owed := if st = .test ∨ st = .operational then l.line.owed else 0 }
                    wordsLost := l.wordsLost || (leaves && l.words != []) }
    let l' := match st with
      | .measure => { l' with samples := 0, maxRtt := 0 }
      | .train => { l' with holdFrames := 0, eqBusy := false, eqReqTx := 0, eqAckTx := 0 }
      | .operational => { l' with episode := none, changed := false }
      | .waitSignal => { l' with line := { l'.line with past := natBits (Config.freeDword s.free).toNat 57 0 } }
      | _ => l'
    let s := if st = .waitSignal then { s with free := s.free + 1 } else s
    let s := if st = .test ∨ l.state = .test then s.setFlag (laneAt n 0x90) 0 false else s
    let s := s.setLane n l'
    let s := if st = .waitSignal ∨ st = .align then
        s.setReg (laneAt n 0x58) (Config.lanePreset (s.fld (laneAt n 0x5C) 2 0))
      else s
    let s := s.raiseIrq (lanePage n) 3
    let s := if leaves then s.peerLost n else s
    if st = .operational ∨ st = .failed then s.laneUpDone else s

/-- LANE_CTL as it stands takes effect (R306): up = 0 takes the lane to OFF; in OFF, up = 1 starts it, in TEST or, with its group
PLL locked, towards OPERATIONAL. -/
def State.laneCtl (s : State) (n : Nat) : State :=
  if !s.flag (laneAt n 0x40) 0 then s.laneTo n .off 0
  else if (s.lane n).state != .off then s
  else if s.flag (laneAt n 0x40) 5 then s.laneTo n .test 0
  else if s.lanePllLocked n then s.laneTo n .waitSignal 0
  else s

end Sys2Proof.Machine
end

