-- ==== Sys2Proof/Machine/Sequencer.lean ====
section
/-! DEFINITION. The segment sequencer: repeats (R94–R97), the hold notice and the huddle's conditions (R102, R103, R186,
R324–R326), and hold steps (R101–R104). -/

namespace Sys2Proof.Machine

/-! ### Repeats (R96) -/

/-- The descriptor of a sequencer. -/
def Seq.desc (q : Seq) (d : Nat) : Rpt := rptOf (q.rpt.getD d [])

/-- The descriptor whose body starts at the step that executes next, at the present depth (R96 `desc_at`). -/
def Seq.descAt (q : Seq) : Option Nat :=
  (List.range q.rpt.length).find? (fun d =>
    (q.desc d).valid && (q.desc d).start == q.k && (q.desc d).level == q.stack.length)

/-- The bodies that begin at the step that executes next are entered, saving the offsets; at most four nest (R95). -/
def Seq.enter : Nat → Seq → Seq
  | 0, q => q
  | n + 1, q =>
    match q.descAt with
    | some d => Seq.enter n { q with stack := ⟨d, 0, q.ofs, q.rofs, q.ocr⟩ :: q.stack }
    | none => q

/-- Increments added to offsets, modulo `n`. -/
def addMod (n : Nat) (a b : List Nat) : List Nat := List.zipWith (fun x y => (x + y) % n) a b

/-- The end of step k: the innermost body that ends there iterates, or is left with its saved offsets (R96). -/
def Seq.leave : Nat → Seq → Seq
  | 0, q => { q with k := q.k + 1 }
  | n + 1, q =>
    match q.stack with
    | [] => { q with k := q.k + 1 }
    | f :: fs =>
      let d := q.desc f.desc
      if d.stop = q.k then
        if f.iter < d.countM1 then
          { q with stack := { f with iter := f.iter + 1 } :: fs, ofs := addMod 1024 q.ofs d.dOfs
                   rofs := (q.rofs + d.rstride) % 1024, ocr := addMod 4096 q.ocr d.dOcr, k := d.start }
        else Seq.leave n { q with stack := fs, ofs := f.ofs, rofs := f.rofs, ocr := f.ocr }
      else { q with k := q.k + 1 }


/-- The sequencer after the position that executes next (R96). -/
def Seq.advance (q : Seq) : Seq := if q.padding then q else Seq.enter 4 (Seq.leave 4 q)

/-- The sequencer at position 0 of a design cycle: k, the stack and every offset at their initial values (R93). -/
def Seq.restart (q : Seq) : Seq :=
  Seq.enter 4 { q with k := 0, stack := [], ofs := q.ofsInit, rofs := 0, ocr := [0, 0, 0, 0, 0, 0, 0, 0], blank := false }

/-- RUN, or PAD where the position that executes next is a pad position (R109). -/
def Seq.going (q : Seq) : Seq := { q with state := if q.padding then .pad else .run }

/-- The sequencer's next `n + 1` positions, the one that executes next first. -/
def Seq.ahead : Nat → Seq → List Seq
  | 0, q => [q]
  | n + 1, q => q :: Seq.ahead n q.advance

/-- The last position of a design cycle at which a sequencer executes programmed step `k`, searched from position `e` on for
`fuel` positions. -/
def Seq.lastAt (k : Nat) : Nat → Nat → Seq → Option Nat
  | 0, _, _ => none
  | fuel + 1, e, q =>
    match Seq.lastAt k fuel (e + 1) q.advance with
    | some x => some x
    | none => if !q.padding && q.k == k then some e else none

/-- The segments of a job whose sequencers take part in its positions: a region under reload does not (R240). -/
def State.activeSegs (s : State) (j : Nat) : List Nat :=
  (segsOf (s.job j).mask).filter (fun g => (s.seq g).state != .idle)

/-! ### WAITs (R102, R186) -/

/-- The requests that a cluster issues on queue `q` in the steps of a list of sequencer positions. -/
def State.issuesIn (s : State) (cl q : Nat) (ahead : List Seq) : Nat :=
  ahead.countP (fun x =>
    !x.padding && let cw := s.control cl x.k; (cw.issueKind == 1 || cw.issueKind == 2) && cw.issueQ == q)

/-- A cluster's WAIT at the sequencer position `at_`, reached after the positions `ahead`, is met, or there is none (R186). -/
def State.waitMet (s : State) (cl : Nat) (ahead : List Seq) (at_ : Seq) : Bool :=
  let cw := s.control cl at_.k
  if at_.padding || !cw.waitEn then true
  else
    let q := s.mq cl cw.waitQ
    let n := q.issued + s.issuesIn cl cw.waitQ ahead
    decide (n ≤ q.issued + cw.waitCount) &&
      q.entries.all (fun x => x.state == .complete || !waitCovers n cw.waitCount x.ord)

/-- The segments of a job with an unmet WAIT `i` positions ahead, for some `i` in a list (R102). -/
def State.unmetWaits (s : State) (j : Nat) (is : List Nat) : List Nat :=
  (s.activeSegs j).filter (fun g =>
    let qs := Seq.ahead 16 (s.seq g)
    (clustersOf g).any (fun cl => is.any (fun i => !s.waitMet cl (qs.take i) (qs.getD i {}))))

/-! ### The huddle (R324–R326) -/

/-- The peer lanes of a job: bound and not external, in the lanes that carry its payload (R277, R324). -/
def State.peerLanes (s : State) (j : Nat) : List Nat :=
  (segsOf (s.job j).mask).filter (fun n => s.laneBound n j && !s.external j n && !((s.job j).compare && 32 ≤ n))

/-- BAR0 offset of a register of a job's huddle (R334). -/
def hudAt (j off : Nat) : Nat := PageKind.time.at (0x400 + j * 0x10 + off)

/-- HUD_STAT_j.epoch (R330). -/
def State.epoch (s : State) (j : Nat) : Nat := s.fld (hudAt j 4) 5 3

/-- A peer lane's last huddle copy satisfies the release of design cycle `m` (R325). -/
def State.laneReleases (s : State) (j n m : Nat) : Bool :=
  let h := (s.lane n).huddle
  let atLeast := fun (x : Int) => decide (0 ≤ signedOf 16 (unsignedOf 16 ((h.doneM : Int) - x)))
  (s.lane n).hudGot && h.valid && h.epoch == s.epoch j && atLeast ((m : Int) - s.fld (hudAt j 0) 3 0) &&
    ((s.job j).prot.requested != some m || atLeast ((m : Int) - 1))

/-- Design cycle `m` of a job is released (R103, R325). -/
def State.released (s : State) (j m : Nat) : Bool :=
  match s.peerLanes j with
  | [] => !s.flag (hudAt j 0) 11 || s.inputLevel 144
  | ns => ns.all (fun n => s.laneReleases j n m)

/-- A peer lane's word for an absolute position is not accounted (R326): it has not arrived, and neither has a later one. -/
def State.peerMissing (s : State) (j abs : Nat) : Bool :=
  (s.peerLanes j).any (fun n => decide (s.lambda n ≤ abs) &&
    match (s.lane n).latest with
    | some x => decide (x < abs)
    | none => true)

/-- A pulse on HUD_OUT at a release of the job that HUD_CFG.out_job names (R325), and HUD_STAT.state RUN (R331). -/
def State.hudRelease (s : State) (j : Nat) : State :=
  let s := if s.fld (hudAt j 4) 2 0 = 0 then s else s.setFld (hudAt j 4) 2 0 3
  if s.fld (PageKind.time.at 0x800) 5 0 = j then { s with pins := { s.pins with hudOut := s.pins.hudOut + 1 } } else s

/-- HUD_STAT.state WAIT, where the job has a huddle (R331). -/
def State.hudWait (s : State) (j : Nat) : State :=
  if s.fld (hudAt j 4) 2 0 = 0 then s else s.setFld (hudAt j 4) 2 0 2

/-! ### Holds (R101–R104) -/


/-- The job's sequencers enter HOLD (R109). -/
def State.enterHold (s : State) (j : Nat) : State :=
  let s := s.mapSeqs j (fun q => if q.state = .run ∨ q.state = .pad then { q with state := .hold } else q)
  let x := s.job j
  s.setJob j { x with block := 0, blocks := 0, lastBlk := false, held := true }

/-- The present design cycle of a re-execution repeats one that its first run completed, so that the log's record of its holds
stands; m_f's own is made anew, since the design cycle after it has not run yet (R75, R265, R270). -/
def Job.repeats (x : Job) : Bool :=
  x.reexec && match x.prot.replay with
    | some r => decide (x.m < r.mF)
    | none => false

/-- FABS_HOLD_LAST of every segment of the job (R104), and the position in the replay log (R265). -/
def State.recordHold (s : State) (j : Nat) : State :=
  let x := s.job j
  let pos := if x.e = x.len then 0 else x.e
  let s := (segsOf x.mask).foldl (fun s g =>
    let q := s.seq g
    if q.state = .hold then
      s.setSeq g { q with holdE := pos, holdBlocks := min 4095 x.blocks
                          holdCause := boolNat (x.waitSegs.contains g) + 2 * boolNat x.hudHold }
    else s) s
  let x := s.job j
  if x.prot.state = .off ∨ x.repeats then s
  else s.setJob j { x with prot := { x.prot with log := x.prot.log ++ [.hold x.m x.e x.blocks] } }

/-- HOLD_TIMEOUT is due: 65,536 consecutive blocks, and not raised in this hold yet (R192). -/
def Job.timeoutDue (x : Job) : Bool := decide (65536 ≤ x.blocks) && !x.timeoutUp


/-- The steps of a hold that every segment counts (R104). -/
def State.countHold (s : State) (j : Nat) : State :=
  s.mapSeqs j (fun q => if q.state = .hold then { q with holdCount := q.holdCount + 1 } else q)

/-- A job's output signature folded with further bytes (R265). -/
def Job.foldOut (x : Job) (bs : List Byte) : Job := if bs = [] then x else { x with outSig := crc64Fold x.outSig bs }

/-- The bytes of a lane output for a signature (R265, R278). -/
def laneSig (idx : Nat) (v tag : Bool) : List Byte := leBytes 1 idx ++ leBytes 1 (boolNat v + 2 * boolNat tag)

/-- What an effect adds to the output signature of a job: its lane outputs (R265). -/
def Effect.outBytes (x : Effect) : List Byte :=
  match x with
  | .laneOut g idx v tag => leBytes 2 g ++ laneSig idx v tag
  | _ => []

/-- What an effect at position `e` adds to the signature of the copy whose segment it lies in (R278): lane outputs are item 0, queue
requests (kind, window address and write data) item 1 and tap samples item 4. Copy B's segments count as those of copy A. -/
def Effect.sigItem (e : Nat) (x : Effect) : Option SigItem :=
  match x with
  | .laneOut g idx v tag => some ⟨g / 32, 0, g % 32, 0, e, laneSig idx v tag⟩
  | .mqIssue cl q w addr _ data _ =>
    some ⟨cl / 2048, 1, cl / 64 % 32, cl % 64, e, leBytes 1 (q + 8 * boolNat w) ++ leBytes 8 addr ++ data⟩
  | .tap key v =>
    let cl := key / 4096
    some ⟨cl / 2048, 4, cl / 64 % 32, cl % 64, e, leBytes 2 (key % 4096) ++ leBytes 1 (boolNat v)⟩
  | _ => none

/-- The signatures of a design cycle over the effects of one position (R265, R278). -/
def State.foldSigs (s : State) (j : Nat) (xs : List Effect) : State :=
  let x := s.job j
  let x := if x.prot.state = .off then x else x.foldOut (xs.flatMap Effect.outBytes)
  let x := if x.compare then { x with sigs := x.sigs ++ xs.filterMap (Effect.sigItem x.e) } else x
  s.setJob j x

/-- An item of a signature goes before another (R278): by item, segment, cluster and position. -/
def SigItem.before (a b : SigItem) : Bool :=
  let key := fun (i : SigItem) => [i.item, i.seg, i.cl, i.pos]
  decide (key a < key b)

/-- An item put in its place, behind those that rank equal. -/
def insertSig (i : SigItem) : List SigItem → List SigItem
  | [] => [i]
  | x :: xs => if SigItem.before i x then i :: x :: xs else x :: insertSig i xs

/-- The signature of a copy over a design cycle's items (R278). -/
def signature (items : List SigItem) (copy : Nat) : BitVec 64 :=
  let mine := (items.filter (fun i => i.copy == copy)).foldl (fun a i => insertSig i a) []
  crc64 (mine.flatMap (fun (i : SigItem) => i.bytes))

/-! ### Design ports and capture in a position -/

/-- DP_CLKj falls at the start of its executed position (R496); during re-execution it keeps its level (R497). -/
def State.dpClkFall (s : State) (j : Nat) : State :=
  let x := s.job j
  if x.reexec then s
  else
    let falls := (List.range 4).filter (fun c =>
      let r := gpioAt (0x300 + 4 * c)
      s.flag r 8 && s.fld r 5 0 == j && s.fld r 22 9 == x.e)
    let mask := falls.foldl (fun a c => a + 2 ^ c) 0
    { s with pins := { s.pins with dpClk := s.pins.dpClk &&& ~~~(BitVec.ofNat 4 mask) } }

/-- The samples that the tap filters forward in the position just executed (R337), by probe index. `ks` gives each
segment's programmed step in it, where it executed one. -/
def State.sampleProbes (s : State) (j e : Nat) (ks : List (Nat × Nat)) : State :=
  if s.cap.job = some j then
    let hits := (s.cap.probes.zipIdx).filterMap (fun p =>
      if p.1.2.2 = e then (ks.find? (fun k => k.1 == p.1.1 / 64)).map (fun k =>
        (p.2, Sparse.get false s.fab.taps ((p.1.1 * 4 + p.1.2.1) * 1024 + k.2))) else none)
    { s with cap := { s.cap with gather := hits.foldl (fun g h => Sparse.set false g h.1 h.2) s.cap.gather } }
  else s

end Sys2Proof.Machine
end

