-- ==== Sys2Proof/Machine/Bar2.lean ====
section
/-! DEFINITION. Host accesses to BAR2 in progress (R360–R363): their beats and words as they complete, the completions sent, and the
failures recorded (R362, R378). -/

namespace Sys2Proof.Machine

/-- BAR0 offset of a register of NOC page 1, the PCIe registers (R378). -/
def pcieAt (off : Nat) : Nat := 0x11000 + off

/-- The first BAR2 offset of the fabric store aperture, and the first beyond model memory (R360). -/
def apertureBase : Nat := 0x1800000000

/-- Numbers of host accesses start here, apart from those by which other requesters know their requests. -/
def hostId : Nat := 2 ^ 32

/-- The end of model memory in BAR2. -/
def apertureEnd : Nat := 0x1820000000

/-- The PCIE_ERR_LAST code of a status (R362, R378). -/
def ReqStatus.code : ReqStatus → Nat
  | .ok => 0 | .mbUe => 0x0383 | .hbmUe => 0x0385 | .hbmOff => 0x038D | .mbRetained => 0x038E | .domainOff => 0x000E
  | .ur => 0x0120 | .ca => 0x0121

/-- PCIE_ERR_LAST takes the first failed host access since its last read (R378). -/
def State.pcieLast (s : State) (fn : Nat) (write : Bool) (bar off code : Nat) : State :=
  if s.flag (pcieAt 0x48) 31 then s
  else (s.setReg (pcieAt 0x48) (BitVec.ofNat 32 (code + fn * 2 ^ 16 + boolNat write * 2 ^ 22 + bar * 2 ^ 23 + 2 ^ 31))).setReg64 (pcieAt 0x4C) off

/-- The AER bit of the PCIe error that a failed access represents (R362): unsupported request, completer abort, and for a poisoned
completion poisoned TLP. A posted write has no completion: its failure is shown as completer abort (PRESUMED, assumption 121). -/
def aerBit (write : Bool) : ReqStatus → Nat
  | .ur => 20
  | .ca => 15
  | _ => if write then 15 else 12

/-- An error reported through AER (R355, R362): its status bit, the first error with its TLP's header, of which the model holds no words
(free values), the function's Device Status, and, where neither masked nor switched off, an error message (PRESUMED, assumption 121). -/
def State.aer (s : State) (fn bit : Nat) : State :=
  let f := s.pcieFn fn
  let b : Word := BitVec.ofNat 32 (2 ^ bit)
  let mask := f.config fn (cfgAer + 4)
  let fatal := (f.config fn (cfgAer + 8)).getLsbD bit
  let first := (f.config fn cfgAer &&& ~~~mask) == 0 && !mask.getLsbD bit
  let g := f.setConfig cfgAer (f.config fn cfgAer ||| b)
  let g := if first then
      (List.range 4).foldl (fun (g : PcieFn) i => g.setConfig (cfgAerFirst + 4 + 4 * i) (Config.freeWord (s.free + i)))
        (g.setConfig cfgAerFirst (BitVec.ofNat 32 bit))
    else g
  let dev := f.config fn cfgDevice
  let g := g.setConfig cfgDevice (dev ||| (if fatal then 0x40000 else 0x20000) ||| (if bit = 20 then 0x80000 else 0))
  let s := { s with free := s.free + 4 }.setPcieFn fn g
  if !mask.getLsbD bit && dev.getLsbD (if fatal then 2 else 1) then s.emit (.pcieError fn bit) else s

/-- A failed access to BAR2, or an AtomicOp, recorded, counted and reported (R360–R362, R378): poisoned completions apart from UR, CA
and discarded writes. -/
def State.hostFail (s : State) (fn : Nat) (write atomic : Bool) (bar off : Nat) (st : ReqStatus) : State :=
  let s := (s.aer fn (aerBit write st)).pcieLast fn (write || atomic) bar off st.code
  if st = .ur ∨ st = .ca then
    (s.pgErr 0x11 st.code (fnRequester fn) 0x48).bump (pcieAt 0x54) 31 16 1
  else if write then s.bump (pcieAt 0x54) 31 16 1
  else s.bump (pcieAt 0x54) 15 0 1

/-- The bytes that an access has read: those of a failing 64-byte beat are 0, the others carry their data (R362). -/
def HostAccess.result (a : HostAccess) : List Byte :=
  (List.range a.len).map (fun i =>
    let o := a.offset + i
    if a.bad.contains (o / 64) then 0
    else match a.got.find? (fun g => decide (g.1 ≤ o) && decide (o < g.1 + g.2.length)) with
      | some g => g.2.getD (o - g.1) 0
      | none => 0)

/-- The response at the bridge to a NoC request (R369): a read's data at their place, an atomic's old word, or an acknowledgement; none
where its cmd asks for none. -/
def bridgeResponse (p : NocPacket) (bytes : List Byte) (st : ReqStatus) : Option NocPacket :=
  let cmd := nocFld p 19 16
  (responseCmd cmd).map (fun c => nocResponse p c (nocFld p 22 20) st.code (if c = 10 then leNat bytes else 0)
    (if c = 8 then flitsOf (nocFld p 127 64 / 64 * 64 + (nocPlaces p).headD 0) bytes else []))

/-- An access answered (R360, R369): one that came as a NoC packet by a response, another by a completion unless it is posted. -/
def State.hostAnswer (s : State) (a : HostAccess) (bytes : List Byte) (st : ReqStatus) : State :=
  match a.packet with
  | some p => match bridgeResponse p bytes st with
    | some q => s.nocReply q
    | none => s
  | none => if a.write then s else s.emit (.completion a.fn bytes st)

/-- The state with an access changed; a whole one completes, a posted write without a completion. -/
def State.setAccess (s : State) (a : HostAccess) : State :=
  if a.left = 0 ∧ a.words = [] then
    let s := { s with access := s.access.filter (fun x => x.id != a.id) }
    let s := if a.status = .ok ∨ a.fw then s else s.hostFail a.fn a.write a.atomic 1 a.offset a.status
    s.hostAnswer a a.result a.status
  else { s with access := s.access.map (fun x => if x.id = a.id then a else x) }

/-- A status met by an access at a BAR2 offset: the first bad one stays, and the beat has failed. -/
def HostAccess.meet (a : HostAccess) (off : Nat) (st : ReqStatus) : HostAccess :=
  let a := if st = .ok then a else { a with bad := a.bad ++ [off / 64] }
  if a.status = .ok then { a with status := st } else a

/-- As what an access asks a bank (R163). -/
def HostAccess.src (a : HostAccess) : DynSrc := if a.fw then .firmware else .host a.fn

/-- A number that no access has, and none of those counted has had. -/
def State.nextAccess (s : State) : Nat := s.access.foldl (fun n a => max n (a.id + 1)) (hostId + s.noc.crossed)

/-- An access joins those in progress. -/
def State.addAccess (s : State) (a : HostAccess) : State :=
  { s with access := s.access ++ [a], noc := { s.noc with crossed := s.noc.crossed + 1 } }

/-- A bank word's answer taken by the oldest access of its requester that waits for it; `none` where none does. -/
def State.hostWord (s : State) (src : DynSrc) (bank word : Nat) (data : Dword) (st : ReqStatus) : Option State :=
  (s.access.find? (fun a => a.src == src && a.words.contains (bank, word))).map (fun a =>
    let off := apertureBase + bank * 0x8000 + word * 8
    let got := if st = .ok then a.got ++ [(off, leBytes 8 data.toNat)] else a.got
    s.setAccess ({ a with words := a.words.erase (bank, word), got := got }.meet off st))

end Sys2Proof.Machine
end

