-- ==== Sys2Proof/Machine/Banks.lean ====
section
/-! DEFINITION. The model-memory banks' dynamic port (R160–R171), checkpoint requests (R260, R329), unlogged writes (R268), and
the rows of the banks and of ECC error injection. -/

namespace Sys2Proof.Machine

/-! ### Checkpoint requests and unlogged writes -/

/-- The target of a checkpoint that firmware requests now (R260, R329): the next boundary in a job without peer lanes, else ck_lead
design cycles ahead; an earlier target that stands is kept. A checkpoint whose copy is under way is past. During a rollback it is the
frontier boundary (R451). -/
def State.ckptTarget (s : State) (j : Nat) : Nat :=
  let x := s.job j
  let alone := (s.peerLanes j).isEmpty
  let past := !alone || x.prot.state == .copying
  let t := if alone then x.m + 1 else x.m + s.fld (hudAt j 0) 10 4
  match x.prot.replay, x.prot.requested with
  | some r, _ => r.mF + 1
  | none, some o => if past && decide (o ≤ x.m) then t else min o t
  | none, none => t

/-- Firmware requests a checkpoint, and announces it in a job with peer lanes (R260, R329). -/
def State.requestCkpt (s : State) (j : Nat) : State :=
  let x := s.job j
  let t := s.ckptTarget j
  let s' := s.setJob j { x with prot := { x.prot with requested := some t } }
  if s.peerLanes j = [] then s' else (s'.setFlag (hudAt j 4) 6 true).setFld (hudAt j 4) 15 8 (t % 256)

/-- An unlogged write waits for its checkpoint (R268). -/
def Prot.unlogged (p : Prot) : Bool := p.dropAt != []

/-- A host write to a running job's memory that cannot be logged (R268): reported, and a checkpoint requested after which the
older ones are retired. Nothing is logged while protection is off. -/
def State.unloggedWrite (s : State) (j : Nat) : State :=
  let x := s.job j
  if (x.state = .active ∨ x.state = .reloading) ∧ x.prot.state ≠ .off ∧ x.prot.state ≠ .failed then
    let s := s.setJob j { x with prot := { x.prot with dropAt := x.prot.dropAt ++ [s.ckptTarget j] } }
    (s.event j 0x0608 j []).requestCkpt j
  else s

/-! ### The dynamic port (R160–R168) -/

/-- Whether the dynamic port reaches a bank: its segment's domain is on and its banks are awake (R171, R37). -/
def State.bankStatus (s : State) (bank : Nat) : ReqStatus :=
  let g := bank / 256
  if s.fab.retained.getLsbD g || s.fab.waking.getLsbD g then .mbRetained
  else if s.domainOn g then .ok else .domainOff

/-- A checked read through the dynamic port (R165): the data, whether it is uncorrectable, and the state with the error
recorded. A running job is not stopped by it. -/
def State.dynFetch (s : State) (bank w : Nat) : Dword × Bool × State :=
  let r := s.bankRead bank w
  let s := if r.2 then s.setFlag (fabcAt (bank / 4) 0x194) 31 false else s
  if r.1.ue then (0, true, s.mbEccLast bank w r.1.syn 2 true)
  else (r.1.delivered, false, if r.1.syn = 0 then s else s.mbCorrected bank w r.1.syn 2)

/-- Bytes of a word replaced where the mask bit is 1 (R163). -/
def maskBytes (old new : Dword) (mask : BitVec 8) : Dword :=
  BitVec.ofNat 64 (leNat ((List.range 8).map (fun i =>
    if mask.getLsbD i then BitVec.ofNat 8 (new.toNat / 256 ^ i) else BitVec.ofNat 8 (old.toNat / 256 ^ i))))

/-- A pending write-back made: the word is rewritten as corrected. One whose stored word has become uncorrectable meanwhile has
nothing to write back and is dropped: the spec names only a fabric write as dropping it (DESIGN CHOICE, assumption 79). -/
def State.mbWriteback (s : State) (x : MbWb) : State :=
  let r := secdedRead72 (Sparse.get 0 s.fab.mb (x.bank * 4096 + x.word)) 0
  let s := { s with fab := { s.fab with mbWb := s.fab.mbWb.erase x } }
  if r.ue then s else s.bankStore x.bank x.word (BitVec.ofNat 64 r.data)

/-- The write-backs that wait at a bank go ahead of its dynamic requests (R160). -/
def State.flushBank (s : State) (bank : Nat) : State :=
  (s.fab.mbWb.filter (fun x => x.bank == bank)).foldl State.mbWriteback s

/-- A dynamic request performed in one bank cycle (R163): the status, the result returned, and the new state. -/
def State.dynPerform (s : State) (r : DynReq) : ReqStatus × Dword × State :=
  if s.bankStatus r.bank ≠ .ok then (s.bankStatus r.bank, 0, s)
  else
    match r.kind with
    | .write d => (.ok, 0, s.bankStore r.bank r.word d)
    | k =>
      let f := s.dynFetch r.bank r.word
      if f.2.1 then (.mbUe, 0, f.2.2)
      else
        let s := f.2.2
        match k with
        | .masked d m => (.ok, 0, s.bankStore r.bank r.word (maskBytes f.1 d m))
        | .add d => (.ok, f.1, s.bankStore r.bank r.word (f.1 + d))
        | .swap d => (.ok, f.1, s.bankStore r.bank r.word d)
        | _ => (.ok, f.1, s)

/-- A host write through the dynamic port to a job's bank is an unlogged write (R268). -/
def State.dynUnlogged (s : State) (r : DynReq) : State :=
  match r.src, r.kind with
  | .host _, .read => s
  | .host _, _ =>
    match s.jobOfSeg (r.bank / 256) with
    | some j => s.unloggedWrite j
    | none => s
  | _, _ => s

/-- The response to a dynamic request: to the access that waits for it (R360, R369), else to the requester's queue. -/
def State.dynAnswer (s : State) (r : DynReq) (st : ReqStatus) (data : Dword) : State :=
  let queued := { s with fab := { s.fab with resp := s.fab.resp ++ [⟨r.src, r.bank, r.word, data, st⟩] } }
  if r.own then s else (s.hostWord r.src r.bank r.word data st).getD queued

/-- A dynamic request served, behind the bank's write-backs (R160): its response is handed to the requester. -/
def State.dynServe (s : State) (r : DynReq) : State :=
  let p := (s.flushBank r.bank).dynPerform r
  let s := p.2.2.dynAnswer r p.1 p.2.1
  if p.1 = .ok then s.dynUnlogged r else s

/-- One cycle lost by a dynamic request (R161). -/
def State.dynStall (s : State) (bank : Nat) : State := s.bump (fabcAt (bank / 4) 0x198) 31 0 1

/-- A bank in clear mode serves no port (R153). -/
def State.bankClearing (s : State) (bank : Nat) : Bool := s.fab.clearing.getLsbD (bank / 256)

/-- A request uses the read, or the write, of its bank cycle (R163). -/
def DynKind.uses (k : DynKind) (write : Bool) : Bool :=
  match k, write with
  | .read, w => !w
  | .write _, w => w
  | _, _ => true

/-- The bank cycles that a request can lose in a row (R161): two at a STEPCLK above 1.0 GHz, else one. -/
def State.dynBound (s : State) : Nat := if 800 < s.fld (PageKind.clk.at 0x40) 9 0 then 2 else 1

/-- What a bank cycle brings the oldest request of a bank (R161, R162): it is served, it loses the cycle, or it is performed behind
the fabric's access of the position in progress. -/
inductive DynTurn where
  | serve | lose | behind
  deriving DecidableEq, Repr

/-- The turn of a request in a bank cycle (R159, R161, R162). `busy`: the phase of the clocks puts the fabric's access of the position
in progress in this cycle. A write that has lost to a fabric write lands after it, and a read in the cycle of a fabric write to its
word returns the new data: both are performed once the position's writes have landed. -/
def State.dynTurn (s : State) (r : DynReq) (busy : Bool) : DynTurn :=
  let w := Sparse.get ({} : DynWait) s.fab.dynWait r.bank
  match s.fabricUse r.bank with
  | none => .serve
  | some u =>
    if w.due then .behind
    else if busy && r.kind.uses u.1 && decide (w.lost < s.dynBound) then .lose
    else if w.behind || (busy && u == (true, r.word)) then .behind
    else .serve

/-- The front request of a bank after a turn that does not serve it. -/
def State.dynWaits (s : State) (bank : Nat) (t : DynTurn) : State :=
  let w := Sparse.get ({} : DynWait) s.fab.dynWait bank
  match t with
  | .serve => s
  | .lose => { s with fab := { s.fab with dynWait := Sparse.set {} s.fab.dynWait bank { w with lost := w.lost + 1, behind := true } } }.dynStall bank
  | .behind => { s with fab := { s.fab with dynWait := Sparse.set {} s.fab.dynWait bank { w with due := true } } }

/-- A dynamic write in the bank cycle in which the fabric reads the word (R162): the read returns the new data. Units that have acted
on the word already act again: the bank's port, and the BPs, which a static read reaches. -/
def State.rereadUnits (s : State) (r : DynReq) (busy : Bool) : State :=
  let cl := r.bank / 4
  let b := r.bank % 4
  let again := fun (u : Nat) => u / 128 == cl && (u % 128 < 64 || u == clUnit cl (9 + b) || u == clUnit cl (13 + b))
  if busy && s.fabricUse r.bank == some (false, r.word) && !r.kind.uses false then
    { s with fab := { s.fab with staged := s.fab.staged.filter (fun u => !again u.1) } }
  else s

/-- A dynamic request reaches a bank (R160, R161): it is served, or it waits behind the requests before it or for the bank
cycle that the fabric holds. -/
def State.dynArrive (s : State) (r : DynReq) (busy : Bool) : State :=
  if r.bank < 16384 ∧ r.word < 4096 then
    let queued := { s with fab := { s.fab with dyn := s.fab.dyn ++ [r] } }
    if s.bankClearing r.bank || s.fab.dyn.any (fun x => x.bank == r.bank) then queued
    else match s.dynTurn r busy with
      | .serve => (s.rereadUnits r busy).dynServe r
      | t => queued.dynWaits r.bank t
  else s

/-- A waiting request leaves the queue and is served. -/
def State.dynRelease (s : State) (r : DynReq) : State :=
  { s with fab := { s.fab with dyn := s.fab.dyn.erase r, dynWait := Sparse.erase s.fab.dynWait r.bank } }.dynServe r

/-- Every request that waits at the banks a test picks is served, in order: no fabric access stands in its way. -/
def State.dynDrain (s : State) (pick : Nat → Bool) : State :=
  (s.fab.dyn.filter (fun r => pick r.bank && !s.bankClearing r.bank)).foldl State.dynRelease s

/-- A position of a job has ended (R162): the requests to be performed behind its fabric writes are served, a write of the device's own
that lost a cycle in it among them, and another request that lost one meets the next position. -/
def State.dynEdge (s : State) (j : Nat) : State :=
  let mine := fun (bank : Nat) => (s.job j).mask.getLsbD (bank / 256)
  (s.fab.dynWait.filter (fun e => mine e.1)).foldl (fun s e =>
    let w : DynWait := e.2
    match s.fab.dyn.find? (fun r => r.bank == e.1) with
    | some r =>
      if w.due || r.own then s.dynRelease r
      else { s with fab := { s.fab with dynWait := Sparse.set {} s.fab.dynWait e.1 { w with behind := false } } }
    | none => { s with fab := { s.fab with dynWait := Sparse.erase s.fab.dynWait e.1 } }) s

/-- Words of a bank read through its dynamic port for the dispatcher, the scrubber or the checkpoint engine, behind the write-backs that
wait there (R154, R160, R165): the data, 0 for a word whose read ends in MB_UE, and the state. -/
def State.portFetch (s : State) (bank : Nat) (ws : List Nat) : List Dword × State :=
  ws.foldl (fun (a : List Dword × State) w =>
    let r := a.2.dynFetch bank w
    (a.1 ++ [r.1], r.2.2)) ([], s.flushBank bank)

/-- The turn of a read that the dispatcher or the scrubber makes of words of a bank (R153, R160–R162): none in clear mode and behind a
request that waits, and none until the position ends where it falls into the bank cycle of the fabric's write to one of the words,
since it returns the new data. To a fabric read it loses up to `State.dynBound` cycles. Which cycles meet depends on the clocks' phase,
which the spec leaves open (R159): a free value. -/
def State.portTurn (s : State) (bank : Nat) (ws : List Nat) : Bool × State :=
  let k := s.free
  if s.bankClearing bank || s.fab.dyn.any (fun r => r.bank == bank) then (false, s)
  else match s.fabricUse bank with
    | none => (true, s)
    | some (true, w) => (!(ws.contains w && Config.freeBit k), { s with free := k + 1 })
    | some (false, _) =>
      let lost := Config.freeNat k % (s.dynBound + 1)
      (true, (List.range lost).foldl (fun s _ => s.dynStall bank) { s with free := k + 1 })

/-- A request of the host, of firmware or of the dispatcher arrives at a bank. Which bank cycle of the position the fabric's access takes
depends on the clocks' phase, which the spec leaves open (R159): a free value. -/
def State.dynPost (s : State) (r : DynReq) : State :=
  if (s.fabricUse r.bank).isSome then { s with free := s.free + 1 }.dynArrive r (Config.freeBit s.free) else s.dynArrive r false

/-- A word of a bank written through its dynamic port for the dispatcher, the engine or firmware (R153, R154, R160, R161): in its turn. -/
def State.portStore (s : State) (src : DynSrc) (bank w : Nat) (d : Dword) : State := s.dynPost ⟨src, bank, w, .write d, true⟩

/-- Writes of the device's own wait at a bank. -/
def State.ownWaits (s : State) (bank : Nat) : Bool := s.fab.dyn.any (fun r => r.bank == bank && r.own)

/-- MB_DYN_READ (R163). -/
def execMbDynRead (src : DynSrc) (bank word : Nat) (busy : Bool) (s : State) : Host.Outcome State Fault Refusal :=
  .next (s.dynArrive ⟨src, bank, word, .read, false⟩ busy)

/-- MB_DYN_WRITE (R163). -/
def execMbDynWrite (src : DynSrc) (bank word : Nat) (data : BitVec 64) (busy : Bool) (s : State) :
    Host.Outcome State Fault Refusal :=
  .next (s.dynArrive ⟨src, bank, word, .write data, false⟩ busy)

/-- MB_DYN_MASKED_WRITE (R163). -/
def execMbDynMaskedWrite (src : DynSrc) (bank word : Nat) (data : BitVec 64) (mask : BitVec 8) (busy : Bool) (s : State) :
    Host.Outcome State Fault Refusal :=
  .next (s.dynArrive ⟨src, bank, word, .masked data mask, false⟩ busy)

/-- MB_DYN_ADD (R163). -/
def execMbDynAdd (src : DynSrc) (bank word : Nat) (operand : BitVec 64) (busy : Bool) (s : State) :
    Host.Outcome State Fault Refusal :=
  .next (s.dynArrive ⟨src, bank, word, .add operand, false⟩ busy)

/-- MB_DYN_SWAP (R163). -/
def execMbDynSwap (src : DynSrc) (bank word : Nat) (operand : BitVec 64) (busy : Bool) (s : State) :
    Host.Outcome State Fault Refusal :=
  .next (s.dynArrive ⟨src, bank, word, .swap operand, false⟩ busy)

/-- The oldest waiting request of a bank is presented again (R161). -/
def State.dynRetry (s : State) (bank : Nat) (busy : Bool) : State :=
  match s.fab.dyn.find? (fun r => r.bank == bank) with
  | none => s
  | some r =>
    if s.bankClearing bank then s
    else match s.dynTurn r busy with
      | .serve => (s.rereadUnits r busy).dynRelease r
      | t => s.dynWaits bank t

/-- MB_ECC_WRITEBACK (R153, R160, R165): the oldest pending write-back of a bank rewrites the word as corrected, ahead of every waiting
dynamic request. A bank in clear mode serves no port. -/
def execMbEccWriteback (bank : Nat) (s : State) : Host.Outcome State Fault Refusal :=
  match s.fab.mbWb.find? (fun x => x.bank == bank) with
  | none => .next s
  | some x => .next (if s.bankClearing bank then s else s.mbWriteback x)

/-! ### Bulk clear and wake (R171, R233) -/

/-- Every bank word of a segment cleared by writes, which set every dirty bit (R168, R236, R243). Nothing is left to write back. -/
def State.wipeBanks (s : State) (g : Nat) : State :=
  { s with fab := { s.fab with
      mb := Sparse.clearRange s.fab.mb (g * 1048576) ((g + 1) * 1048576)
      mbWb := s.fab.mbWb.filter (fun x => x.bank / 256 != g)
      dirty := (List.range 256).foldl (fun m i => Sparse.set 0 m (g * 256 + i) 0xFFFFFFFF) s.fab.dirty } }

/-- The cleared state of the clusters of a list of segments: data stores, operand registers, every bank word and dirty bit
(R233). Write-backs that were pending have nothing left to correct. -/
def State.clearSegs (s : State) (segs : List Nat) : State :=
  segs.foldl (fun s g =>
    { s with fab := { s.fab with
        ds := Sparse.clearRange s.fab.ds (g * 8388608) ((g + 1) * 8388608)
        ors := Sparse.clearRange s.fab.ors (g * 512) ((g + 1) * 512)
        mb := Sparse.clearRange s.fab.mb (g * 1048576) ((g + 1) * 1048576)
        mbWb := s.fab.mbWb.filter (fun x => x.bank / 256 != g)
        dirty := Sparse.clearRange s.fab.dirty (g * 256) ((g + 1) * 256)
        wasKept := s.fab.wasKept &&& ~~~(BitVec.ofNat 64 (2 ^ g)) } }) s

end Sys2Proof.Machine
end

