-- ==== Sys2Proof/Machine/Flows.lean ====
section
/-! DEFINITION. The transaction dispatcher (chapter 16): mailboxes and announcements (R382–R387), flows and their contexts
(R388–R393), groups and engines (R394–R396), the packet queues (R397), and the dispatcher's rows. -/

namespace Sys2Proof.Machine

/-! ### Ports and mailboxes (R380–R387) -/

/-- A port of a job. -/
def State.port (s : State) (j p : Nat) : Option Port :=
  (s.disp.ports.find? (fun e => e.1 == j * 16 + p)).map (·.2)

/-- The state with a port of a job changed. -/
def State.setPort (s : State) (j p : Nat) (x : Port) : State :=
  { s with disp := { s.disp with ports := Sparse.insert s.disp.ports (j * 16 + p) x } }

/-- The ports of a job with their numbers. -/
def State.portsOf (s : State) (j : Nat) : List (Nat × Port) :=
  (Sparse.range s.disp.ports (j * 16) (j * 16 + 16)).map (fun e => (e.1 - j * 16, e.2))

/-- The bank of a port's mailbox; in compare mode copy B's lies 2,048 clusters on (R400). -/
def Port.bankNo (x : Port) (copy : Nat) : Nat := (x.cl + 2048 * copy) * 4 + x.bank

/-- The copies of a job's mailboxes. -/
def Job.copies (x : Job) : List Nat := if x.compare then [0, 1] else [0]

/-- The data that a bank word holds, as corrected. -/
def State.bankPeek (s : State) (bank w : Nat) : Dword := ((secdedRead72 (Sparse.get 0 s.fab.mb (bank * 4096 + w)) 0)).delivered

/-- A job's rollback stands between the fault and the frontier (R399). -/
def Job.replaying (x : Job) : Bool := x.prot.replay.isSome || x.prot.state == .rollback || x.prot.state == .reexec

/-- The dispatcher reaches a port's mailbox: no checkpoint pause, no rollback, no reload of its region (R398, R399). -/
def State.portOpen (s : State) (j : Nat) (x : Port) : Bool :=
  let job := s.job j
  job.live && !job.replaying && !job.faults.any (fun r => r.cls == 1) && (s.seq job.lead).state != .pause &&
    !(s.seq (x.cl / 64)).region

/-- A word of a job's mailbox written by the dispatcher in every copy (R400). -/
def State.mailWrite (s : State) (j : Nat) (x : Port) (w : Nat) (d : Dword) : State :=
  (s.job j).copies.foldl (fun s c => s.portStore .dispatcher (x.bankNo c) w d) s

/-- What an announcement lets the design see first, in the replay log by the design cycle that begins (R265): the slot words of the
packets that ANN covers, and ANN, in every copy. -/
def State.logDelivery (s : State) (j p : Nat) : State :=
  match s.port j p with
  | none => s
  | some x =>
    let job := s.job j
    let words := (x.unseen.filter (fun u => decide (u.1 < x.ann))).map (fun u => LogItem.txn job.m u.2.1 u.2.2.1 u.2.2.2)
    let anns := job.copies.map (fun c => LogItem.txn job.m (x.bankNo c) x.base (BitVec.ofNat 64 (x.ann % 2 ^ 32)))
    let s := s.setPort j p { x with unseen := x.unseen.filter (fun u => decide (x.ann ≤ u.1)) }
    if job.prot.state = .off then s else s.setJob j { job with prot := { job.prot with log := job.prot.log ++ words ++ anns } }

/-- ANN written, in a design cycle in which the port's doorbell is 0 (R384). -/
def State.writeAnn (s : State) (j p : Nat) : State :=
  match s.port j p with
  | none => s
  | some x =>
    if x.rang || x.ann = x.count then s
    else (s.setPort j p { x with ann := x.count }).mailWrite j x x.base (BitVec.ofNat 64 (x.count % 2 ^ 32))

/-- The first word of the slot of packet `c` of a port (R382). -/
def Port.slotAt (x : Port) (c : Nat) : Nat := x.base + 2 + c % x.slots * (x.words + 1)

/-- A slot's header and packet words, read through the dynamic port (R154, R382). -/
def State.slotFetch (s : State) (x : Port) (copy c : Nat) : List Dword × State :=
  s.portFetch (x.bankNo copy) ((List.range (x.words + 1)).map (x.slotAt c + ·))

/-- The bytes of a packet in a slot (R382). -/
def State.slotBytes (s : State) (x : Port) (copy c n : Nat) : List Byte :=
  (((s.slotFetch x copy c).1.drop 1).flatMap (fun d => leBytes 8 d.toNat)).take n

/-- A copy's CNT word, read through the dynamic port (R154, R382). -/
def State.cntFetch (s : State) (x : Port) (copy : Nat) : List Dword × State := s.portFetch (x.bankNo copy) [x.base + 1]

/-- A count word's value (R382). -/
def cntOf (ws : List Dword) : Nat := (ws.getD 0 0).toNat % 2 ^ 32

/-- A difference of counts mod 2^32 (R382). -/
def cntDiff (a b : Nat) : Nat := (a + 2 ^ 32 - b % 2 ^ 32) % 2 ^ 32

/-- The page of a group. -/
def groupPage (g : Nat) : Nat := 0x100 + g

/-- The group whose page reports on a function's ports: the one it owns, else the shared group (R394). -/
def State.groupOfFn (s : State) (fn : Nat) : Nat :=
  if fn = 0 then 0
  else ((List.range 16).find? (fun g => s.owner (groupPage g) == (1, fn))).getD 0

/-- A dispatcher event with its interrupt cause (R401, R402). -/
def State.dispEvent (s : State) (g bit code job : Nat) : State :=
  (s.raiseIrq (groupPage g) bit).event (320 + g) code job []

/-- XP_OVERRUN on a port, a class 4 report (R222, R401): the record goes with the event, and the dispatcher takes no further packet from
the port. The record names the port's bank and the design cycle, which the spec does not say (DESIGN CHOICE, assumption 113). -/
def State.xpOverrun (s : State) (j p : Nat) : State :=
  match s.port j p with
  | none => s
  | some x =>
    if x.overrun then s
    else
      let g := s.groupOfFn (s.job j).fn
      let r : FaultRec := { code := 0x0168, phase := 4, cls := 4, job := j, seg := x.cl / 64, cl := x.cl % 64, unit := 5
                            sub := x.bank, m := (s.job j).m, extra := [] }
      ((s.setPort j p { x with overrun := true }).raiseIrq (groupPage g) 7).event (320 + g) 0x0168 j r.detail

/-- Packets that a compare job's design cycle adds in a copy, taken for the copy's signature (R278, R400). -/
def State.foldPackets (s : State) (j : Nat) (x : Port) (copy old new : Nat) : State :=
  if (s.job j).compare then
    (List.range (min x.slots (new - old))).foldl (fun s i =>
      let r := s.slotFetch x copy (old + i)
      let item : SigItem := ⟨copy, 2, x.cl / 64, x.cl % 64, 0, r.1.flatMap (fun d => leBytes 8 d.toNat)⟩
      r.2.setJob j { r.2.job j with sigs := (r.2.job j).sigs ++ [item] }) s
  else s

/-- A copy's snapshot (R386): its CNT as it stands at the end of the last position, ahead of every dynamic request that waits, into
FABC_XP_SNAP, as a count that goes on from `old`; the state with the copy's new packets in its signature. The read counts as a dynamic
one for R165, since no control word makes it (DESIGN CHOICE, assumption 113). -/
def State.snapshotCopy (s : State) (j : Nat) (x : Port) (copy old : Nat) : Nat × State :=
  let r := s.dynFetch (x.bankNo copy) (x.base + 1)
  let n := r.1.toNat % 2 ^ 32
  let new := old + cntDiff n old
  let s := r.2.2.setReg (fabcAt (x.cl + 2048 * copy) (0x304 + 8 * x.bank)) (BitVec.ofNat 32 n)
  (new, s.foldPackets j x copy old new)


/-! ### Flows and contexts (R388–R393) -/

/-- A flow. -/
def State.flow (s : State) (fn h : Nat) : Option Flow := s.disp.flows.find? (fun f => f.fn == fn && f.handle == h)

/-- The state with a flow changed. -/
def State.setFlow (s : State) (x : Flow) : State :=
  { s with disp := { s.disp with
      flows := s.disp.flows.map (fun f => if f.fn == x.fn && f.handle == x.handle then x else f) } }

/-- A flow holds a context (R392). -/
def Flow.hasContext (f : Flow) : Bool := f.state == .idle || f.state == .ready || f.state == .service

/-- Contexts in use (R403). -/
def State.contexts (s : State) : Nat := s.disp.flows.countP Flow.hasContext

/-- A group. -/
def State.group (s : State) (g : Nat) : Group := Sparse.get {} s.disp.groups g

/-- The state with a group changed. -/
def State.setGroup (s : State) (g : Nat) (x : Group) : State :=
  { s with disp := { s.disp with groups := Sparse.set {} s.disp.groups g x } }

/-- A packet belongs to a flow: its job, port and channel (R388). -/
def Flow.owns (f : Flow) (k : Packet) : Bool :=
  !f.h2d && k.job == f.job && k.port == f.port && k.channel == f.channel

/-- The packets of a port that its snapshots show and that have not left their slots (R386). -/
def Port.waiting (x : Port) : List Nat :=
  let top := match x.snaps.getLast? with | some q => q.2 | none => x.count
  if x.h2d || x.overrun then [] else (List.range (min x.slots (top - x.count))).map (x.count + ·)

/-- A flow has work (R392): an entry that has not completed, or a packet of its channel in the port or in its group's queue. -/
def State.flowWork (s : State) (f : Flow) : Bool :=
  if f.h2d then cntDiff f.pidx f.cidx != 0
  else
    let g := s.group f.group
    g.queue.any f.owns || g.spill.any f.owns || match s.port f.job f.port with
      | some x => x.waiting.any (fun c => natBits (s.bankPeek (x.bankNo 0) (x.slotAt c)).toNat 31 16 == f.channel)
      | none => false

/-- A flow appended to its group's ready list (R393). -/
def State.makeReady (s : State) (f : Flow) : State :=
  let g := s.group f.group
  (s.setFlow { f with state := .ready }).setGroup f.group { g with ready := g.ready ++ [(f.fn, f.handle)] }

/-- The idle context least recently served, of a flow with nothing undelivered or unannounced (R392). -/
def State.victim (s : State) : Option Flow :=
  (s.disp.flows.filter (fun f => f.state == .idle && f.ahead == 0)).foldl (fun best f => match best with
    | none => some f
    | some b => if f.served < b.served then some f else some b) none

/-- A flow with work activates (R392): it takes a context, evicts an idle one or is parked. -/
def State.activate (s : State) (f : Flow) : State :=
  match f.state with
  | .idle => s.makeReady f
  | .unloaded =>
    if s.contexts < 4096 then s.makeReady f
    else
      match s.victim with
      | some v =>
        ((s.setFlow { v with state := .unloaded }).bump (dispAt 0 0x808) 31 0 1).makeReady f
      | none =>
        let first := s.disp.parked == []
        let s := (s.setFlow { f with state := .parked }).bump (dispAt 0 0x80C) 31 0 1
        let s := { s with disp := { s.disp with parked := s.disp.parked ++ [(f.fn, f.handle)] } }
        if first then s.dispEvent 0 8 0x0160 f.job else s
  | _ => s

/-- A context has become free or idle: the oldest parked flow takes it (R392). -/
def State.unpark (s : State) : State :=
  match s.disp.parked with
  | [] => s
  | k :: ks =>
    if s.contexts < 4096 || s.victim.isSome then
      let s := { s with disp := { s.disp with parked := ks } }
      match s.flow k.1 k.2 with
      | some f => s.activate { f with state := .unloaded }
      | none => s
    else s

/-- The flow activates if it has work (R392). -/
def State.wakeFlow (s : State) (fn h : Nat) : State :=
  match s.flow fn h with
  | some f => if s.flowWork f then s.activate f else s
  | none => s

/-- XP_SNAPSHOT: the snapshots of a job's D2H ports at the boundary that ends design cycle `m` (R386). In re-execution the design
cycles labelled before label nothing anew (R270, R399). The flows of the packets that came activate (R392). -/
def State.xpSnapshot (s : State) (j m : Nat) : State :=
  (s.portsOf j).foldl (fun s e =>
    let x := e.2
    if x.h2d then s
    else
      let a := s.snapshotCopy j x 0 x.last
      let b := if (s.job j).compare then a.2.snapshotCopy j x 1 x.lastB else (0, a.2)
      let n := a.1
      let s := b.2
      let x := { x with last := n, lastB := b.1 }
      if m < x.seen then s.setPort j e.1 x
      else
        let old := match x.snaps.getLast? with | some q => q.2 | none => x.count
        let s := s.setPort j e.1 { x with seen := m + 1, snaps := if n ≤ old then x.snaps else x.snaps ++ [(m, n)] }
        let s := if x.ann + x.slots < n then s.xpOverrun j e.1 else s
        (s.disp.flows.filter (fun f => f.job == j && f.port == e.1)).foldl (fun s f => s.wakeFlow f.fn f.handle) s) s

/-- The queue of a group refills from its spill ring (R397), and the flows of the packets that came activate. -/
def State.refillGroup (s : State) (g : Nat) : State :=
  let x := s.group g
  let n := 256 - x.queue.length
  let new := x.spill.take n
  let s := s.setGroup g { x with queue := x.queue ++ new, spill := x.spill.drop n, full := x.full && new = [] }
  new.foldl (fun s k => match s.disp.flows.find? (fun f => f.owns k) with
    | some f => s.wakeFlow f.fn f.handle
    | none => s) s

/-- The packets of a job gone from every group's queue and spill ring (R393, R398). -/
def State.dropPackets (s : State) (j : Nat) : State :=
  (List.range 16).foldl (fun s g =>
    let x := s.group g
    if x.queue.any (fun k => k.job == j) || x.spill.any (fun k => k.job == j) then
      (s.setGroup g { x with queue := x.queue.filter (fun k => k.job != j), spill := x.spill.filter (fun k => k.job != j) }).refillGroup g
    else s) s

/-- A flow leaves its group's ready list; the deficit of a list that is empty returns to 0 (R395). -/
def State.unready (s : State) (f : Flow) : State :=
  let g := s.group f.group
  let ready := g.ready.filter (fun k => k != (f.fn, f.handle))
  let s := s.setGroup f.group { g with ready := ready, deficit := if ready = [] then 0 else g.deficit }
  { s with disp := { s.disp with parked := s.disp.parked.filter (fun k => k != (f.fn, f.handle)) } }

/-- A flow's delivered packets complete no entry of it when they are announced (R389, R393). -/
def State.disown (s : State) (f : Flow) : State :=
  match s.port f.job f.port with
  | some x => s.setPort f.job f.port { x with owing := x.owing.map (fun k => if k = some (f.fn, f.handle) then none else k) }
  | none => s

/-- A flow deleted: its context is freed (R393). -/
def State.dropFlow (s : State) (f : Flow) : State :=
  let s := (s.unready f).disown f
  { s with disp := { s.disp with flows := s.disp.flows.filter (fun x => !(x.fn == f.fn && x.handle == f.handle)) } }.unpark

/-- The flows of a job stop (R242, R393): one that an engine serves finishes its packet first. -/
def State.stopFlows (s : State) (j : Nat) : State :=
  (s.disp.flows.filter (fun f => f.job == j)).foldl (fun s f =>
    if f.state = .service then s else ((s.unready f).setFlow { f with state := .stopped }).unpark) s

/-- The flows of a destroyed job go (R393): one that an engine serves finishes its packet first. So do its queued packets. -/
def State.dropFlows (s : State) (j : Nat) : State :=
  let kept := (s.disp.flows.filter (fun f => f.job == j && f.state == .service)).filterMap (fun f =>
    ((s.group f.group).queue.find? f.owns).map (fun k => (f.group, k)))
  let s := kept.foldl (fun s k => s.setGroup k.1 { s.group k.1 with queue := k.2 :: (s.group k.1).queue }) (s.dropPackets j)
  (s.disp.flows.filter (fun f => f.job == j)).foldl (fun s f =>
    if f.state = .service then s.setFlow { f with dying := true } else s.dropFlow f) s

/-- An entry of a flow completes (R389): cidx advances, is written back, and every irq_every completions signals. -/
def State.completeEntry (s : State) (f : Flow) : State :=
  let rings := decide (f.irqEvery ≤ f.done + 1)
  let f := { f with cidx := (f.cidx + 1) % 2 ^ 32, done := if rings then 0 else f.done + 1 }
  let s := s.setFlow f
  let s := { s with hostMem := s.hostMem.putBytes f.cidxWb (leBytes 8 f.cidx) }
  if rings then s.msix f.fn f.vector else s

/-- Host address of ring entry `i` of a flow (R389). -/
def Flow.entryAt (f : Flow) (i : Nat) : Nat := f.ring + 16 * (i % 2 ^ f.log2)

/-- The status of a ring entry written (R389). -/
def State.entryStatus (s : State) (f : Flow) (i code : Nat) : State :=
  { s with hostMem := s.hostMem.putBytes (f.entryAt i + 10) (leBytes 2 code) }

/-! ### Announcements (R383) -/

/-- The announcement of one port at the boundary that begins a design cycle: the doorbell, and the completion of the H2D
entries it covers, with status 0 (R389). A port that the dispatcher may not reach is not announced, nor is one whose writes wait at its
bank, in either copy (R383, R400). -/
def State.announcePort (s : State) (j p : Nat) : State :=
  match s.port j p with
  | none => s
  | some x =>
    let landed := !(s.job j).copies.any (fun c => s.ownWaits (x.bankNo c))
    if s.portOpen j x && !x.rang && x.ann != x.announced && landed then
      let n := x.ann - x.announced
      let s := (s.setPort j p { x with rang := true, announced := x.ann, owing := x.owing.drop n }).logDelivery j p
      (x.owing.take n).foldl (fun s k => match k.bind (fun k => s.flow k.1 k.2) with
        | some f => (s.entryStatus f f.cidx 0).completeEntry { f with ahead := f.ahead - 1 }
        | none => s) s
    else s.setPort j p { x with rang := false }

/-- XP_ANNOUNCE: every port of a job at a boundary (R383). -/
def State.xpAnnounce (s : State) (j : Nat) : State :=
  (s.portsOf j).foldl (fun s e => s.announcePort j e.1) s

/-- In the design cycle that follows, the ports whose doorbell is 0 take their new ANN (R384). -/
def State.xpAnn (s : State) (j : Nat) : State :=
  (s.portsOf j).foldl (fun s e => if s.portOpen j e.2 then s.writeAnn j e.1 else s) s

/-- After the restore of a checkpoint, deliveries and credits that were not announced are to be made again (R399), and the packets of design
cycle `mF` and later are labelled anew (R270, R386). The counts at the last boundary are those that CNT holds now. -/
def State.xpRewind (s : State) (j mF : Nat) : State :=
  let s := (s.portsOf j).foldl (fun s e =>
    let x := e.2
    if x.h2d then s.setPort j e.1 { x with count := x.announced, ann := x.announced, owing := [], unseen := [] }
    else
      let back := fun (last : Nat) (ws : List Dword) => last - cntDiff last (cntOf ws)
      let a := s.cntFetch x 0
      let b := if (s.job j).compare then a.2.cntFetch x 1 else ([], a.2)
      b.2.setPort j e.1 { x with
        last := back x.last a.1, lastB := if (s.job j).compare then back x.lastB b.1 else 0, ann := x.announced
        seen := min x.seen mF, snaps := x.snaps.filter (fun q => decide (q.1 < mF)) }) s
  (s.disp.flows.filter (fun f => f.job == j && f.h2d)).foldl (fun s f => s.setFlow { f with ahead := 0 }) s

/-- The flows of a job with work activate again. -/
def State.xpRewake (s : State) (j : Nat) : State :=
  (s.disp.flows.filter (fun f => f.job == j)).foldl (fun s f => s.wakeFlow f.fn f.handle) s

/-- The dispatcher's counts for a job at its start, with ANN and CNT of every port zero (R387). What was queued from before is
discarded, and every flow goes on from its cidx (R393, R398). -/
def State.xpStart (s : State) (j : Nat) : State :=
  let s := s.dropPackets j
  let s := (s.disp.flows.filter (fun f => f.job == j)).foldl (fun s f => s.setFlow { f with ahead := 0 }) s
  (s.portsOf j).foldl (fun s e =>
    let x := e.2
    let s := s.setPort j e.1 { cl := x.cl, bank := x.bank, base := x.base, h2d := x.h2d, slots := x.slots, words := x.words }
    (s.job j).copies.foldl (fun s c =>
      (s.portStore .firmware (x.bankNo c) x.base 0).portStore .firmware (x.bankNo c) (x.base + 1) 0) s) s

/-! ### Engines (R395, R396) -/

/-- The engines in service for a group (R402). -/
def State.groupEngines (s : State) (g : Nat) : Nat :=
  s.disp.engines.countP (fun e => match e.2 with
    | some k => (match s.flow k.1 k.2 with | some f => f.group == g | none => false)
    | none => false)

/-- A group that an engine may serve: a ready flow, and fewer engines than DISP_GRP_CFG.max_eng (R395). A frozen group starts no packet
(R469). -/
def State.groupEligible (s : State) (g : Nat) : Bool :=
  !(s.page (groupPage g)).frozen && (s.group g).ready != [] && decide (s.groupEngines g < s.fld (dispAt g 0x40) 13 8)

/-- An H2D flow has an entry that is not delivered yet. -/
def Flow.undelivered (f : Flow) : Bool := cntDiff f.pidx (f.cidx + f.ahead) != 0

/-- The length of a flow's next packet (R395); an entry out of range moves no bytes. -/
def State.nextLen (s : State) (f : Flow) : Nat :=
  let len := Sparse.num s.hostMem (f.entryAt (f.cidx + f.ahead) + 8) 2
  match s.port f.job f.port with
  | none => 0
  | some x =>
    if f.h2d then if f.undelivered ∧ 1 ≤ len ∧ len ≤ 8 * x.words then len else 0
    else match (s.group f.group).queue.find? f.owns with
      | some k => k.data.length
      | none => 0

/-- The flow at the head of a group's ready list. -/
def State.headFlow (s : State) (g : Nat) : Option Flow := (s.group g).ready.head?.bind (fun k => s.flow k.1 k.2)

/-- The deficit round robin (R395): the group at `turn` while its deficit covers its next packet, else the groups after it,
each visit adding weight × 512. -/
def State.pickGroup : Nat → State → Nat → Option (Nat × State)
  | 0, _, _ => none
  | n + 1, s, g =>
    let ok := s.groupEligible g && match s.headFlow g with
      | some f => decide (s.nextLen f ≤ (s.group g).deficit)
      | none => false
    if ok then some (g, s)
    else
      let h := (g + 1) % 16
      let s := if s.groupEligible h then
          s.setGroup h { s.group h with deficit := (s.group h).deficit + s.fld (dispAt h 0x40) 7 0 * 512 }
        else s
      State.pickGroup n s h

/-- The bin of a wait in the group's histogram (R402). -/
def waitBin (n : Nat) : Nat := min 15 (Nat.log2 n - 7)

/-- The staged fields of the DISP pages apply between two packets (R44, R395); those of a frozen page when it unfreezes (R469). -/
def State.dispStaged (s : State) : State :=
  ((List.range 16).filter (fun g => !(s.page (groupPage g)).frozen)).foldl (fun s g =>
    let d := s.page (groupPage g)
    let s := d.shadow.foldl (fun s w =>
      s.setReg w.addr ((s.reg w.addr &&& ~~~w.mask) ||| (w.value &&& w.mask))) s
    s.setPage (groupPage g) { d with shadow := [] }) s

/-- ENGINE_SELECT (R395): a free engine selects a flow. The wait from READY to SERVICE, in HUBCLK cycles, is free. -/
def execEngineSelect (engine : Nat) (s : State) : Host.Outcome State Fault Refusal :=
  if 32 ≤ engine ∨ (Sparse.get none s.disp.engines engine).isSome then .next s
  else
    let s := s.dispStaged
    match State.pickGroup 17 s s.disp.turn with
    | none => .next s
    | some (g, s) =>
      match s.headFlow g with
      | none => .next s
      | some f =>
        let x := s.group g
        let len := s.nextLen f
        let ready := x.ready.drop 1
        let s := s.setGroup g { x with ready := ready, deficit := if ready = [] then 0 else x.deficit - len }
        let s := s.setFlow { f with state := .service, served := s.disp.serves + 1 }
        let wait := Config.freeNat s.free
        let s := (s.peak (dispAt g 0x50) 31 0 wait).bump (dispAt g (0x80 + 4 * waitBin wait)) 31 0 1
        .next { s with free := s.free + 1
                       disp := { s.disp with engines := Sparse.set none s.disp.engines engine (some (f.fn, f.handle))
                                             turn := g, serves := s.disp.serves + 1 } }

/-- An engine is done with a flow's packet (R393): the flow is ready again, idle, stopped with its job or deleted. -/
def State.engineFree (s : State) (engine fn h : Nat) (moved : Bool) : State :=
  let s := { s with disp := { s.disp with engines := Sparse.set none s.disp.engines engine none } }
  let s := if moved then (s.bump (dispAt 0 (0x904 + 8 * engine)) 31 0 1) else s
  let s := { s.bump (dispAt 0 (0x900 + 8 * engine)) 31 0 (Config.freeNat s.free) with free := s.free + 1 }
  match s.flow fn h with
  | none => s
  | some f =>
    if f.dying then s.dropFlow f
    else if f.state = .stopped then s.unpark
    else if !(s.job f.job).live then (s.setFlow { f with state := .stopped }).unpark
    else if s.flowWork f then s.makeReady f
    else (s.setFlow { f with state := .idle }).unpark

/-- A failed host access of an engine (R393): the entry's status, the event, and the flow STOPPED. -/
def State.engineDmaError (s : State) (engine : Nat) (f : Flow) (i : Nat) : State :=
  let s := (s.entryStatus f i 0x0164).setFlow { f with state := .stopped }
  (s.dispEvent f.group 5 0x0164 f.job).engineFree engine f.fn f.handle false

/-- A packet written to the slot of a port that takes the next one, its words kept until they are announced (R265, R384). -/
def State.deliver (s : State) (f : Flow) (x : Port) (len tag : Nat) (bs : List Byte) : State :=
  let at_ := x.slotAt x.count
  let head := BitVec.ofNat 64 (len + f.channel * 2 ^ 16 + tag * 2 ^ 32)
  let words := (head :: (List.range x.words).map (fun w => BitVec.ofNat 64 (leNat ((bs.drop (8 * w)).take 8)))).zipIdx
  let s := words.foldl (fun s w => s.mailWrite f.job x (at_ + w.2) w.1) s
  let kept := (s.job f.job).copies.flatMap (fun c => words.map (fun w => (x.count, x.bankNo c, at_ + w.2, w.1)))
  let s := s.setPort f.job f.port { x with count := x.count + 1, owing := x.owing ++ [some (f.fn, f.handle)]
                                           unseen := x.unseen ++ kept }
  s.writeAnn f.job f.port

/-- The packet of an H2D flow delivered to its slot (R384, R389). The engine keeps the packet while no slot is free, while the
port may not be reached, while CNT cannot be read yet, or while an entry out of range waits for those before it to complete. The packet
in hand when the job stops is finished where a slot is free for it (R393). -/
def State.engineH2d (s : State) (engine : Nat) (f : Flow) (dmaOk : Bool) : State :=
  let i := f.cidx + f.ahead
  let entry := f.entryAt i
  let len := Sparse.num s.hostMem (entry + 8) 2
  match s.port f.job f.port with
  | none => s.engineFree engine f.fn f.handle false
  | some x =>
    let live := (s.job f.job).live
    let stuck := if live then s else s.engineFree engine f.fn f.handle false
    if !f.undelivered then s.engineFree engine f.fn f.handle false
    else if !dmaOk then s.engineDmaError engine f i
    else if len = 0 ∨ 8 * x.words < len then
      if f.ahead = 0 then ((s.entryStatus f i 0x0162).completeEntry f).engineFree engine f.fn f.handle false else stuck
    else if (live && !s.portOpen f.job x) || x.overrun || !s.domainOn (x.cl / 64) then stuck
    else
      let t := s.portTurn (x.bankNo 0) [x.base + 1]
      if !t.1 then t.2
      else
        let r := t.2.cntFetch x 0
        let c := cntOf r.1
        let s := r.2
        if x.slots < cntDiff x.ann c then s.xpOverrun f.job f.port
        else if x.slots ≤ cntDiff x.count c then if live then s else s.engineFree engine f.fn f.handle false
        else
          let bs := padTo (8 * x.words) (s.hostMem.bytes (Sparse.num s.hostMem entry 8) len)
          let s := s.deliver f x len (Sparse.num s.hostMem (entry + 12) 4) bs
          let s := (s.setFlow { f with ahead := f.ahead + 1 }).bump (dispAt f.group 0x54) 31 0 1
          s.engineFree engine f.fn f.handle true

/-- The first packet that a test picks removed from a list. -/
def dropPacket (pick : Packet → Bool) : List Packet → List Packet
  | [] => []
  | k :: ks => if pick k then ks else k :: dropPacket pick ks

/-- The packet of a D2H flow written to its buffer (R389). Without a posted buffer the engine keeps it. -/
def State.engineD2h (s : State) (engine : Nat) (f : Flow) (dmaOk : Bool) : State :=
  let entry := f.entryAt f.cidx
  match (s.group f.group).queue.find? f.owns with
  | none => s.engineFree engine f.fn f.handle false
  | some k =>
    if f.pidx = f.cidx then if f.dying || !(s.job f.job).live then s.engineFree engine f.fn f.handle false else s
    else if !dmaOk then s.engineDmaError engine f f.cidx
    else
      let cap := Sparse.num s.hostMem (entry + 8) 2
      let bs := k.data.take cap
      let mem := s.hostMem.putBytes (Sparse.num s.hostMem entry 8) bs
      let mem := (mem.putBytes (entry + 8) (leBytes 2 bs.length)).putBytes (entry + 10)
        (leBytes 2 (if cap < k.data.length then 0x0163 else 0) ++ leBytes 4 k.tag)
      let g := s.group f.group
      let s := ({ s with hostMem := mem }.setGroup f.group { g with queue := dropPacket f.owns g.queue }).refillGroup f.group
      ((s.completeEntry f).bump (dispAt f.group 0x58) 31 0 1).engineFree engine f.fn f.handle true

/-- ENGINE_PACKET_DONE (R396): the packet an engine holds reaches its end. -/
def execEnginePacketDone (engine : Nat) (dmaOk : Bool) (s : State) : Host.Outcome State Fault Refusal :=
  match Sparse.get none s.disp.engines engine with
  | none => .next s
  | some k =>
    match s.flow k.1 k.2 with
    | none => .next { s with disp := { s.disp with engines := Sparse.set none s.disp.engines engine none } }
    | some f => .next (if f.h2d then s.engineH2d engine f dmaOk else s.engineD2h engine f dmaOk)

/-! ### D2H packets (R397, R401) -/

/-- A slot of a D2H port freed (R384). -/
def State.freeSlot (s : State) (j p : Nat) (x : Port) : State :=
  (s.setPort j p { x with count := x.count + 1 }).writeAnn j p

/-- The design cycle whose snapshot first exceeds packet `c`, of those a port has taken (R386). -/
def Port.label (x : Port) (c : Nat) : Option Nat := (x.snaps.find? (fun q => decide (c < q.2))).map (·.1)

/-- D2H_TAKE (R397): the next packet of a port leaves its slot for the queue of its flow's group, or for the spill ring. -/
def execD2hTake (job port : Nat) (s : State) : Host.Outcome State Fault Refusal :=
  match s.port job port with
  | none => .next s
  | some x =>
    if x.h2d || x.overrun || !s.portOpen job x then .next s
    else
      match x.label x.count with
      | none => .next s
      | some m =>
        let waits := match (s.job job).cmpDue with
          | some d => decide (d.1 ≤ m)
          | none => false
        let turn := s.portTurn (x.bankNo 0) ((List.range (x.words + 1)).map (x.slotAt x.count + ·))
        if waits then .next s
        else if !turn.1 then .next turn.2
        else
          let s := turn.2
          let read := s.slotFetch x 0 x.count
          let bytes := s.slotBytes x 0 x.count
          let s := read.2
          let hd := (read.1.getD 0 0).toNat
          let len := natBits hd 15 0
          let g := s.groupOfFn (s.job job).fn
          let x := { x with snaps := x.snaps.filter (fun q => decide (x.count + 1 < q.2)) }
          if len = 0 ∨ 8 * x.words < len then .next ((s.freeSlot job port x).event (320 + g) 0x0162 job [])
          else
            let k : Packet := { job := job, port := port, channel := natBits hd 31 16, tag := natBits hd 63 32
                                data := bytes len, label := m }
            match s.disp.flows.find? (fun f => f.owns k) with
            | none =>
              .next (((s.freeSlot job port x).bump (dispAt g 0x5C) 15 0 1).dispEvent g 4 0x0161 job)
            | some f =>
              let s := if f.state = .unloaded then s.activate f else s
              let parked := match s.flow f.fn f.handle with
                | some f => f.state == FlowState.parked
                | none => false
              let gr := s.group f.group
              if parked = true then .next s
              else if gr.spill = [] ∧ gr.queue.length < 256 then
                let s := s.setGroup f.group { gr with queue := gr.queue ++ [k] }
                .next ((s.freeSlot job port x).wakeFlow f.fn f.handle)
              else if gr.spill.length < (s.reg (dispAt f.group 0x4C)).toNat then
                .next ((s.setGroup f.group { gr with spill := gr.spill ++ [k] }).freeSlot job port x)
              else .next (if gr.full then s else (s.setGroup f.group { gr with full := true }).dispEvent f.group 3 0x0165 job)

/-! ### Flow commands and doorbells -/

/-- A flow doorbell's value reaches the dispatcher (R390). -/
def State.flowDoorbell (s : State) (fn h pidx : Nat) : State :=
  match s.flow fn h with
  | none => s.bump (dispAt (s.groupOfFn fn) 0x5C) 31 16 1
  | some f =>
    if 2 ^ f.log2 < cntDiff pidx f.cidx then
      ((s.pgErr (groupPage f.group) 0x0167 (fnRequester fn) 0).bump (dispAt f.group 0x5C) 31 16 1).dispEvent f.group 6 0x0167 f.job
    else (s.setFlow { f with pidx := pidx % 2 ^ 32 }).wakeFlow fn h



/-- The lowest handle that a function does not use (R388). -/
def State.freeHandle (s : State) (fn : Nat) : Option Nat :=
  let used := (s.disp.flows.filter (fun f => f.fn == fn)).map (·.handle)
  (List.range (used.length + 1)).find? (fun h => !used.contains h && decide (h < 131072))

/-- FLOW_CREATE (R388): refused where the job is not the function's, the port does not exist, a parameter lies out of its range, or
the channel of a D2H port has a flow. -/
def execFlowCreate (fn job port channel group : Nat) (ringBase : BitVec 64) (ringLog2 : Nat) (cidxWb : BitVec 64)
    (vector irqEvery : Nat) (s : State) : Host.Outcome State Fault Refusal :=
  match s.port job port, s.freeHandle fn with
  | some x, some h =>
    let j := s.job job
    let ok := j.state != .free && j.fn == fn && decide (channel < 65536) &&
      (group == 0 || (decide (group < 16) && s.owner (groupPage group) == (rqClass (fnRequester fn), fn))) &&
      ringBase.toNat % 16 == 0 && decide (4 ≤ ringLog2) && decide (ringLog2 ≤ 16) && cidxWb.toNat % 8 == 0 &&
      decide (vector < 8) && decide (1 ≤ irqEvery) && decide (irqEvery ≤ 256) && decide (s.disp.flows.length < 262144) &&
      (x.h2d || !s.disp.flows.any (fun f => !f.h2d && f.job == job && f.port == port && f.channel == channel))
    if ok then
      let f : Flow := { fn := fn, handle := h, job := job, port := port, channel := channel, group := group
                        ring := ringBase.toNat, log2 := ringLog2, cidxWb := cidxWb.toNat, vector := vector
                        irqEvery := irqEvery, h2d := x.h2d }
      .next { s with disp := { s.disp with flows := s.disp.flows ++ [f] } }
    else .next s
  | _, _ => .next s

/-- FLOW_RESTART (R393): a stopped flow resumes from cidx; what it had delivered and not announced completes no entry. -/
def execFlowRestart (fn handle : Nat) (s : State) : Host.Outcome State Fault Refusal :=
  match s.flow fn handle with
  | some f =>
    if f.state = .stopped ∧ !s.disp.engines.any (fun e => e.2 == some (fn, handle)) then
      let s := s.disown f
      let f := { f with ahead := 0 }
      let s := s.setFlow { f with state := .unloaded }
      if s.flowWork f then .next (s.activate { f with state := .unloaded })
      else if s.contexts < 4096 then .next (s.setFlow { f with state := .idle })
      else match s.victim with
        | some v => .next (((s.setFlow { v with state := .unloaded }).bump (dispAt 0 0x808) 31 0 1).setFlow { f with state := .idle })
        | none => .next s
    else .next s
  | none => .next s

/-- FLOW_DESTROY (R393): the current packet is finished first. -/
def execFlowDestroy (fn handle : Nat) (s : State) : Host.Outcome State Fault Refusal :=
  match s.flow fn handle with
  | some f => .next (if f.state = .service then s.setFlow { f with dying := true } else s.dropFlow f)
  | none => .next s

end Sys2Proof.Machine
end

