-- ==== Sys2Proof/Machine/Apply.lean ====
section
/-! DEFINITION. Applying held writes (R43–R55): shadows at natural boundaries, the sources that LINE_TIMING discards (R112, R496),
and transactions. -/

namespace Sys2Proof.Machine

/-- A register word as it stands once a list of held writes has applied. -/
def State.overlay (s : State) (ws : List HeldWrite) (addr : Nat) : Word :=
  ws.foldl (fun v w => if w.addr = addr then (v &&& ~~~w.mask) ||| (w.value &&& w.mask) else v) (s.reg addr)

/-- One held write applied to its register word. -/
def State.poke (s : State) (w : HeldWrite) : State :=
  s.setReg w.addr ((s.reg w.addr &&& ~~~w.mask) ||| (w.value &&& w.mask))

/-- A FABRIC source of a line, or a design port's source, meets R112: the cluster belongs to the job, and the step's last
execution falls no later than L − 32. -/
def State.sourceOk (s : State) (j cl k : Nat) : Bool :=
  let x := s.job j
  x.hasCluster cl && match Seq.lastAt k x.len 0 (s.seq (cl / 64)).restart with
    | some e => decide (e + 32 ≤ x.len)
    | none => false

/-- The value of a line's FABS_LINE_CFG is no FABRIC source that breaks R112. -/
def State.lineOk (s : State) (j : Nat) (cfg : Word) : Bool :=
  let v := cfg.toNat
  natBits v 2 0 != 6 || s.sourceOk j (natBits v 19 8) (natBits v 31 22)

/-- Whether a held write to a GPIO register keeps the rules of R496: a source as R112 lays down for the job that the port
names, a falling position of 16 to L − 16. A job without a loaded image has no steps to check. -/
def State.gpioOk (s : State) (ws : List HeldWrite) (w : HeldWrite) : Bool :=
  let off := w.addr % 0x1000
  let v := (s.overlay ws w.addr).toNat
  if 0x200 ≤ off ∧ off < 0x300 then
    let cfg := (s.overlay ws (gpioAt (0x100 + 4 * ((off - 0x200) / 16)))).toNat
    let j := natBits cfg 5 0
    (s.job j).image.isNone || s.sourceOk j (natBits v 11 0) (natBits v 23 14)
  else if 0x300 ≤ off ∧ off < 0x310 then
    let j := natBits v 5 0
    (s.job j).image.isNone || (decide (16 ≤ natBits v 22 9) && decide (natBits v 22 9 + 16 ≤ (s.job j).len))
  else true

/-- Held writes discarded with LINE_TIMING, which names the last of them (R40, R112). -/
def State.lineTiming (s : State) (page : Nat) (bad : List HeldWrite) : State :=
  match bad.getLast? with
  | some w => s.pgErr page 0x038C w.rq w.addr
  | none => s

/-- The job that holds a page's segment. -/
def State.pageJob (s : State) (page : Nat) : Option Nat :=
  if 0x1000 ≤ page ∧ page < 0x3000 then s.jobOfSeg ((page - 0x1000) / 0x80) else none

/-- The line that a FAB segment page's register configures. -/
def lineOf (addr : Nat) : Option Nat :=
  let off := addr % 0x1000
  if 0x100 ≤ off ∧ off < 0x1A0 then some ((off - 0x100) / 8) else none

/-- Held writes of a page that a rule of the block discards where they would apply. -/
def State.badWrites (s : State) (page : Nat) (ws : List HeldWrite) : List HeldWrite :=
  match pageOf page with
  | some (.fabs, g) =>
    match s.jobOfSeg g with
    | some j => ws.filter (fun w => match lineOf w.addr with
      | some n => !s.lineOk j (s.overlay ws (fabsAt g (0x100 + 8 * n)))
      | none => false)
    | none => []
  | some (.gpio, _) => ws.filter (fun w => !s.gpioOk ws w)
  | _ => []

/-- The effects of a static register's new value, written or committed: a new CLK_STEP.n makes the STEPCLK PLLs relock (R504),
LANE_CTL brings a lane up or down (R306). -/
def State.pokeEffect (s : State) (old : Word) (addr : Nat) : State :=
  if addr = PageKind.clk.at 0x40 then if s.reg addr = old then s else s.setFld (PageKind.clk.at 0x44) 3 0 0
  else match pageOf (pageNo addr) with
    | some (.lane, n) => if addr % 0x1000 = 0x40 then s.laneCtl n else s
    | _ => s

/-- Held writes of a page applied as one change, but for those a rule discards (R43, R47, R53). -/
def State.applyHeld (s : State) (page : Nat) (ws : List HeldWrite) : State :=
  let bad := s.badWrites page ws
  let s := (ws.filter (fun w => !bad.contains w)).foldl (fun s w => (s.poke w).pokeEffect (s.reg w.addr) w.addr) s
  s.lineTiming page bad

/-- The bits that a write which applies at once replaces leave the page's shadow and its partly written groups (R43). -/
def State.dropShadow (s : State) (page : Nat) (w : HeldWrite) : State :=
  let d := s.page page
  let less := fun (h : HeldWrite) => if h.addr = w.addr then { h with mask := h.mask &&& ~~~w.mask } else h
  let rest := fun (hs : List HeldWrite) => (hs.map less).filter (fun h => h.mask != 0)
  s.setPage page { d with shadow := rest d.shadow, pairs := rest d.pairs }

/-- Held writes applied past the shadow, whose older values they replace (R43). -/
def State.applyOver (s : State) (page : Nat) (ws : List HeldWrite) : State :=
  (ws.foldl (fun s w => s.dropShadow page w) s).applyHeld page ws

/-- The whole shadow of a page applied. -/
def State.applyShadow (s : State) (page : Nat) : State :=
  let d := s.page page
  if d.shadow = [] then s
  else (s.setPage page { d with shadow := [] }).applyHeld page d.shadow

/-- The part of a page's shadow that a test picks applied. -/
def State.applyPart (s : State) (page : Nat) (pick : HeldWrite → Bool) : State :=
  let d := s.page page
  let now := d.shadow.filter pick
  if now = [] then s
  else (s.setPage page { d with shadow := d.shadow.filter (fun w => !pick w) }).applyHeld page now

/-- The staging set of a GPIO register, by the register that names its job (R498). -/
def gpioSetCfg (addr : Nat) : Nat :=
  let off := addr % 0x1000
  if off < 0x200 then addr
  else if off < 0x300 then gpioAt (0x100 + 4 * ((off - 0x200) / 16))
  else addr

/-- The GPIO staging sets whose job is `j` apply (R498). -/
def State.applyGpioSets (s : State) (j : Nat) : State :=
  let ws := (s.page 4).shadow
  s.applyPart 4 (fun w => natBits (s.overlay ws (gpioSetCfg w.addr)).toNat 5 0 == j)

/-- The staged fields of a job's checkpoint slot apply at its checkpoint boundary (R283). -/
def State.applyCkptSlot (s : State) (j : Nat) : State :=
  s.applyPart (0x121 + j / 8) (fun w => decide (ckptAt j 0 ≤ w.addr) && decide (w.addr < ckptAt j 0x80))

/-! ### Transactions (R53–R55) -/

/-- The pages of transaction: the page itself, or a slot's members. -/
inductive TxnRef where
  | page (n : Nat)
  | slot (t : Nat)
  deriving DecidableEq, Repr

/-- A slot of the DEV page. -/
def State.slotAt (s : State) (t : Nat) : TxnSlot := s.slots.getD t {}

/-- The state with a slot changed. -/
def State.setSlot (s : State) (t : Nat) (x : TxnSlot) : State := { s with slots := s.slots.set t x }

/-- The pages that a transaction holds. -/
def State.txnPages (s : State) (r : TxnRef) : List Nat :=
  match r with
  | .page n => [n]
  | .slot t => (s.slotAt t).pages

/-- A transaction ends: its pages are free of it, and its state shows how. -/
def State.txnEnd (s : State) (r : TxnRef) (st : TxnState) (reason : Nat) : State :=
  match r with
  | .page n => s.setPage n { s.page n with txn := st, reason := reason, leftUs := 0, held := [] }
  | .slot t =>
    let x := s.slotAt t
    let s := x.pages.foldl (fun s n => s.setPage n { s.page n with txn := .free, held := [], slot := none }) s
    s.setSlot t { x with state := st, reason := reason, leftUs := 0, pages := [], last := none }

/-- The page that reports on a transaction: its own, or DEV. -/
def TxnRef.reportPage : TxnRef → Nat
  | .page n => n
  | .slot _ => 0

/-- The access that PG_ERR_INFO names for a rollback (R40): at the COMMIT that a check refuses, the opener's write of it; else the last
write that the transaction holds, and for a transaction that holds none its opener's control register (DESIGN CHOICE,
assumption 67). -/
def State.txnAccess (s : State) (r : TxnRef) (atCommit : Bool) : Requester × Nat :=
  let ctl := match r with
    | .page n => ((s.page n).opener, 0x30)
    | .slot t => ((s.slotAt t).opener, 0x200 + 0x200 * t)
  let last := match r with
    | .page n => (s.page n).held.getLast?
    | .slot t => (s.slotAt t).last
  match last with
  | some w => if atCommit then ctl else (w.rq, w.addr)
  | none => ctl

/-- A transaction rolls back without a ROLLBACK write (R39, R40, R54, R55). -/
def State.txnAbort (s : State) (r : TxnRef) (code : Nat) (atCommit : Bool) : State :=
  let a := s.txnAccess r atCommit
  ((s.txnEnd r .rolledBack (code % 256)).pgErr r.reportPage code a.1 a.2).raiseIrq r.reportPage 2

/-! ### Busy (R39, R42) -/

/-- A job keeps its FAB pages busy (R42): it runs, is held or paused, or stands in the middle of a design cycle. -/
def State.fabBusy (s : State) (j : Nat) : Bool :=
  (segsOf (s.job j).mask).any (fun g => match (s.seq g).state with
    | .idle => false
    | .halted => (s.job j).e != 0
    | _ => true)

/-- A field of the page is locked by its block: PG_STAT.busy, taken by slot where the page holds several (R42, R51, R283, R300,
R352, R434). -/
def State.busy (s : State) (addr : Nat) : Bool :=
  let page := pageNo addr
  let off := addr % 0x1000
  match pageOf page with
  | some (.dev, _) =>
    let x := s.slotAt ((off - 0x200) / 0x200)
    0x200 ≤ off && decide (off < 0xA00) && (x.state == .opened || x.state == .commitPending)
  | some (.clk, _) => s.anyLive
  | some (.fabs, _) | some (.fabc, _) => match s.pageJob page with
    | some j => s.fabBusy j
    | none => false
  | some (.cap, _) => [CapState.armed, .post, .rearm].contains s.cap.state
  | some (.mbox, _) => s.flag (addr - off + 0x50) 0
  | some (.ckpt, i) => i != 0 && (s.job ((i - 1) * 8 + (off - 0x40) / 0x80)).prot.state != .off
  | some (.lane, n) =>
    s.flag (laneAt n 0x50) 31 || (off == 0x48 && ! [LaneState.off, .failed, .test].contains (s.lane n).state)
  | some (.laneGroup, _) => (List.range 64).any (fun n => (s.lane n).state != .off)
  | some (.trace, _) => s.tracing
  | some (.time, _) => s.pgEnabled 7
  | some (.scrub, _) => s.flag (PageKind.scrub.at 0x44) 0
  | some (.disp, g) => (List.range 32).any (fun e => match Sparse.get none s.disp.engines e with
    | some k => match s.flow k.1 k.2 with
      | some f => f.group == g
      | none => false
    | none => false)
  | _ => false

/-- The paired group of a register word (R47): its first word's offset within the page; a line's configuration and pattern (R113),
the two words of the time increment (R317). -/
def pairGroup (addr : Nat) : Option Nat :=
  let off := addr % 0x1000
  match pageOf (pageNo addr) with
  | some (.fabs, _) => (lineOf addr).map (fun n => 0x100 + 8 * n)
  | some (.time, _) => if off = 0x58 ∨ off = 0x5C then some 0x58 else none
  | _ => none

/-- A list of held writes completes a group: both of its words are among them. -/
def groupWhole (ws : List HeldWrite) (page group : Nat) : Bool :=
  [group, group + 4].all (fun o => ws.any (fun w => w.addr == page * 0x1000 + o))

/-- The bits of a list of fields. -/
def fieldMask (fs : List Field) : Word :=
  fs.foldl (fun a f => a ||| BitVec.ofNat 32 ((2 ^ (f.hi + 1 - f.lo) - 1) * 2 ^ f.lo)) 0

/-- The checks of a COMMIT (R48, R54): WR_BUSY where a member with a held static write is busy, PAIR_INCOMPLETE where a group is
partly written. -/
def State.commitFault (s : State) (r : TxnRef) : Option Nat :=
  let isStatic := fun (w : HeldWrite) =>
    (fieldsAt (pageNo w.addr) (w.addr % 0x1000)).any (fun f => f.eff == .static && fieldMask [f] &&& w.mask != 0)
  let ps := s.txnPages r
  if ps.any (fun n => (s.page n).held.any (fun w => isStatic w && s.busy w.addr)) then some 1
  else if ps.any (fun n => (s.page n).held.any (fun w => match pairGroup w.addr with
      | some g => !groupWhole (s.page n).held n g
      | none => false)) then some 4
  else none

/-- Every held write of every member applies at one instant (R53); those of a frozen page wait for it to unfreeze (R469). -/
def State.txnApply (s : State) (r : TxnRef) : State :=
  let s := (s.txnPages r).foldl (fun s n =>
    let d := s.page n
    if d.frozen then s.setPage n { d with waits := d.waits ++ d.held.map FrozenWrite.held } else s.applyOver n d.held) s
  s.txnEnd r .committed 0

/-- A COMMIT that waited for a boundary applies there, if the checks still find nothing against it (R53, R54). -/
def State.txnLand (s : State) (r : TxnRef) : State :=
  match s.commitFault r with
  | some c => s.txnAbort r c false
  | none => s.txnApply r

/-- The transactions that wait for a boundary of job `j` (R53). -/
def State.pendingTxns (s : State) (j : Nat) : List TxnRef :=
  let pages := (s.pages.filter (fun e => e.2.txn == .commitPending && s.pageJob e.1 == some j)).map (fun e => TxnRef.page e.1)
  let slots := (List.range 4).filter (fun t => (s.slotAt t).state == .commitPending &&
    (s.slotAt t).pages.any (fun n => s.pageJob n == some j))
  pages ++ slots.map TxnRef.slot

/-- STAGED_APPLY and TXN_APPLY at a job's boundary (R44, R45, R53): the shadows of its FAB pages, of the CAP pages of its
session and of the GPIO sets that name it, and the transactions that wait for it. -/
def State.boundaryWrites (s : State) (j : Nat) : State :=
  let pages := (s.pages.filter (fun e => s.pageJob e.1 == some j)).map (·.1)
  let s := pages.foldl (fun s n => s.applyShadow n) s
  let s := if s.cap.job = some j then [0x110, 0x111, 0x112].foldl (fun s n => s.applyShadow n) s else s
  let s := s.applyGpioSets j
  (s.pendingTxns j).foldl State.txnLand s

end Sys2Proof.Machine
end

