-- ==== Sys2Proof/Machine/Boundary.lean ====
section
/-! DEFINITION. The design-cycle boundary (R93) and what comes about in it: lines (R110–R113), staged release (R237), design ports
(R496, R497), the capture record (R338), the replay log (R265), regions (R240), checkpoints (R259–R261), the frontier (R271)
and RUN_UNTIL (R449); and the period of a job (R89, R91). -/

namespace Sys2Proof.Machine

/-- The stage of staged release in design cycle `m` (R237). -/
def Job.stageAt (x : Job) (m : Nat) : Nat :=
  if x.bulk then 3
  else if m < x.d1 then 0
  else if m < x.d1 + x.d2 then 1
  else if m < x.d1 + x.d2 + x.d3 then 2
  else 3

/-! ### Lines (R110–R113) -/

/-- The level that the replay log holds for a line's source in design cycle `m` (R265): the last change up to it. -/
def loggedLine (log : List LogItem) (n m : Nat) : Bool :=
  log.foldl (fun v i => match i with
    | .line m' n' l => if n' = n ∧ m' ≤ m then l else v
    | _ => v) false

/-- The bit that FABS_LINE_CFG_n's source gives line `n` of a job for its present design cycle, before inversion (R111). -/
def State.lineSource (s : State) (j n : Nat) : Bool :=
  let x := s.job j
  let cfg := (s.reg (fabsAt x.lead (0x100 + 8 * n))).toNat
  let pat := (s.reg (fabsAt x.lead (0x104 + 8 * n))).toNat
  let logged := loggedLine x.prot.log n x.m
  match natBits cfg 2 0 with
  | 0 => natBit cfg 4
  | 1 => if x.reexec then logged else s.flag (fabsAt x.lead 0x1A0) n || s.flag (fabsAt x.lead 0x1A4) n
  | 2 => decide ((x.m + natBits cfg 23 8) % natBits pat 15 0 < natBits pat 31 16)
  | 3 => decide (x.m < natBits cfg 23 8)
  | 4 =>
    if x.reexec then logged
    else match s.port j (natBits cfg 11 8) with
      | some p => p.rang
      | none => false
  | 5 => if x.reexec then logged else s.inputLevel (137 + natBits cfg 9 8)
  | 6 => x.m != 0 && Sparse.get false s.fab.taps ((natBits cfg 19 8 * 4 + natBits cfg 21 20) * 1024 + natBits cfg 31 22)
  | _ => false

/-- A change of a HOST, DISPATCH or TRIG source recorded in the replay log (R265). -/
def State.logLine (s : State) (j n : Nat) : State :=
  let x := s.job j
  let src := s.fld (fabsAt x.lead (0x100 + 8 * n)) 2 0
  if x.prot.state = .off ∨ x.reexec ∨ ¬ [1, 4, 5].contains src then s
  else
    let v := s.lineSource j n
    if loggedLine x.prot.log n x.m = v then s
    else s.setJob j { x with prot := { x.prot with log := x.prot.log ++ [.line x.m n v] } }

/-- LINE_UPDATE (R111): each line's value for the job's present design cycle, GRST0–GRST3 forced to 1 below stage 3 (R238);
pending pulses are cleared. A pulse of a line whose source is not HOST is cleared with the others, and during re-execution, which
takes the lines from the log, pulses stay pending: the spec says neither (DESIGN CHOICE, assumption 72). -/
def State.updateLines (s : State) (j : Nat) : State :=
  let s := (List.range 20).foldl (fun s n => s.logLine j n) s
  let x := s.job j
  let forced := decide (x.stage < 3)
  let v := (List.range 20).foldl (fun a n =>
    let bit := (s.lineSource j n) ^^ s.flag (fabsAt x.lead (0x100 + 8 * n)) 3
    a + boolNat (bit || (forced && decide (16 ≤ n))) * 2 ^ n) 0
  let s := s.setJob j { x with lines := v }
  if x.reexec then s else s.setReg (fabsAt x.lead 0x1A4) 0

/-! ### Design ports (R496, R497) -/

/-- The boundary that ends design cycle `m` lets a job's design ports take a sample: stage 0 and, in compare mode, the cycle
held back are over (R497). -/
def Job.portsOpen (x : Job) (m : Nat) : Bool :=
  decide ((if x.bulk then 0 else x.d1) + boolNat x.compare ≤ m)

/-- The sample of a design-port bit in the design cycle just ended, and whether the bit may drive it: its stage is past 0 and its
source is in no region under reload (R496, R497). -/
def State.dpSample (s : State) (j q m : Nat) : Bool × Bool :=
  let src := (s.reg (gpioAt (0x200 + 4 * q))).toNat
  let cl := natBits src 11 0
  (Sparse.get false s.fab.taps ((cl * 4 + natBits src 13 12) * 1024 + natBits src 23 14),
   decide ((s.job j).stageAt m ≠ 0) && !(s.seq (cl / 64)).region)

/-- DESIGN_PORT_UPDATE (R497): the bits of the job's ports and its DP_CLKs at the boundary that ends design cycle `m`. -/
def State.updatePorts (s : State) (j m : Nat) : State :=
  let x := s.job j
  let mine := (List.range 64).filter (fun q =>
    s.flag (gpioAt (0x100 + 4 * (q / 4))) 8 && s.fld (gpioAt (0x100 + 4 * (q / 4))) 5 0 == j)
  let put := fun (v : BitVec 64) (q : Nat) (b : Bool) =>
    if b then v ||| BitVec.ofNat 64 (2 ^ q) else v &&& ~~~(BitVec.ofNat 64 (2 ^ q))
  let s := mine.foldl (fun s q =>
    let now := s.dpSample j q m
    let p := s.pins
    let use := if x.compare then (p.before.getLsbD q, p.beforeOk.getLsbD q) else now
    let p := if x.compare then { p with before := put p.before q now.1, beforeOk := put p.beforeOk q now.2 } else p
    let p := { p with samples := if use.2 then put p.samples q use.1 else p.samples, driven := put p.driven q use.2 }
    { s with pins := p }) s
  if x.portsOpen m then
    let up := (List.range 4).foldl (fun a c =>
      let r := gpioAt (0x300 + 4 * c)
      if s.flag r 8 && s.fld r 5 0 == j then a + 2 ^ c else a) 0
    { s with pins := { s.pins with dpClk := s.pins.dpClk ||| BitVec.ofNat 4 up } }
  else s

/-- In re-execution the design ports hold (R270), and compare mode holds back the sample of each design cycle that is repeated: the
frontier releases that of m_f − 1 (R278). -/
def State.holdPorts (s : State) (j m : Nat) : State :=
  if (s.job j).compare then
    let p := s.pins
    let q := (s.updatePorts j m).pins
    { s with pins := { p with before := q.before, beforeOk := q.beforeOk } }
  else s

/-- The design-port values of a job's copy at a boundary, folded into its signature (R265, R278): copy B's sources lie 2,048
clusters on. -/
def State.portBytes (s : State) (j copy : Nat) : List Byte :=
  let v := (List.range 64).foldl (fun a q =>
    if s.fld (gpioAt (0x100 + 4 * (q / 4))) 5 0 = j then
      let src := (s.reg (gpioAt (0x200 + 4 * q))).toNat
      let cl := natBits src 11 0 + 2048 * copy
      a + boolNat (Sparse.get false s.fab.taps ((cl * 4 + natBits src 13 12) * 1024 + natBits src 23 14)) * 2 ^ q
    else a) 0
  leBytes 8 v

/-! ### Capture (R338) -/

/-- The record of design cycle `m` set out for the capture engine at the boundary that ends it (R338, R339): its samples, the
markers owed, the lines, TRIG_IN0–3 and the time. Re-execution writes again from m_f on, whose record a REPLAY record precedes; a
boundary crossed before the rollback's halt takes effect has none (R270, R350). A record of
the first run that still waits for its compare holds what the re-execution gives: that of m_f gives way to the new one, and that of an
earlier design cycle takes the samples made anew (R278, R339). -/
def State.captureRecord (s : State) (j m : Nat) : State :=
  if s.cap.job = some j then
    let x := s.job j
    let skip := match x.prot.replay with
      | some r => decide (m < r.mF)
      | none => false
    let c := s.cap
    if [CapState.idle, .done, .stopped].contains c.state then { s with cap := { c with gather := [] } }
    else if skip then
      { s with cap := { c with gather := [], recs := c.recs.map (fun r => if r.m = m ∧ r.wait then { r with bits := c.gather } else r) } }
    else
      let segs := (List.range 64).filter (fun g => c.probes.any (fun (p : Nat × Nat × Nat) => p.1 / 64 == g))
      let trig := (List.range 4).foldl (fun a i => a + boolNat (s.inputLevel (137 + i)) * 2 ^ i) 0
      let r : CapRec := { m := m, bits := c.gather, owed := segs, cut := segs.any (fun g => (s.seq g).region)
                          lines := x.lines, trig := trig, stamp := s.time.now, wait := x.compare
                          replay := if x.reexec then (x.prot.replay.filter (fun r => m == r.mF)).map (·.mC) else none }
      { s with cap := { c with gather := [], recs := c.recs.filter (fun o => !(o.m == m && o.wait)) ++ [r] } }
  else s

/-! ### The replay log (R265, R270) -/

/-- The logged signature of a design cycle. -/
def loggedSig (log : List LogItem) (m : Nat) : Option (BitVec 64) :=
  log.findSome? (fun i => match i with
    | .sig m' c => if m' = m then some c else none
    | _ => none)

/-- A design cycle of the log contains a hold (R265). -/
def loggedHold (log : List LogItem) (m : Nat) : Bool :=
  log.any (fun i => match i with
    | .hold m' _ _ => m' == m
    | _ => false)

/-- The output signature of design cycle `m` recorded, or compared with the log where it is repeated: REPLAY_DIVERGE (R265, R270). -/
def State.logSignature (s : State) (j m : Nat) : State :=
  let x := s.job j
  if x.prot.state = .off then s
  else
    let x := x.foldOut (s.portBytes j 0)
    let s := s.setJob j { x with outSig := 0 }
    if x.repeats then
      let differs := match loggedSig x.prot.log m with
        | some c => c != x.outSig
        | none => false
      if differs then s.event j 0x0605 j [] else s
    else
      let others := x.prot.log.filter (fun i => match i with
        | .sig m' _ => m' != m
        | _ => true)
      s.setJob j { x with outSig := 0, prot := { x.prot with log := others ++ [.sig m x.outSig] } }

/-- The logged deliveries that the design first sees in a design cycle, written again to the mailboxes in re-execution (R265, R399). -/
def State.replayTxns (s : State) (j : Nat) : State :=
  let x := s.job j
  if x.reexec then
    x.prot.log.foldl (fun s i => match i with
      | .txn m bank w d => if m = x.m then s.portStore .engine bank w d else s
      | _ => s) s
  else s

/-! ### Regions (R240) -/

/-- REGION_STOP: at B1 the region's sequencers go idle and its outputs park (R135, R240). -/
def State.regionStop (s : State) (j : Nat) : State :=
  let x := s.job j
  match x.reload with
  | some r =>
    if !r.parked && !x.reexec && decide (r.b1 ≤ x.m) then
      let s := (segsOf r.mask).foldl (fun s g =>
        s.setSeq g { s.seq g with state := .idle, region := true }) s
      let x := s.job j
      s.setJob j { x with state := .reloading, reload := some { r with parked := true } }
    else s
  | none => s

/-- A block of an image whose scope is the job (R211). -/
def Block.jobScope (b : Block) : Bool := [0x07, 0x08, 0x09, 0x12, 0x13].contains b.type

/-- The reservation of a job once the entries appended for a list of segments, in the order of its mask, replace theirs (R230,
R240). -/
def Job.swapReserve (x : Job) (segs : List Nat) : List (Nat × Nat × Nat) :=
  let n := (segsOf x.mask).length
  (segsOf x.mask).zipIdx.flatMap (fun g =>
    let at_ := match segs.findIdx? (· == g.1) with
      | some i => n + i
      | none => g.2
    (x.reserve.drop (4 * at_)).take 4)

/-- REGION_REJOIN: at B2 the region runs again at position 0, the new copy is the verified copy, and a checkpoint of the whole job
is due (R240, R260). The reload command completes. A design cycle that is repeated is no B2. -/
def State.regionRejoin (s : State) (j : Nat) : State :=
  let x := s.job j
  match x.reload with
  | some r =>
    if r.parked && r.written && !x.reexec && decide (r.b2 ≤ x.m) then
      let segs := segsOf r.mask
      let s := segs.foldl (fun s g =>
        s.setSeq g { (s.seq g).restart.going with region := false }) s
      let copy := segs.foldl (fun c g => Sparse.clearRange c (cfgBase (g * 64)) (cfgBase (g * 64 + 64))) s.fab.copy
      let put := fun (c : Sparse Byte) (e : Nat × Byte) => Sparse.set 0 c e.1 e.2
      let s := { s with fab := { s.fab with copy := r.stores.foldl put copy }, scrub := { s.scrub with skip := s.scrub.skip ||| r.mask } }
      let keep := match x.image with
        | some im =>
          let stays := fun (b : Block) => b.jobScope || !segs.contains b.seg
          some { im with blocks := im.blocks.filter stays ++ r.image.blocks.filter (fun (b : Block) => !b.jobScope) }
        | none => none
      let x := s.job j
      let asked := match x.prot.requested with
        | some t => min t x.m
        | none => x.m
      let s := s.setJob j { x with state := .active, reload := none, image := keep, reserve := x.swapReserve (segsOf r.mask)
                                   prot := { x.prot with requested := if x.prot.state = .off then none else some asked } }
      s.complete r.call 0x0302 0 0 []
    else s
  | none => s

/-! ### The boundary (R93) -/

/-- A checkpoint falls at the boundary that begins the job's present design cycle (R259, R260): scheduled or requested, not while
a region is out (R241) nor during a rollback (R270). -/
def State.ckptDue (s : State) (j : Nat) : Bool :=
  let x := s.job j
  let asked := match x.prot.requested with
    | some t => decide (t ≤ x.m)
    | none => false
  x.prot.state == .armed && x.state != .reloading &&
    (asked || (if x.prot.first then x.m % 1024 == 0 else x.m % 2 ^ s.fld (ckptAt j 0) 6 1 == 0))

/-- What REPLAY_DONE carries (R271): W0 of the fault record, the low words of m_c and m_f, attempts and ext_exposed, which are the
detail that the log shows; then the record's other words, the high words, and the time from fault to frontier. The order is the
model's own (DESIGN CHOICE, assumption 84). -/
def replayDetail (r : Replay) (attempts now : Nat) : List Word :=
  let d := r.fault.toWords
  let time := unsignedOf 64 ((now : Int) - r.fault.ns)
  d.take 1 ++ [BitVec.ofNat 32 r.mC, BitVec.ofNat 32 r.mF, BitVec.ofNat 32 (attempts + boolNat r.extExposed * 2 ^ 8)] ++ d.drop 1 ++
    [BitVec.ofNat 32 (r.mC / 2 ^ 32), BitVec.ofNat 32 (r.mF / 2 ^ 32), BitVec.ofNat 32 time, BitVec.ofNat 32 (time / 2 ^ 32)]

/-- FRONTIER (R271): the boundary that ends the re-execution of m_f. The peers' next marker is a new one (R298); a compare fault's
attempts count on until the compare of m_f has passed (R279). -/
def State.frontier (s : State) (j : Nat) : State :=
  let x := s.job j
  match x.prot.replay with
  | some r =>
    if x.reexec && decide (r.mF < x.m) then
      let recent := if r.fault.code = 0x388 then some (r.fault, x.prot.attempts) else x.prot.recent
      let s := s.setJob j { x with prot := { x.prot with state := .armed, replay := none, attempts := 0, recent := recent } }
      let s := (s.peerLanes j).foldl (fun s n => s.setLane n { s.lane n with markerSeen := none }) s
      let s := (s.bump (ckptAt j 0x18) 31 0 1).scoreAdd 3875 1
      let s := s.event j 0x0602 j (replayDetail r x.prot.attempts s.flat)
      (s.finishJob j 0x0605 0 (leBytes 8 r.mF)).xpRewake j
    else s
  | none => s

/-- The counters of the design cycle just ended, as the cluster pages show them (R136, R151, R173, R201). -/
def State.latchCounters (s : State) (j : Nat) : State :=
  let x := s.job j
  let place : Nat → Nat × Nat := fun i => match i with
    | 0 => (0x114, 19)
    | 1 => (0x14C, 14)
    | 2 => (0x150, 7)
    | 3 => (0x1B4, 16)
    | _ => (0x20C + 0x10 * (i - 8), 15)
  let s := (segsOf x.mask).foldl (fun s g => (clustersOf g).foldl (fun s cl =>
    [0, 1, 2, 3, 8, 9, 10, 11, 12, 13, 14, 15].foldl (fun s i =>
      let p := place i
      let v := Sparse.get 0 s.fab.cyc (cl * 16 + i)
      let v := min (2 ^ (p.2 + 1) - 1) v
      if s.fld (fabcAt cl p.1) p.2 0 = v then s else s.setFld (fabcAt cl p.1) p.2 0 v) s) s) s
  { s with fab := { s.fab with cyc := s.fab.cyc.filter (fun e => !x.hasCluster (e.1 / 16)) } }

/-- The queues' issue counts start anew in the design cycle (R182), no WAU operation reaches into it (R149), and every injection
register holds 0 at its position 0 (R119, R124). -/
def State.resetIssues (s : State) (j : Nat) : State :=
  let x := s.job j
  let qs := s.fab.queues.map (fun e =>
    if x.hasCluster (e.1 / 8) then let q : Mq := e.2; (e.1, { q with issued := 0 }) else e)
  { s with fab := { s.fab with queues := qs.filter (fun e => e.2 != ({} : Mq))
                               pipe := s.fab.pipe.filter (fun e => !x.hasCluster e.1)
                               inj := s.fab.inj.filter (fun e => !x.hasCluster (e.1 / 32)) } }

/-- The compare of the design cycle just ended falls due (R278). The design-port values are the fourth item of each signature. -/
def State.compareDue (s : State) (j m : Nat) : State :=
  let x := s.job j
  if x.compare then
    let items := x.sigs ++ [0, 1].map (fun c => ⟨c, 3, 0, 0, 0, s.portBytes j c⟩)
    s.setJob j { x with cmpDue := some (m, signature items 0, signature items 1), sigs := [] }
  else s

/-- The waiting checkpoint requests that a usable checkpoint of design cycle `m` serves complete: those made before `m` (R451). -/
def State.ckptServed (s : State) (j m : Nat) : State :=
  s.finish (fun w => w.op == 0x0603 && w.job == j && decide (w.arg < m)) 0 0 (fun _ => leBytes 8 m)

/-- The compare that is due is made (R264, R278, R279): the two copies' signatures agree, and what waited for that is free; or
CMP_MISMATCH, which tells both of them. -/
def State.compareNow (s : State) (j : Nat) : State :=
  let x := s.job j
  match x.cmpDue with
  | none => s
  | some (m, a, b) =>
    let s := s.setJob j { x with cmpDue := none }
    if a = b then
      let hit := x.prot.retained.any (fun c => c.m == m + 1 && !c.usable)
      let kept := x.prot.retained.map (fun c => if c.m = m + 1 then { c with usable := true } else c)
      let recent := x.prot.recent.filter (fun f => decide (m < f.1.m))
      let s := s.setJob j { s.job j with prot := { x.prot with retained := kept, recent := recent } }
      let s := if s.cap.job = some j then
          { s with cap := { s.cap with recs := s.cap.recs.map (fun r => if r.m = m then { r with wait := false } else r) } }
        else s
      if hit then s.ckptServed j (m + 1) else s
    else
      let words := [a, b].flatMap (fun v => [BitVec.ofNat 32 v.toNat, BitVec.ofNat 32 (v.toNat / 2 ^ 32)])
      (s.bump (ckptAt j 0x1C) 15 0 1).stopFor j
        { code := 0x388, phase := 4, cls := 1, job := j, m := m, w6 := a.toNat % 2 ^ 32, w7 := b.toNat % 2 ^ 32, extra := words }

/-- A state given to every sequencer of a job that takes part in its positions. -/
def State.setActive (s : State) (j : Nat) (f : Seq → Seq) : State :=
  (s.activeSegs j).foldl (fun s g => s.setSeq g (f (s.seq g))) s

/-- The job stands before position 0 of its RUN_UNTIL target (R109, R449); `before` is what a resume goes on from. -/
def State.reachTarget (s : State) (j : Nat) (before : Seq → SeqState) : State :=
  let s := s.setActive j (fun q => { q with before := before q, state := .halted })
  let s := (s.setJob j { s.job j with untilM := none, haltedBy := some .command }).flushWritebacks j
  s.finishJob j 0x0405 0 (leBytes 8 (s.job j).m)

/-- Where the job stands once the boundary is made (R109): PAUSE at a checkpoint boundary, HALTED at the RUN_UNTIL target, or
running. A target that is a checkpoint boundary halts the job when the copy is complete. -/
def State.afterBoundary (s : State) (j : Nat) : State :=
  let x := s.job j
  if s.ckptDue j then
    let s := s.applyCkptSlot j
    let x := s.job j
    ((s.setActive j (fun q => { q with state := .pause })).setJob j { x with prot := { x.prot with state := .copying } }).flushWritebacks j
  else if x.untilM = some x.m then (s.hudRelease j).reachTarget j (fun q => q.going.state)
  else (s.hudRelease j).setActive j Seq.going

/-- The announcement of a checkpoint leaves the job's huddle copies once its design cycle is completed: until then a copy with done_m =
m_t − 1 carries it (R329). -/
def State.ckPassed (s : State) (j : Nat) : State :=
  let past := signedOf 8 (unsignedOf 8 (((s.job j).m : Int) - s.fld (hudAt j 4) 15 8))
  if s.flag (hudAt j 4) 6 ∧ 0 < past then s.setFlag (hudAt j 4) 6 false else s

/-- DESIGN_CYCLE_BOUNDARY (R93): the boundary of a job, on the edge that ends position L − 1 or the last hold step. -/
def State.boundary (s : State) (j : Nat) : State :=
  let m := (s.job j).m
  let s := s.latchCounters j
  let s := s.xpSnapshot j m
  let s := s.captureRecord j m
  let s := (s.compareDue j m).logSignature j m
  let s := s.closeBlocks j
  -- 1. m increments
  let s := (s.setJob j { s.job j with m := m + 1 }).ckPassed j
  -- design ports stand still in re-execution until the frontier, whose boundary updates them
  let s := s.frontier j
  let s := if (s.job j).reexec then s.holdPorts j m else s.updatePorts j m
  -- 2. staged writes
  let s := s.boundaryWrites j
  -- 3. lines and staged release
  let s := s.setJob j { s.job j with stage := (s.job j).stageAt (m + 1) }
  let s := ((s.xpAnnounce j).replayTxns j).updateLines j
  -- 4. offsets, k and e
  let s := (s.activeSegs j).foldl (fun s g => s.setSeq g (s.seq g).restart) s
  let s := s.resetIssues j
  -- 5. status bits
  let x := s.job j
  let held := if x.reexec then loggedHold x.prot.log m else x.held
  let sub := fun (h : Option Nat) => h.map (fun p => p - x.len)
  let s := s.setJob j { x with e := 0, stHeld := held, held := false, gate := false, holdAt := sub x.holdAt }
  (((s.regionRejoin j).regionStop j).afterBoundary j).xpAnn j

/-- What RUN_HALT returns (R448): m, the position that executes next, and at_boundary. -/
def State.haltResult (s : State) (j : Nat) : List Byte :=
  let x := s.job j
  leBytes 8 x.m ++ leBytes 2 (if x.e = x.len then 0 else x.e) ++ leBytes 1 (boolNat (x.e == 0 && x.state != .starting))

/-- The job stops before its boundary (R108): waiting RUN_HALT commands complete (R448). -/
def State.stopBefore (s : State) (j : Nat) : State :=
  let s := s.closeBlocks j
  let s := s.mapSeqs j (fun q => if q.state = .run ∨ q.state = .pad ∨ q.state = .hold then { q with before := q.state, state := .stopped } else q)
  (s.flushWritebacks j).finishJob j 0x0402 0 (s.haltResult j)

/-! ### The checks of holds (R102–R104, R325, R326) -/

/-- The boundary that ends the present design cycle is a checkpoint boundary, as the frontier and a region's B1 and B2 leave it. It
comes with no release of the next design cycle, which is tested after the pause (R109): so its done_m can release the peers at
an announced checkpoint (R325, R329). -/
def State.ckptNext (s : State) (j : Nat) : Bool :=
  let s := s.setJob j { s.job j with m := (s.job j).m + 1 }
  (((s.frontier j).regionRejoin j).regionStop j).ckptDue j

/-- The release that position `h` needs is missing (R103, R109, R325): `h = L` is position 0 of the next design cycle, and position 0 in a
hold that of the present one. -/
def State.shut (s : State) (j h : Nat) (inHold : Bool) : Bool :=
  let x := s.job j
  if h = x.len then !s.released j (x.m + 1) && !s.ckptNext j else h = 0 && inHold && !s.released j x.m

/-- The `gate` of a job after a check of position `h`. -/
def State.noteGate (s : State) (j h : Nat) : State :=
  let x := s.job j
  if h = x.len then s.setJob j { x with gate := !s.released j (x.m + 1) } else s

/-- The hold notice made in the period that executes position `e` (R102, R325, R326): a hold before position e + 16 is
decided where a condition is not met. While a hold is decided, the checks fall to its blocks, and the notice for a position up
to 15 later to the steps of its last block (`State.lateCheck`). -/
def State.notice (s : State) (j : Nat) : State :=
  let x := s.job j
  if x.ue || x.holdAt.isSome then s
  else
    let p := x.e + 16
    let s := s.noteGate j p
    let waits := s.unmetWaits j (if p < x.len then [16] else [])
    let huddle := s.shut j p false || s.peerMissing j (x.m * x.len + p)
    if waits = [] && !huddle then s
    else s.setJob j { s.job j with holdAt := some p, waitSegs := waits, hudHold := huddle }

/-- The first step of a hold block: the block's checks (R102, R103, R326), its counting, as a huddle hold block too (R334), and the
record of the hold. A block that a halt cuts short counts, and so does the new block after the resume: the spec does not say which
of them FABS_HOLD_LAST.blocks counts (DESIGN CHOICE, assumption 71). An uncorrectable error found in a hold lets the block in
progress end, and where that was not the last, one more block is the last: R108 does not say when such a hold ends (DESIGN CHOICE,
assumption 112). -/
def State.openBlock (s : State) (j : Nat) : State :=
  let s := s.noteGate j (s.job j).e
  let x := s.job j
  let waits := s.unmetWaits j (List.range (min 16 (x.len - x.e)))
  let shut := s.shut j x.e true
  let huddle := shut || s.peerMissing j (x.m * x.len + x.e)
  let s := if x.hudHold || huddle then s.bump (hudAt j 8) 31 0 1 else s
  let s := if shut then s.hudWait j else s
  s.setJob j { x with blocks := x.blocks + 1, lastBlk := x.ue || (waits.isEmpty && !huddle)
                      waitSegs := x.waitSegs ++ waits.filter (fun g => !x.waitSegs.contains g), hudHold := x.hudHold || huddle }

/-- A later step of a hold's last block, 16 periods before the position `block` after the held one: the peer word of that position is
checked (R326), and where it is position 0 of the next design cycle its release (R103, R325). -/
def State.lateCheck (s : State) (j : Nat) : State :=
  let x := s.job j
  let p := x.e + x.block
  if x.lastBlk && !x.ue && x.nextHold.isNone then
    let s := if x.e < x.len then s.noteGate j p else s
    let unmet := s.peerMissing j (x.m * x.len + p) || (x.e < x.len && s.shut j p false)
    if unmet then s.setJob j { s.job j with nextHold := some p } else s
  else s

/-- Position L − 1 of a job is done (R109): the stop before the boundary, a hold before position 0, or the boundary. The compare of the
design cycle before is made by now (R278, R279). A release that was missing when it was checked, and not asked for since a
checkpoint stood before it, is asked for where that checkpoint has been given up since. The huddle waits where the release is missing,
not where a peer's word is (R331). -/
def State.endOfCycle (s : State) (j : Nat) : State :=
  let s := s.compareNow j
  let x := s.job j
  let barred := x.gate && !s.ckptNext j
  if x.ue then s.stopBefore j
  else if x.holdAt = some x.len || barred then
    let s := (s.closeBlocks j).enterHold j
    let s := s.setJob j { s.job j with holdAt := none, hudHold := (s.job j).hudHold || barred }
    if barred then s.hudWait j else s
  else s.boundary j

/-! ### The period (R89, R91) -/

/-- One non-hold STEPCLK period of a job: position e executes in every segment, its effects land at its end, and the sequencers
advance (R89, R91, R96). -/
def State.period (s : State) (j : Nat) : State :=
  let s := (s.dpClkFall j).notice j
  let x := s.job j
  let segs := s.activeSegs j
  let ks := segs.filterMap (fun g => if (s.seq g).state = .run then some (g, (s.seq g).k) else none)
  let s := s.foldSigs j (s.positionEffects j)
  let s := ((s.edge j).sampleProbes j x.e ks).dynEdge j
  let s := segs.foldl (fun s g => s.setSeq g (s.seq g).advance.going) s
  let x := s.job j
  let s := s.setJob j { x with e := x.e + 1 }
  let x := s.job j
  if x.len ≤ x.e then s.endOfCycle j
  else if x.holdAt = some x.e then ((s.setJob j { x with holdAt := none }).closeBlocks j).enterHold j
  else s

/-- The last step of a hold's last block (R102, R104, R109): the hold is recorded, and the held position executes next or the
boundary is made; an uncorrectable error stops the job there. -/
def State.endHold (s : State) (j : Nat) : State :=
  let s := s.recordHold j
  let x := s.job j
  let s := s.setJob j { x with waitSegs := [], hudHold := x.nextHold.isSome, lastBlk := false, block := 0, blocks := 0
                               timeoutUp := false, holdAt := x.nextHold, nextHold := none }
  if x.e = x.len then
    let s := s.compareNow j
    if (s.job j).ue then s.stopBefore j else s.boundary j
  else
    let s := s.mapSeqs j (fun q => if q.state = .hold then q.going else q)
    if x.e = 0 then s.hudRelease j else s

/-- One hold step of a job (R101–R104). A block that would have been the last for a checkpoint before position 0 is not where that
checkpoint has been given up in it. -/
def State.holdPeriod (s : State) (j : Nat) : State :=
  let s := if (s.job j).block = 0 then s.openBlock j else s.lateCheck j
  let s := (s.countHold j).ageWritebacks j
  let x := s.job j
  if x.block = 15 then
    let barred := x.gate && x.e == x.len && !x.ue && !s.ckptNext j
    if x.lastBlk && !barred then s.endHold j else s.setJob j { x with block := 0 }
  else s.setJob j { x with block := x.block + 1 }

/-! ### The rows -/

/-- The job whose period a segment's row names: the segment is in `st`, and the job is not stopped or paused. -/
def State.jobIn (s : State) (seg : Nat) (st : SeqState) : Option Nat :=
  if (s.seq seg).state = st then s.jobOfSeg seg else none

/-- SEQUENCER_STEP (R96): one period of the job, named by a segment that executes a programmed step in it. -/
def execSequencerStep (seg : Nat) (s : State) : Host.Outcome State Fault Refusal :=
  match s.jobIn seg .run with
  | some j => .next (s.period j)
  | none => .next s

/-- PAD_STEP (R91): one period of the job, named by a segment that pads in it. -/
def execPadStep (seg : Nat) (s : State) : Host.Outcome State Fault Refusal :=
  match s.jobIn seg .pad with
  | some j => .next (s.period j)
  | none => .next s

/-- HOLD_STEP (R101). -/
def execHoldStep (job : Nat) (s : State) : Host.Outcome State Fault Refusal :=
  if (s.seq (s.job job).lead).state = .hold ∧ (s.job job).state ≠ .free then .next (s.holdPeriod job) else .next s

end Sys2Proof.Machine
end

