-- ==== Sys2Proof/Machine/Units.lean ====
section
/-! DEFINITION. The rows of the units that act in an executed position: Boolean processors, wide arithmetic unit, bank ports and
queue issue (chapters 3, 6–8). Each enters its unit's effects for the edge that ends the position (R59); the period takes in
every unit that has not acted. -/

namespace Sys2Proof.Machine

/-- A unit of cluster `cl` acts in the position that its segment executes: its effects are computed from the state before the
position and land at its end (R59). -/
def State.act (s : State) (cl unit : Nat) (effects : Nat → List Effect) : State :=
  match s.jobIn (cl / 64) .run with
  | some j => if cl < 4096 then s.stage unit (effects j) else s
  | none => s

/-- BP `bp` acts if the word it executes has opcode `opc` (R62). -/
def State.bpAct (s : State) (cl bp opc : Nat) : State :=
  if bp < 64 ∧ (s.bpWord cl bp (s.seq (cl / 64)).k).opc = opc then
    s.act cl (bpUnit cl bp) (fun j => s.bpEffects j (cl / 64) cl bp)
  else s

/-- NOP (R62). -/
def execNop (cl bp : Nat) (s : State) : Host.Outcome State Fault Refusal := .next (s.bpAct cl bp 0)

/-- EVAL (R63). -/
def execEval (cl bp : Nat) (s : State) : Host.Outcome State Fault Refusal := .next (s.bpAct cl bp 1)

/-- SHIFT (R80). -/
def execShift (cl bp : Nat) (s : State) : Host.Outcome State Fault Refusal := .next (s.bpAct cl bp 2)

/-- LOAD (R73). -/
def execLoad (cl bp : Nat) (s : State) : Host.Outcome State Fault Refusal := .next (s.bpAct cl bp 3)

/-- ISTORE_WRITEBACK (R83): the maintenance port writes back a corrected entry. -/
def execIstoreWriteback (cl bp entry : Nat) (s : State) : Host.Outcome State Fault Refusal :=
  match s.fab.istoreWb.find? (fun x => x.cl == cl && x.bp == bp && x.entry == entry) with
  | some x => .next (s.istoreWriteback x)
  | none => .next s

/-! ### Wide arithmetic unit (R138–R149) -/

/-- WAU_LOAD (R140). -/
def execWauLoad (cl : Nat) (s : State) : Host.Outcome State Fault Refusal :=
  .next (s.act cl (clUnit cl 0) (fun j => s.wauLoadEffects j (cl / 64) cl))

/-- The issue of WAU operation `op` (R139, R142). -/
def State.wauAct (s : State) (cl op : Nat) : State :=
  s.act cl (clUnit cl op) (fun j => s.wauIssueEffects j (cl / 64) cl op)

/-- ADD64 (R143). -/
def execAdd64 (cl : Nat) (s : State) : Host.Outcome State Fault Refusal := .next (s.wauAct cl 1)

/-- MUL32 (R143). -/
def execMul32 (cl : Nat) (s : State) : Host.Outcome State Fault Refusal := .next (s.wauAct cl 2)

/-- CMUL16 (R144). -/
def execCmul16 (cl : Nat) (s : State) : Host.Outcome State Fault Refusal := .next (s.wauAct cl 3)

/-- MAC48 (R145). -/
def execMac48 (cl : Nat) (s : State) : Host.Outcome State Fault Refusal := .next (s.wauAct cl 4)

/-- NORM64 (R146). -/
def execNorm64 (cl : Nat) (s : State) : Host.Outcome State Fault Refusal := .next (s.wauAct cl 5)

/-- EXPX (R147). -/
def execExpx (cl : Nat) (s : State) : Host.Outcome State Fault Refusal := .next (s.wauAct cl 6)

/-- CLZ64 (R146). -/
def execClz64 (cl : Nat) (s : State) : Host.Outcome State Fault Refusal := .next (s.wauAct cl 7)

/-- WAU_RESULT (R139): the operations whose result is formed in the position, pad positions included. -/
def execWauResult (cl : Nat) (s : State) : Host.Outcome State Fault Refusal :=
  let st := (s.seq (cl / 64)).state
  if st = .run ∨ st = .pad then
    match s.jobOfSeg (cl / 64) with
    | some j => .next (if cl < 4096 then s.stage (clUnit cl 8) (s.wauDoneEffects cl (s.job j).e) else s)
    | none => .next s
  else .next s

/-! ### Bank ports (R155–R157) -/

/-- BANK_READ (R156). -/
def execBankRead (cl bank : Nat) (s : State) : Host.Outcome State Fault Refusal :=
  .next (if bank < 4 then s.act cl (clUnit cl (13 + bank)) (fun j => s.staticEffects j (cl / 64) cl bank 1) else s)

/-- BANK_WRITE_GATHER (R156). -/
def execBankWriteGather (cl bank : Nat) (s : State) : Host.Outcome State Fault Refusal :=
  .next (if bank < 4 then s.act cl (clUnit cl (17 + bank)) (fun j => s.staticEffects j (cl / 64) cl bank 2) else s)

/-- BANK_WRITE_RESULT (R156). -/
def execBankWriteResult (cl bank : Nat) (s : State) : Host.Outcome State Fault Refusal :=
  .next (if bank < 4 then s.act cl (clUnit cl (21 + bank)) (fun j => s.staticEffects j (cl / 64) cl bank 3) else s)

/-- WAU_PORT_READ (R157). -/
def execWauPortRead (cl bank : Nat) (s : State) : Host.Outcome State Fault Refusal :=
  .next (if bank < 4 then s.act cl (clUnit cl (9 + bank)) (fun j => s.wauPortEffects j (cl / 64) cl bank) else s)

/-! ### Queue issue, WAIT and return data (R182–R189) -/

/-- MQ_ISSUE_READ (R182). -/
def execMqIssueRead (cl : Nat) (s : State) : Host.Outcome State Fault Refusal :=
  .next (s.act cl (clUnit cl 25) (fun j => s.mqIssueEffects j (cl / 64) cl false))

/-- MQ_ISSUE_WRITE (R182). -/
def execMqIssueWrite (cl : Nat) (s : State) : Host.Outcome State Fault Refusal :=
  .next (s.act cl (clUnit cl 26) (fun j => s.mqIssueEffects j (cl / 64) cl true))

/-- MQ_WAIT (R186, R189). -/
def execMqWait (cl : Nat) (s : State) : Host.Outcome State Fault Refusal :=
  .next (s.act cl (clUnit cl 27) (fun _ => s.mqWaitEffects (cl / 64) cl))

/-- MQ_RETURN_TAKE (R188). -/
def execMqReturnTake (cl : Nat) (s : State) : Host.Outcome State Fault Refusal :=
  .next (s.act cl (clUnit cl 28) (fun j => s.mqTakeEffects j (cl / 64) cl))

end Sys2Proof.Machine
end

