-- ==== Sys2Proof/Machine/Queues.lean ====
section
/-! DEFINITION. The rows of external memory: tags (R183), requests and completions of the queues (R184, R191), the referees'
decisions (R193–R199), the undo log (R262) and the HBM controllers (R177, R178). -/

namespace Sys2Proof.Machine

/-- MQ_TAG_GRANT (R183): the oldest request of a cluster group that waits takes a free tag; the cycle is counted for every
cluster whose request still waits. -/
def execMqTagGrant (cg : Nat) (s : State) : Host.Outcome State Fault Refusal :=
  let s := s.grantTag cg
  let waits := (List.range 32).filter (fun i =>
    (s.groupEntries cg).any (fun e => keyCluster e.1 == cg * 32 + i && e.2.state == .waitTag))
  .next (waits.foldl (fun s i => s.bump (fabcAt (cg * 32 + i) 0x28C) 31 0 1) s)

/-- The run of 512 bytes of a place (R262): its physical HBM address divided by 512. -/
def runOf (pc offset : Nat) : Nat := hbmAddr pc offset / 512

/-- A queue write that the referee holds until the undo log has its run (R262): the job has a checkpoint to return to and the run's
window-dirty bit is clear. -/
def State.heldForUndo (s : State) (seg pc offset : Nat) : Bool :=
  match s.jobOfSeg seg with
  | some j =>
    let p := (s.job j).prot
    p.state != .off && p.state != .failed && p.retained != [] && !p.winDirty.contains (runOf pc offset)
  | none => false

/-- REFEREE_REQUEST_ARRIVE (R184, R193): a request joins its requester's FIFO of 8. A cluster-group port carries the requests of
its group's queues, in the order in which they took their tags; requester 16 carries the capture engine's oldest line. No request of a
command has a number of an access that the bridge keeps. -/
def execRefereeRequestArrive (pc requester : Nat) (req : RefReq) (s : State) : Host.Outcome State Fault Refusal :=
  let r := s.ref pc
  let xs := r.fifo requester
  if 128 ≤ pc ∨ 22 ≤ requester ∨ 8 ≤ xs.length then .next s
  else if requester < 16 then
    match s.tagEntry req.id with
    | none => .next s
    | some (key, x) =>
      let p := entryPlace key x
      if x.arrived || p.1 != pc || keyCluster key / 32 != 16 * (pc % 8) + requester ||
          !s.inOrder key x (fun y => match y.state with | .out _ => !y.arrived | _ => false) then .next s
      else
        let held := x.write && !x.suppress && s.heldForUndo (keyCluster key / 64) pc p.2
        let pend : RefPend := { req := { offset := p.2, write := x.write, data := x.data, lock := 1, id := req.id }
                                age := 0, boost := 0, waited := 0, fresh := true, held := held }
        let q := s.mq (key / 8) (key % 8)
        let s := s.setMq (key / 8) (key % 8) (q.mapSlot x.slot (fun y => { y with arrived := true }))
        .next (s.setRef pc (r.setFifo requester (xs ++ [pend])))
  else if requester = 16 then
    match s.cap.stage with
    | [] => .next s
    | (a, bs) :: rest =>
      if pcOf a = pc then
        let pend : RefPend := { req := { offset := pcOffset a, write := true, data := bs, lock := 1, id := 0 }
                                age := 0, boost := 0, waited := 0, fresh := true, held := false }
        .next ({ s with cap := { s.cap with stage := rest } }.setRef pc (r.setFifo 16 (xs ++ [pend])))
      else .next s
  else
    let pend : RefPend := { req := { req with id := req.id % hostId }, age := 0, boost := 0, waited := 0, fresh := true, held := false }
    .next (s.setRef pc (r.setFifo requester (xs ++ [pend])))


/-- REQUEST_WITHDRAW (R195). -/
def execRequestWithdraw (pc requester : Nat) (s : State) : Host.Outcome State Fault Refusal :=
  .next (if pc < 128 then s.refWithdraw pc requester else s)

/-- UNDO_LOG_CAPTURE (R262): the run of the held queue write at the head of a port is appended to the newest checkpoint's undo
log, its window-dirty bit is set, and the referee releases the writes to it. -/
def execUndoLogCapture (pc port : Nat) (s : State) : Host.Outcome State Fault Refusal :=
  let r := s.ref pc
  match (r.fifo port).head? with
  | none => .next s
  | some p =>
    match s.tagEntry p.req.id with
    | none => .next s
    | some (key, _) =>
      match s.jobOfSeg (keyCluster key / 64) with
      | none => .next s
      | some j =>
        if !p.held || 16 ≤ port then .next s
        else
          let x := s.job j
          let run := runOf pc p.req.offset
          let old := s.hbmRead pc (p.req.offset / 512 * 512) 512
          let kept := match x.prot.retained.reverse with
            | [] => []
            | c :: cs => ({ c with undo := (run * 512, old) :: c.undo } :: cs).reverse
          let s := s.setJob j { x with prot := { x.prot with winDirty := x.prot.winDirty ++ [run], retained := kept } }
          let free := fun (y : RefPend) => if runOf pc y.req.offset = run then { y with held := false } else y
          let fifos := r.fifos.map (fun e => if e.1 < 16 then (e.1, e.2.map free) else e)
          .next (s.setRef pc { r with fifos := fifos })

/-- The HBM controller's result as a request status. -/
def hbmStatus : HbmResult → ReqStatus
  | .ue => .hbmUe
  | _ => .ok

/-- A pseudo-channel's stack is switched off (R177). -/
def State.hbmOff (s : State) (pc : Nat) : Bool := !s.domainOn (70 + pc / 32)

/-- Refresh-management commands issued with a stack's traffic are counted (R203): how many, the spec leaves to the stack (free value,
assumption 89). -/
def State.rfmCount (s : State) (stack : Nat) : State :=
  let s' := { s with free := s.free + 1 }
  s'.setReg (hbmcAt stack 0x58) (s.reg (hbmcAt stack 0x58) + BitVec.ofNat 32 (Config.freeNat s.free))

/-- A write to `offset` in lock `l` is still to come: the lock goes on, or the write is decided or granted. -/
def Referee.writeToCome (r : Referee) (l offset : Nat) : Bool :=
  let head := match r.granted with
    | some q => (r.fifo q).head?.any (fun p => p.req.write && p.req.offset == offset)
    | none => false
  (r.state == .locked && r.lockNo == l) || (r.granting == l && head) ||
    ((r.ctl.filter (fun c => decide (16 ≤ c.1))).zip r.locks).any (fun c => c.2 == l && c.1.2.write && c.1.2.offset == offset)

/-- A requester has read 64 bytes in a lock that is still to write them: the two form an indivisible read-modify-write (R197). -/
def State.rmwOpen (s : State) (pc offset : Nat) : Bool :=
  let r := s.ref pc
  r.rmw.any (fun x => x.2 == offset && r.writeToCome x.1 offset)

/-- The oldest of the hub's requests in a controller's queue is performed: a read in a lock opens a read-modify-write, which the write
closes (R197). -/
def Referee.performed (r : Referee) (req : RefReq) : Referee :=
  let l := r.locks.headD 0
  let rmw := if l ≠ 0 ∧ !req.write then r.rmw ++ [(l, req.offset)] else r.rmw
  let r := { r with locks := r.locks.drop 1 }
  { r with rmw := rmw.filter (fun x => r.writeToCome x.1 x.2) }

/-- MQ_COMPLETION (R184, R191): the request with a tag, first of its port in the controller's queue, completes. While its stack is
off it completes with HBM_OFF (R177). A write to 64 bytes that a locked read-modify-write of a hub requester is at comes after it; those
of the hub complete in the order of their grants, so that none of them falls into it (R197). -/
def execMqCompletion (tag : Nat) (result : HbmResult) (s : State) : Host.Outcome State Fault Refusal :=
  match s.tagEntry tag with
  | none => .next s
  | some (key, x) =>
    let pc := (entryPlace key x).1
    let r := s.ref pc
    let port := keyCluster key / 32 % 16
    if s.hbmOff pc then
      let gone := fun (ps : List RefPend) => ps.filter (fun p => p.req.id != tag)
      let fifos := (r.fifos.map (fun e => if e.1 = port then (e.1, gone e.2) else e)).filter (fun e => e.2 != [])
      let s := s.setRef pc { r with ctl := r.ctl.filter (fun c => !(c.1 == port && c.2.id == tag)), fifos := fifos
                                    granted := if r.granted = some port then none else r.granted }
      .next (s.mqComplete key x .hbmOff)
    else
      match r.ctl.find? (fun c => c.1 == port) with
      | none => .next s
      | some c =>
        if c.2.id = tag ∧ !(x.write && s.rmwOpen pc c.2.offset) then
          let s := (s.setRef pc { r with ctl := r.ctl.erase c }).rfmCount (pc / 32)
          let s := if result = .corrected then s.bump (hbmcAt (pc / 32) 0x4C) 15 0 1 else s
          .next (s.mqComplete key x (hbmStatus result))
        else .next s

/-- HBM_REFRESH_RATE_CHANGE (R178, R421): the stack's temperature sets its refresh rate; above 95 °C it is reported, above 105 °C
the whistle follows. -/
def execHbmRefreshRateChange (stack : Nat) (degC : BitVec 8) (s : State) : Host.Outcome State Fault Refusal :=
  if stack < 4 then
    let t := degC.toNat
    let hot := s.flag (hbmcAt stack 0x40) 2
    let s := s.setReg (hbmcAt stack 0x48) (BitVec.ofNat 32 (t + (if 95 < t then 2 else if 85 < t then 1 else 0) * 2 ^ 8))
    let s := s.setFlag (hbmcAt stack 0x40) 2 (decide (95 < t))
    let s := if 95 < t ∧ !hot then s.event (sensorSource 0x0185) 0x0185 0xFF [BitVec.ofNat 32 t] else s
    .next (if 105 < t then (s.event (sensorSource 0x0185) 0x0185 0xFF [BitVec.ofNat 32 t]).assertWhistle 3 else s)
  else .next s

/-- PC_OUT_OF_SERVICE (R36, R177): the controller takes a pseudo-channel out of service; its REF page is disabled. -/
def execPcOutOfService (pc : Nat) (s : State) : Host.Outcome State Fault Refusal :=
  if pc < 128 then
    let s := s.setFlag (hbmcAt (pc / 32) 0x44) (pc % 32) false
    .next ((s.setFlag (hdr (0x20 + pc) 0x08) 0 false).refControl pc .disabled)
  else .next s

end Sys2Proof.Machine
end

