-- ==== Sys2Proof/Machine/Registers.lean ====
section
/-! DEFINITION. Register writes (R37–R55, R463, R490): who may write, the effect classes, shadows, paired groups, transactions
and the reset of a page. What a write of a command register brings about stands in Access. -/

namespace Sys2Proof.Machine

/-! ### Where an access lands (R35, R37, R359, R434) -/

/-- The function that a requester's BAR0 belongs to: a VF's own, the PF's for every other requester. -/
def rqFn : Requester → Nat
  | .vf n => n
  | _ => 0

/-- The key of the register word that a requester's access to a BAR0 offset reaches: each function sees its own bank of the
MBOX page (R434). -/
def regKey (rq : Requester) (addr : Nat) : Nat :=
  if addr / 0x1000 = 0xC ∧ 0x40 ≤ addr % 0x1000 ∧ addr % 0x1000 < 0x64 then mboxAt (rqFn rq) (addr % 0x1000) else addr

/-- The jobs whose function is VF `n`. -/
def State.jobsOfFn (s : State) (n : Nat) : List Nat :=
  (s.jobs.filter (fun e => e.2.state != .free && e.2.fn == n)).map (·.1)

/-- A VF's BAR0 maps a page (R359). -/
def State.vfMaps (s : State) (n page : Nat) : Bool :=
  let has := fun (seg : Nat) => match s.jobOfSeg seg with
    | some j => (s.job j).fn == n
    | none => false
  match pageOf page with
  | some (.dev, _) | some (.mbox, _) | some (.time, _) => true
  | some (.fabs, g) => has g
  | some (.fabc, _) => has ((page - 0x1000) / 0x80)
  | some (.ref, pc) => (List.range 64).any (fun g => octantOf g == pc % 8 && has g)
  | some (.disp, g) => g != 0 && s.groupOfFn n == g
  | some (.cap, _) => match s.cap.job with
    | some j => (s.job j).fn == n
    | none => false
  | some (.ckpt, i) => i != 0 && (s.jobsOfFn n).any (fun j => j / 8 + 1 == i)
  | some (.lane, l) => has l
  | _ => false

/-- The code with which an access to a BAR0 offset fails (R37): UNMAPPED or DOMAIN_OFF. Of a VF that host software has not enabled
nothing is mapped (R366). -/
def State.accessFault (s : State) (rq : Requester) (addr : Nat) : Option Nat :=
  let page := addr / 0x1000
  let mapped := (pageOf page).isSome && match rq with
    | .vf n => s.vfOn n && s.vfMaps n page
    | _ => true
  if !mapped then some 0x000C
  else match pageDomain page with
    | some d => if s.domainOn d then none else some 0x000E
    | none => none

/-- UNMAPPED or DOMAIN_OFF recorded on the `DEV` page with the whole offset (R37, R428). -/
def State.recordMiss (s : State) (rq : Requester) (code addr : Nat) : State :=
  let first := s.fld (hdr 0 0x1C) 15 0 == 0
  let s := s.pgErr 0 code rq addr
  if first then s.setReg (PageKind.dev.at 0x48) (BitVec.ofNat 32 (addr % 0x4000000)) else s

/-! ### Who may write (R41, R434, R463, R466, R476, R485, R490) -/

/-- A page's owner is a requester. -/
def State.owns (s : State) (rq : Requester) (page : Nat) : Bool := s.owner page == (rqClass rq, rqVf rq)

/-- A debug-port write to a page is performed (R463, R464). -/
def State.dbgMayWrite (s : State) (page : Nat) : Bool :=
  let cls := (s.owner page).1
  page == 0xA || page == 0xB || [0, 1, 3].contains cls || (s.flag (dbgAt 0x44) 0 && s.flag (dbgAt 0x44) 1)

/-- The code with which a write to a register is refused for its writer, if it is. -/
def State.writerFault (s : State) (rq : Requester) (addr : Nat) : Option Nat :=
  let page := addr / 0x1000
  let off := addr % 0x1000
  if off = 0x38 then if rq = .fw then none else some 5
  else match rq with
    | .fw => none
    | .dbg => if s.dbgMayWrite page then none else some 0x01A0
    | _ =>
      if (page = 4 ∨ page = 5) ∧ 0x40 ≤ off then none
      else if page = 0xC ∧ 0x40 ≤ off then
        match rq with
        | .pf | .vf _ => none
        | _ => some 5
      else if page = 6 ∧ off = 0x48 ∧ rq = .uc then none
      else if page = 0xA ∧ rq = .pf ∧ (off = 0x40 ∨ off = 0x48 ∨ 0x80 ≤ off ∧ off < 0xB0) then none
      else if s.owns rq page then none
      else some 5

/-- The pins of a GPIO word that a writer may write (R490). -/
def State.pinMask (s : State) (rq : Requester) (w : Nat) : Word :=
  let mine := fun (p : Nat) =>
    let fixed := s.flag (xbarAt p) 16
    rq == .dbg || (rq == .fw && !fixed) || s.fld (xbarAt p) 10 8 == rqClass rq
  BitVec.ofNat 32 ((List.range 32).foldl (fun a i => a + boolNat (mine (32 * w + i)) * 2 ^ i) 0)

/-! ### Transactions and groups -/

/-- The transaction that holds a page (R49). -/
def State.txnOf (s : State) (page : Nat) : Option TxnRef :=
  let d := s.page page
  match d.txn with
  | .opened | .commitPending => some (.page page)
  | .member => d.slot.map TxnRef.slot
  | _ => none

/-- A transaction's state and opener. -/
def State.txnInfo (s : State) (r : TxnRef) : TxnState × Requester :=
  match r with
  | .page n => ((s.page n).txn, (s.page n).opener)
  | .slot t => ((s.slotAt t).state, (s.slotAt t).opener)

/-- PG_CAP.txn_capable of a page (R39, R50, R51, R352; REF in R202). -/
def txnCapable (page : Nat) : Bool :=
  match pageOf page with
  | some (.dev, _) => false
  | some (.cap, _) => false
  | some (.ref, _) => true
  | some (.fabs, _) | some (.fabc, _) => true
  | some (k, _) => Config.txnCapable k.code
  | none => false

/-! ### Storing a word -/

/-- A staged write on its way to the hardware (R43, R47, R48): to its group, to the shadow, or at once. -/
def State.stageWrite (s : State) (w : HeldWrite) : State :=
  let page := pageNo w.addr
  let d := s.page page
  match pageOf page with
  | some (.ref, _) => s.setPage page { d with shadow := d.shadow ++ [w] }
  | some (.gpio, _) =>
    let s := s.setPage page { d with shadow := d.shadow ++ [w] }
    let cfg := gpioSetCfg w.addr
    let j := natBits (s.overlay (s.page page).shadow cfg).toNat 5 0
    if (s.job j).live then s else s.applyPart page (fun x => gpioSetCfg x.addr == cfg)
  | _ =>
    if !s.busy w.addr then s.applyOver page [w]
    else match pairGroup w.addr with
      | none => s.setPage page { d with shadow := d.shadow ++ [w] }
      | some g =>
        let ps := d.pairs ++ [w]
        let inGroup := fun (x : HeldWrite) => pairGroup x.addr == some g
        if groupWhole ps page g then
          s.setPage page { d with pairs := ps.filter (fun x => !inGroup x), shadow := d.shadow ++ ps.filter inGroup }
        else s.setPage page { d with pairs := ps }

/-- A write to static and staged fields (R42, R43, R49): held by the page's transaction, or refused by it, or taking its class's
effect. The answer's second part is the bits of static fields that took effect. -/
def State.heldFields (s : State) (rq : Requester) (addr : Nat) (static staged v : Word) : State × Word :=
  let page := pageNo addr
  if static ||| staged = 0 then (s, 0)
  else match s.txnOf page with
    | some r =>
      let i := s.txnInfo r
      if i.1 = .opened ∧ i.2 = rq then
        let d := s.page page
        let w : HeldWrite := ⟨addr, static ||| staged, v, rq⟩
        let s := match r with
          | .slot t => s.setSlot t { s.slotAt t with last := some w }
          | .page _ => s
        (s.setPage page { d with held := d.held ++ [w] }, 0)
      else (s.pgErr page 7 rq addr, 0)
    | none =>
      let s' := if staged = 0 then s else s.stageWrite ⟨addr, staged, v, rq⟩
      if static = 0 then (s', 0)
      else if s.busy addr then (s'.pgErr page 1 rq addr, 0)
      else ((s'.poke ⟨addr, static, v, rq⟩).pokeEffect (s'.reg addr) addr, static)

/-- The code with which a block refuses a value that is no reserved encoding: STEP_GRADE (R504), XBAR_CONFLICT (R489). -/
def State.valueFault (s : State) (f : Field) (addr v : Nat) : Option Nat :=
  if addr = PageKind.clk.at 0x40 then if Config.gradeTen && decide (800 < v) then some 0x0150 else none
  else if pageNo addr = 5 ∧ f.lo = 0 then
    let p := (addr % 0x1000 - 0x40) / 4
    if v ≠ 0 ∧ signalDir v = .input ∧ (List.range 96).any (fun q => q != p && s.fld (xbarAt q) 7 0 == v) then some 0x0151
    else none
  else none

/-- The fields of a GPIO or GPIO_XBAR word that the writer may not write (R490, R493): the bits of foreign pins, or a foreign
pin's fields, its owner field and a fixed pin's source. -/
def State.pinDenied (s : State) (rq : Requester) (addr : Nat) (v : Word) : Word :=
  let off := addr % 0x1000
  if pageNo addr = 4 ∧ 0x50 ≤ off ∧ off < 0xA0 then ~~~(s.pinMask rq (off % 16 / 4)) &&& v
  else if pageNo addr = 5 ∧ 0x40 ≤ off then
    let p := (off - 0x40) / 4
    let old := s.reg addr
    let cls := natBits old.toNat 10 8
    let mine := s.pinMask rq (p / 32) &&& BitVec.ofNat 32 (2 ^ (p % 32)) != 0
    if !mine then 0xFFFFFFFF
    else
      let ownerOk := rq == (if cls = 5 then .secfw else .fw)
      (if ownerOk || natBits v.toNat 10 8 == cls then 0 else 0x700) |||
      (if natBit old.toNat 16 && natBits v.toNat 7 0 != natBits old.toNat 7 0 then 0xFF else 0)
  else 0

/-- A 32-bit word written to a block register: reserved and refused values are dropped field by field (R12), held and staged
fields go their way, live fields and W1C bits take effect, of the effect classes asked for. The answer's second part is the bits that
took effect at once. -/
def State.storeWord (s : State) (rq : Requester) (addr : Nat) (v : Word) (only : Eff → Bool := fun _ => true) : State × Word :=
  let page := pageNo addr
  let off := addr % 0x1000
  let ignored := (match s.pageJob page with
    | some j => (lineOf addr).isSome && (page - 0x1000) / 0x80 != (s.job j).lead && decide (page % 0x80 = 0)
    | none => false) || ([0x150, 0x160, 0x170].contains page && off == 0x44)
  let denied := s.pinDenied rq addr v
  let s0 := if denied = 0 then s else s.pgErr page 5 rq off
  if ignored then (s, 0)
  else
    let val := fun (f : Field) => natBits v.toNat f.hi f.lo
    let fs := (fieldsAt page off).filter (fun f => f.acc != .ro && f.acc != .rc && only f.eff)
    let bad := fs.filter (fun f => !f.legal.ok (val f))
    let s1 := if bad = [] then s0 else s0.pgErr page 2 rq off
    let fs := fs.filter (fun f => f.legal.ok (val f))
    let refused := fs.filterMap (fun f => s.valueFault f addr (val f))
    let s2 := refused.foldl (fun s c => s.pgErr page c rq off) s1
    let fs := fs.filter (fun f => (s.valueFault f addr (val f)).isNone)
    let wide := page == 4 && decide (off < 0xA0)
    let ok := fun (f : Field) => wide || fieldMask [f] &&& denied == 0
    let fs := fs.filter ok
    let class_ := fun (e : Eff) => fieldMask (fs.filter (fun f => f.eff == e))
    let (s3, took) := s2.heldFields rq addr (class_ .static) (class_ .staged) v
    let rw := fieldMask (fs.filter (fun f => f.eff == .live && f.acc == .rw)) &&& (if wide then ~~~denied else 0xFFFFFFFF)
    let w1c := fieldMask (fs.filter (fun f => f.acc == .w1c))
    let cmd := fieldMask (fs.filter (fun f => f.eff == .live && (f.acc == .wo || f.acc == .w1s))) &&&
      (if wide then ~~~denied else 0xFFFFFFFF)
    let s4 := if rw = 0 then s3 else s3.poke ⟨addr, rw, v, rq⟩
    let s5 := if w1c &&& v = 0 then s4 else s4.setReg addr (s4.reg addr &&& ~~~(w1c &&& v))
    (s5, took ||| rw ||| w1c ||| cmd)

/-! ### Transactions: the commands (R50–R55) -/

/-- The timeout of a transaction in µs: 0 means 1,000. -/
def timeoutUs (n : Nat) : Nat := if n = 0 then 1000 else n

/-- BEGIN of a single-page transaction (R50). -/
def State.txnBegin (s : State) (rq : Requester) (page us : Nat) : State :=
  let d := s.page page
  if !txnCapable page then s.pgErr page 0xA rq 0x30
  else if [TxnState.opened, .commitPending, .member].contains d.txn then s.pgErr page 6 rq 0x30
  else s.setPage page { d with txn := .opened, opener := rq, reason := 0, leftUs := timeoutUs us, held := [], slot := none }

/-- A transaction's state while its writes wait for a boundary (R53). -/
def State.txnPend (s : State) (r : TxnRef) : State :=
  match r with
  | .page n => s.setPage n { s.page n with txn := .commitPending }
  | .slot t => s.setSlot t { s.slotAt t with state := .commitPending }

/-- A member FAB page of a transaction is busy (R53). -/
def State.txnWaits (s : State) (r : TxnRef) : Bool :=
  (s.txnPages r).any (fun n => decide (0x1000 ≤ n) && s.busy (n * 0x1000))

/-- COMMIT of an open transaction (R53, R54). -/
def State.txnCommit (s : State) (r : TxnRef) : State :=
  match s.commitFault r with
  | some c => s.txnAbort r c true
  | none => if s.txnWaits r then s.txnPend r else s.txnApply r

/-- COMMIT or ROLLBACK written to PG_TXN (R43, R50, R53, R55). -/
def State.txnClose (s : State) (rq : Requester) (page : Nat) (commit : Bool) : State :=
  let d := s.page page
  match d.txn with
  | .member => s.pgErr page 6 rq 0x30
  | .opened =>
    if d.opener != rq then s.pgErr page 5 rq 0x30
    else if commit then s.txnCommit (.page page)
    else s.txnEnd (.page page) .rolledBack 0
  | .commitPending =>
    if d.opener != rq then s.pgErr page 5 rq 0x30
    else if commit then s
    else s.txnEnd (.page page) .rolledBack 0
  | _ => if commit then s.applyShadow page else s.setPage page { d with shadow := [] }

/-- The first count entries of a slot's page list (R51, R52). -/
def State.slotList (s : State) (t : Nat) : List Nat :=
  let base := PageKind.dev.at (0x200 + 0x200 * t)
  (List.range (s.fld (base + 0xC) 6 0)).map (fun i =>
    if i % 2 = 0 then s.fld (base + 0x40 + i / 2 * 4) 13 0 else s.fld (base + 0x40 + i / 2 * 4) 29 16)

/-- The code with which a BEGIN on a slot is refused (R52). -/
def State.slotFault (s : State) (rq : Requester) (t : Nat) : Option Nat :=
  let ps := s.slotList t
  let fabJobs := ps.filterMap (fun n => s.pageJob n)
  let x := s.slotAt t
  if ps = [] ∨ ¬ ps.Nodup ∨ fabJobs.any (fun j => fabJobs.head? != some j) then some 9 -- TXN_SPAN
  else if ps.any (fun n => !txnCapable n) then some 0xA
  else if x.state = .opened ∨ x.state = .commitPending ∨
      ps.any (fun n => ! [TxnState.free, .committed, .rolledBack].contains (s.page n).txn) then some 6
  else if ps.any (fun n => !s.owns rq n) then some 5
  else none

/-- An operation written to DEV_TXN_CTL of a slot (R52, R53, R55): 1 BEGIN, 2 COMMIT, 3 ROLLBACK. A COMMIT or ROLLBACK of a slot that is
not open, and a second COMMIT while one is pending, have no effect and record no code: the spec gives them none (DESIGN
CHOICE, assumption 66). -/
def State.slotOp (s : State) (rq : Requester) (t op : Nat) : State :=
  let base := 0x200 + 0x200 * t
  let x := s.slotAt t
  let open_ := x.state == .opened || x.state == .commitPending
  if op = 1 then
    match s.slotFault rq t with
    | some c => s.pgErr 0 c rq base
    | none =>
      let ps := s.slotList t
      let us := timeoutUs (s.fld (PageKind.dev.at (base + 8)) 15 0)
      let s := ps.foldl (fun s n => s.setPage n { s.page n with txn := .member, slot := some t, held := [], reason := 0 }) s
      let s := s.setSlot t { state := .opened, opener := rq, reason := 0, leftUs := us, pages := ps }
      s.setReg (PageKind.dev.at (base + 0x10)) (BitVec.ofNat 32 (rqClass rq + rqVf rq * 2 ^ 8))
  else if op = 0 ∨ !open_ then s
  else if x.opener != rq then s.pgErr 0 5 rq base
  else if op = 2 then if x.state = .opened then s.txnCommit (.slot t) else s
  else s.txnEnd (.slot t) .rolledBack 0

/-! ### Reset of a page (R11, R39, R55) -/

/-- The calls that a function's ring gave and that still run lose it (R443). -/
def Call.leave (fn : Nat) (c : Call) : Call := if c.ring = .host fn then { c with lost := true } else c

/-- Every call in progress changed. -/
def State.mapCalls (s : State) (f : Call → Call) : State :=
  let pw := fun (x : PwrOp) => { x with call := x.call.map f }
  { s with
    theham := { s.theham with waiting := s.theham.waiting.map (fun w => { w with call := f w.call })
                              queued := s.theham.queued.map (fun q => { q with call := f q.call }) }
    pwr := { s.pwr with busy := s.pwr.busy.map pw, queue := s.pwr.queue.map pw }
    jobs := s.jobs.map (fun e => (e.1, { e.2 with
      load := e.2.load.map (fun l => { l with call := f l.call })
      reload := e.2.reload.map (fun r => { r with call := f r.call }) })) }

/-- Every call in progress of a function's ring loses it (R443). -/
def State.loseRing (s : State) (fn : Nat) : State := s.mapCalls (Call.leave fn)

/-- The requests to host memory that calls in progress of a function's ring have issued are discarded (R366). Whether a call had one
outstanding no command shows: a free bit per call (assumption 123). -/
def State.cutDma (s : State) (pick : Nat → Bool) : State :=
  let k := s.free
  { s with free := k + 1 }.mapCalls (fun c => match c.ring with
    | .host fn => if pick fn then { c with dmaOk := c.dmaOk && Config.freeBit (k + c.index) } else c
    | _ => c)

/-- A job's protection at the reset of its CKPT page (R11, R275): OFF, its HBM freed, the commands that wait for it aborted; a rollback
that has not restored leaves the job failed. A pause under way ends as its copy would. -/
def State.protReset (s : State) (j : Nat) : State :=
  let x := s.job j
  if x.prot = {} then s
  else
    let lost := x.prot.state == .rollback && x.ue
    let s := (s.setJob j { x with prot := {}, failed := x.failed || lost }).freeHbm j
    s.finish (fun w => w.job == j && [0x0603, 0x0605].contains w.op) 0x0016 0 (fun _ => [])

/-- A scheduling group at the reset of its DISP page (R11, R393, R397): its packets and ready flows are gone, its engines let go, and the
flows that were ready or in service are unloaded; at page 0, which holds the contexts, every flow is. -/
def State.dispReset (s : State) (g : Nat) : State :=
  let d := s.disp
  let hit := fun (f : Flow) => if g = 0 then f.state != .stopped else f.group == g && (f.state == .ready || f.state == .service)
  let inGroup := fun (k : Nat × Nat) => d.flows.any (fun f => f.fn == k.1 && f.handle == k.2 && f.group == g)
  { s with disp := { d with
    flows := d.flows.map (fun f => if hit f then { f with state := .unloaded } else f)
    groups := if g = 0 then [] else Sparse.erase d.groups g
    engines := d.engines.filter (fun e => g != 0 && (match e.2 with
      | some k => !inGroup k
      | none => true))
    parked := if g = 0 then [] else d.parked
    turn := if g = 0 then 0 else d.turn, serves := if g = 0 then 0 else d.serves } }

/-- The state machine that a page's fields show, at its reset (R11, R199, R306, R348, R482). -/
def State.resetBlock (s : State) (page : Nat) : State :=
  match pageOf page with
  | some (.time, _) => { s with time := { s.time with now := {}, slew := 0, setTo := none, high := 0, holds := [] } }
  | some (.trace, _) => { s with trace := {} }
  | some (.ref, n) => s.setRef n { (s.ref n).endLock with state := .disabled, pendDisable := false, pendFreeze := false }
  | some (.cap, i) =>
    if i = 0 then { s with cap := { job := s.cap.job } }
    else if i = 2 then { s with cap := { s.cap with counts := ({} : Cap).counts, timers := ({} : Cap).timers, expired := ({} : Cap).expired } }
    else s
  | some (.scrub, _) => { s with scrub := {} }
  | some (.ckpt, i) => if i = 0 then s else (List.range 8).foldl (fun s n => s.protReset ((i - 1) * 8 + n)) s
  | some (.disp, g) => s.dispReset g
  | some (.noc, i) => if i = 0 then { s with noc := { crossed := s.noc.crossed } } else s
  | some (.sens, _) => { s with theham := { s.theham with temps := [], volts := [], currents := [] } }
  | some (.mbox, _) => (List.range 64).foldl State.loseRing s
  | some (.lane, n) => s.setLane n {}
  | some (.gpio, _) => { s with pins := { trip := s.pins.trip, hudOut := s.pins.hudOut, trigOut := s.pins.trigOut } }
  | some (.dbg, _) => { s with dbg := { s.dbg with tx := [], rx := [], step := false, deferred := 0 } }
  | some (.fabs, g) => s.setSeq g { blank := (s.jobOfSeg g).any (fun j => (s.job j).state != .created) }
  | some (.fabc, _) =>
    let cl := (page - 0x1000) / 0x80 * 64 + (page % 0x80 - 1)
    let f := s.fab
    { s with fab := { f with queues := f.queues.clearRange (cl * 8) (cl * 8 + 8), pipe := Sparse.erase f.pipe cl
                             inj := f.inj.clearRange (cl * 32) (cl * 32 + 32), ors := f.ors.clearRange (cl * 8) (cl * 8 + 8)
                             cyc := f.cyc.clearRange (cl * 16) (cl * 16 + 16), dirty := f.dirty.clearRange (cl * 4) (cl * 4 + 4) } }
  | _ => s

/-- A slot of the `DEV` page at a reset of that page (R11, R55): the members of an open transaction roll back with TXN_ABORT, since the
spec names no other end of it (DESIGN CHOICE, assumption 66); the slot is at its Reset column. -/
def State.resetSlot (s : State) (t : Nat) : State :=
  (if [TxnState.opened, .commitPending].contains (s.slotAt t).state then s.txnAbort (.slot t) 0xB false else s).setSlot t {}

/-- A page's registers at their Reset column, PG_OWNER kept, and its block with them (R11). A transaction that holds the page
rolls back with TXN_ABORT (R55). A field with no Reset value, as RST_CAUSE, goes to 0 (DESIGN CHOICE, assumptions 7 and 110). -/
def State.resetPage (s : State) (page : Nat) : State :=
  let txn := s.txnOf page
  let owner := s.reg (hdr page 0x38)
  let lo := page * 0x1000
  let regs := s.regs.filter (fun e => !(decide (lo ≤ e.1) && decide (e.1 < lo + 0x1000)) && !(page == 0xC && decide (0x100000000 ≤ e.1)))
  let s := { s with regs := regs }.setReg (hdr page 0x38) owner
  let d := s.page page
  let s := s.setPage page (if txn.isSome then { d with shadow := [], pairs := [], holding := [], frozen := false, waits := [] } else {})
  let s := s.resetBlock page
  let s := if page = 0 then (List.range 4).foldl State.resetSlot s else s
  match txn with
  | some r => s.txnAbort r 0xB false
  | none => s

/-! ### The header (R39) -/

/-- A write of PG_CTL (R36, R39). With soft_reset the reset wins, and the word's other bits are dropped: the spec does not say what they
do beside it (DESIGN CHOICE, assumption 109). -/
def State.writeCtl (s : State) (rq : Requester) (page : Nat) (v : Word) : State :=
  let en := natBit v.toNat 0
  if natBit v.toNat 1 then s.resetPage page
  else
    let s := s.setFlag (hdr page 8) 2 (natBit v.toNat 2)
    let locked := match s.pageJob page with
      | some j => (s.job j).live
      | none => false
    if !en && locked then s.pgErr page 1 rq 8
    else
      let s := s.setFlag (hdr page 8) 0 en
      match pageOf page with
      | some (.ref, n) => s.refControl n (if en then .arb else .disabled)
      | _ => s

/-- A word written to a header register (R39). -/
def State.writeHeader (s : State) (rq : Requester) (page off : Nat) (v : Word) : State :=
  if off = 0x08 then s.writeCtl rq page v
  else if off = 0x10 then
    let s := s.setReg (hdr page 0x10) (s.reg (hdr page 0x10) &&& ~~~v)
    let s := if page = 7 && natBit v.toNat 3 then s.setFlag (PageKind.time.at 0x64) 2 false else s
    if natBit v.toNat 0 then
      let s := (s.setReg (hdr page 0x1C) 0).setReg (hdr page 0x20) 0
      if page = 0 then s.setReg (PageKind.dev.at 0x48) 0 else s
    else s
  else if off = 0x14 then s.setReg (hdr page 0x14) v
  else if off = 0x18 then
    (List.range 32).foldl (fun s i => if natBit v.toNat i then s.raiseIrq page i else s) s
  else if off = 0x30 then
    match natBits v.toNat 1 0 with
    | 1 => s.txnBegin rq page (natBits v.toNat 31 16)
    | 2 => s.txnClose rq page true
    | 3 => s.txnClose rq page false
    | _ => s
  else if off = 0x38 then
    let reserved := decide (6 ≤ natBits v.toNat 2 0)
    let cls := if reserved then s.reg (hdr page 0x38) else v
    (if reserved then s.pgErr page 2 rq 0x38 else s).setReg (hdr page 0x38) ((v &&& 0x3F00) ||| (cls &&& 7))
  else s

end Sys2Proof.Machine
end

