-- ==== Sys2Proof/Machine/Time.lean ====
section
/-! DEFINITION. The time unit (R312–R319): the counter, setting and steering, and compare units. -/

namespace Sys2Proof.Machine

/-- BAR0 offset of a TIME register. -/
def timeAt (off : Nat) : Nat := PageKind.time.at off

/-- The increment in units of 2^-32 ns (R312). -/
def State.timeInc (s : State) : Nat := s.fld (timeAt 0x5C) 3 0 * 2 ^ 32 + (s.reg (timeAt 0x58)).toNat

/-- The counter raised by a number of 2^-32 ns (R312): 10^9 ns carry into the seconds, which wrap after 2^48 − 1. -/
def Stamp.add (t : Stamp) (n : Nat) : Stamp :=
  let f := t.frac + n
  let ns := t.ns + f / 2 ^ 32
  { sec := (t.sec + ns / 1000000000) % 2 ^ 48, ns := ns % 1000000000, frac := f % 2 ^ 32 }

/-- What a tick absorbs of the correction in progress: TIME_SLEW.ppm of the increment, or what is left (R316). -/
def State.slewStep (s : State) : Nat :=
  min (s.timeInc * s.fld (timeAt 0x80) 9 0 / 1000000) s.time.slew.natAbs

/-- The counter advances by the increment and the slew's step (R312, R316). -/
def State.timeAdvance (s : State) : State :=
  let d := s.slewStep
  let up := decide (0 ≤ s.time.slew)
  let n := if up then s.timeInc + d else s.timeInc - d
  let left : Int := if up then s.time.slew - d else s.time.slew + d
  let s := { s with time := { s.time with now := s.time.now.add n, slew := left } }
  if left = 0 then s.setFlag (timeAt 0x64) 1 false else s

/-- A SET that waits applies: it cancels any slew and clears set_armed (R315, R316). -/
def State.timeApplySet (s : State) (sec ns : Nat) : State :=
  let s := { s with time := { s.time with now := { sec := sec, ns := ns, frac := 0 }, slew := 0, setTo := none } }
  ((s.setFlag (timeAt 0x64) 0 false).setFlag (timeAt 0x64) 1 false).raiseIrq 7 4

/-- The time unit is on and enabled (R314). -/
def State.timeRuns (s : State) : Bool := s.pgEnabled 7 && s.domainOn 77

/-- SET (R315). -/
def State.timeSetCmd (s : State) (rq : Requester) : State :=
  if s.flag (timeAt 0x64) 0 then
    let sec := (s.reg (timeAt 0x6C)).toNat + s.fld (timeAt 0x70) 15 0 * 2 ^ 32
    { s with time := { s.time with setTo := some (sec, s.fld (timeAt 0x68) 29 0) } }
  else s.pgErr 7 0x0902 rq 0x60

/-- ADJ (R316). -/
def State.timeAdjCmd (s : State) (rq : Requester) : State :=
  let d : Int := signedOf 32 (s.reg (timeAt 0x74)).toNat * 2 ^ 32 + (s.fld (timeAt 0x78) 15 0 * 2 ^ 16 : Nat)
  let sum := s.time.slew + d
  if sum.natAbs ≤ s.fld (timeAt 0x7C) 23 0 * 2 ^ 32 then
    { s with time := { s.time with slew := sum } }.setFlag (timeAt 0x64) 1 (sum != 0)
  else
    let s := ((s.setFlag (timeAt 0x64) 2 true).raiseIrq 7 3).pgErr 7 0x0901 rq 0x60
    s.logEvent 346 0x0901 0xFF (Config.severity 0x0901).toNat []

/-- ARM (R315): set_armed set, and the ARM logged under a code the spec leaves open. -/
def State.timeArmCmd (s : State) : State :=
  let code := (Config.irqCode (346 * 32 + 31)).toNat
  (s.setFlag (timeAt 0x64) 0 true).logEvent 346 code 0xFF (Config.severity code).toNat []

/-- CANCEL (R316). -/
def State.timeCancelCmd (s : State) : State :=
  { s with time := { s.time with slew := 0 } }.setFlag (timeAt 0x64) 1 false

/-- TIMEREF_TICK (R312–R317): a staged increment applies, then a waiting SET, or the counter advances. -/
def execTimerefTick (s : State) : Host.Outcome State Fault Refusal :=
  let s := s.swapTick
  if s.timeRuns then
    let s := s.applyShadow 7
    match s.time.setTo with
    | some v => .next (s.timeApplySet v.1 v.2)
    | none => .next s.timeAdvance
  else .next s

/-- TIME_COMPARE_FIRE (R319): unit `j`, armed, at a tick whose flat value has reached its target (R318). -/
def execTimeCompareFire (j : Nat) (s : State) : Host.Outcome State Fault Refusal :=
  let r := timeAt (0x100 + 0x10 * j)
  let target := s.reg64 r
  let diff := signedOf 64 (unsignedOf 64 ((s.flat : Int) - target))
  if j < 8 ∧ s.timeRuns ∧ s.flag (r + 0xC) 0 ∧ 0 ≤ diff then
    let s := { s with time := { s.time with high := s.time.high ||| BitVec.ofNat 8 (2 ^ j) } }.raiseIrq 7 (5 + j)
    let per := (s.reg (r + 8)).toNat
    if per = 0 then .next (s.setFlag (r + 0xC) 0 false)
    else
      let n := diff.toNat / per + 1
      let s := s.setReg64 r ((target + per * n) % 2 ^ 64)
      .next (if 1 < n then s.setFlag (r + 0xC) 1 true else s)
  else .next s

/-- TIME_CMP_PULSE_END (R319). -/
def execTimeCmpPulseEnd (j : Nat) (s : State) : Host.Outcome State Fault Refusal :=
  .next { s with time := { s.time with high := s.time.high &&& ~~~(BitVec.ofNat 8 (2 ^ j)) } }

end Sys2Proof.Machine
end

