-- ==== Sys2Proof/Machine/Ptp.lean ====
section
/-! DEFINITION. IEEE 1588-2019 on the lanes: what a lane writes into a departing message (R322), and firmware's PTP instance (R323).
The places of a message's fields are those of IEEE 1588-2019, which the spec names (assumption 25). -/

namespace Sys2Proof.Machine

/-! ### Octets of a message -/

/-- Bytes of a body replaced from an offset on. -/
def bodyPut (body : List Byte) (off : Nat) (bs : List Byte) : List Byte :=
  body.take off ++ bs ++ body.drop (off + bs.length)

/-- The big-endian bytes of a value, `n` of them. -/
def beBytes (n v : Nat) : List Byte := (leBytes n v).reverse

/-- The big-endian value of `n` bytes at an offset of a body. -/
def bodyGet (body : List Byte) (off n : Nat) : Nat := leNat ((body.drop off).take n).reverse

/-- A counter value in units of 2^-16 ns (R322). -/
def Stamp.units (t : Stamp) : Int := ((t.sec * 1000000000 + t.ns) * 65536 + t.frac / 65536 : Nat)

/-- The timestamp of a message, seconds and nanoseconds, in units of 2^-16 ns. -/
def bodyTime (body : List Byte) (off : Nat) : Int := ((bodyGet body off 6 * 1000000000 + bodyGet body (off + 6) 4) * 65536 : Nat)

/-- A message's correctionField. -/
def bodyCorr (body : List Byte) : Int := signedOf 64 (bodyGet body 8 8)

/-- The messageType. -/
def bodyType (body : List Byte) : Nat := (body.getD 0 0).toNat % 16

/-- What the lane writes into a departing kind 0x01 frame (R322). -/
def ptpStamp (t : Stamp) (body : List Byte) : List Byte :=
  let frac := t.frac / 2 ^ 16
  let corr := bodyGet body 8 8
  let origin := beBytes 6 t.sec ++ beBytes 4 t.ns
  match bodyType body with
  | 0 =>
    let flags := (body.getD 6 0) &&& 0xFD
    bodyPut (bodyPut (bodyPut body 34 origin) 8 (beBytes 8 ((corr + frac) % 2 ^ 64))) 6 [flags]
  | 1 | 2 => bodyPut body 34 origin
  | 3 => bodyPut body 8 (beBytes 8 (unsignedOf 64 ((corr : Int) + (t.units - (bodyTime body 34 + bodyGet body 18 2)))))
  | _ => body

/-! ### Messages that the instance sends (R323) -/

/-- The portIdentity of the instance's port on lane `n`. -/
def portIdentity (n : Nat) : List Byte := beBytes 8 Config.clockIdentity.toNat ++ beBytes 2 (n + 1)

/-- A message's header: type, length, domain, correctionField, the low 16 bits of the reserved octets 16–19, port and sequenceId. -/
def ptpHeader (type len domain corr low n seqNo : Nat) : List Byte :=
  [BitVec.ofNat 8 type, 0x12] ++ beBytes 2 len ++ [BitVec.ofNat 8 domain, 0, 0, 0] ++ beBytes 8 corr ++ beBytes 4 low ++ portIdentity n ++
    beBytes 2 seqNo ++ [if type = 0 then 0 else 5, 0x7F]

/-- A control frame queued on a lane with the lane's next sequence number (R297). -/
def State.queueControl (s : State) (n kind : Nat) (body : List Byte) (stamp : Bool) : State :=
  let l := s.lane n
  s.setLane n { l with control := l.control ++ [⟨kind, l.line.ctlSeq, body, stamp⟩], line := { l.line with ctlSeq := l.line.ctlSeq + 1 } }

/-- A message queued on a lane as a kind 0x01 frame, its timestamps written as it departs (R297, R322). -/
def State.ptpQueue (s : State) (n : Nat) (body : List Byte) : State := s.queueControl n 1 body true

/-- The state with the instance changed. -/
def State.setPtp (s : State) (p : Ptp) : State := { s with time := { s.time with ptp := some p } }

/-- The instance has a port on lane `n`: a command named it and it is OPERATIONAL (R323). -/
def State.ptpPort (s : State) (p : Ptp) (n : Nat) : Bool := p.lanes.getLsbD n && (s.lane n).state == .operational

/-- The data set that the package announces, and the one that its parent announced: priority1, clockQuality, priority2, identity and
stepsRemoved. -/
def Ptp.dataset (p : Ptp) : List Byte := if p.parent.isSome then p.best else beBytes 14 Config.ptpDataset.toNat ++ [0, 0]

/-- A message of the instance's own: Sync, Pdelay_Req or Announce. -/
def State.ptpSend (s : State) (p : Ptp) (n type : Nat) : Ptp × State :=
  let d := p.dataset
  let steps := bodyGet d 14 2 + boolNat p.parent.isSome
  let (len, rest) := match type with
    | 0 => (44, List.replicate 10 0)
    | 11 => (64, List.replicate 13 0 ++ d.take 14 ++ beBytes 2 steps ++ [0xA0])
    | _ => (54, List.replicate 20 0)
  ({ p with seqNo := (p.seqNo + 1) % 65536 }, s.ptpQueue n (ptpHeader type len p.domain 0 0 n p.seqNo ++ rest))

/-- The best-master-clock algorithm (R323): the data sets heard and the package's own are compared octet by octet, the lower the better.
The port of the best one heard is the slave where it is better than the package's own. -/
def Ptp.elect (p : Ptp) : Ptp :=
  let key := fun (d : List Byte) => bodyGet d 0 16
  let own := beBytes 14 Config.ptpDataset.toNat ++ [0, 0]
  let best := p.heard.foldl (fun (b : Option (Nat × List Byte)) h => match b with
    | none => some h
    | some c => if key h.2 < key c.2 then some h else some c) none
  match best with
  | none => { p with parent := none, best := [] }
  | some h => if key h.2 < key own then { p with parent := some h.1, best := h.2, master := false }
      else { p with parent := none, best := [], master := true }

/-- A port acts as master: it sends Announce and Sync (R323). Beside a slave port the others do, but for one that hears the parent's
grandmaster over a path as short. -/
def Ptp.masterPort (p : Ptp) (n : Nat) : Bool :=
  match p.parent with
  | none => p.master
  | some r => n != r && !p.heard.any (fun h => h.1 == n && h.2.take 14 == p.best.take 14 &&
      decide (bodyGet h.2 14 2 ≤ bodyGet p.best 14 2 + 1))

/-- Announce receipt intervals that are over (R323): what a port has heard is forgotten, and a listening instance becomes master. The
intervals are firmware's own: free bits (assumption 93). -/
def State.ptpExpire (s : State) (p : Ptp) : Ptp × State :=
  let r := p.heard.foldl (fun (a : List (Nat × List Byte) × State) h =>
    (if Config.freeBit a.2.free then a.1 else a.1 ++ [h], { a.2 with free := a.2.free + 1 })) ([], s)
  let p := { p with heard := r.1 }.elect
  ({ p with master := p.master || (p.parent.isNone && Config.freeBit r.2.free) }, { r.2 with free := r.2.free + 1 })

/-- What the instance sends of its own accord on its ports, when its intervals are over: Pdelay_Req, and where a port is master Announce
and Sync (R323). The intervals are firmware's own: free bits (assumption 93). -/
def State.ptpPoll (s : State) : State :=
  match s.time.ptp with
  | none => s
  | some p =>
    let e := s.ptpExpire p
    let ports := (List.range 64).filter (s.ptpPort p)
    let r := ports.foldl (fun (a : Ptp × State) n => (if a.1.masterPort n then [2, 11, 0] else [2]).foldl (fun (a : Ptp × State) k =>
      let s := { a.2 with free := a.2.free + 1 }
      if Config.freeBit a.2.free then s.ptpSend a.1 n k else (a.1, s)) a) e
    r.2.setPtp r.1

/-! ### Corrections (R315, R316, R323) -/

/-- The rate that firmware steers the counter to, staged in TIME_INC (R312, R323): 5 to 7 ns and a fraction of its own choice, a free
value (assumption 93). -/
def State.ptpRate (s : State) : State :=
  let v := (Config.freeDword s.free).toNat
  let s := { s with free := s.free + 1 }
  let all := BitVec.ofNat 32 (2 ^ 32 - 1)
  (s.stageWrite { addr := timeAt 0x58, value := BitVec.ofNat 32 v, mask := all, rq := .fw }).stageWrite
    { addr := timeAt 0x5C, value := BitVec.ofNat 32 (5 + v / 2 ^ 32 % 3), mask := 15, rq := .fw }

/-- A correction of the counter by −`o` units of 2^-16 ns: the first with SET, every later one with ADJ and TIME_INC. An offset beyond the
range of TIME_ADJ is written as its end. One that is refused is reported and not retried. -/
def State.ptpCorrect (s : State) (p : Ptp) (o : Int) : State :=
  let p' := { p with offset := o, first := false }
  if !s.timeRuns then s.setPtp { p with offset := o }
  else if p.first then
    let v := unsignedOf 96 (s.time.now.units - o) / 65536
    let s := (s.setReg (timeAt 0x68) (BitVec.ofNat 32 (v % 1000000000))).setReg (timeAt 0x6C) (BitVec.ofNat 32 (v / 1000000000))
    ((s.setReg (timeAt 0x70) (BitVec.ofNat 32 (v / 1000000000 / 2 ^ 32 % 65536))).setPtp p').timeSetCmd .fw
  else
    let d := unsignedOf 48 (max (-140737488355328) (min 140737488355327 (-o)))
    let s := (s.setReg (timeAt 0x74) (BitVec.ofNat 32 (d / 65536))).setReg (timeAt 0x78) (BitVec.ofNat 32 (d % 65536))
    ((s.setPtp p').timeAdjCmd .fw).ptpRate

/-- A Sync's times are complete: the offset from the parent, with the lane's mean delay and delayAsymmetry (R323). -/
def State.ptpOffset (s : State) (p : Ptp) (n : Nat) (rx origin corr : Int) : State :=
  let asym := signedOf 64 (p.asym.getD n 0).toNat
  s.ptpCorrect p (rx - origin - corr - Sparse.get 0 p.delays n - asym)

/-- A peer delay's times are complete: the lane's mean delay. -/
def Ptp.measured (p : Ptp) (n : Nat) (t1 t4 turn corr : Int) : Ptp := { p with delays := Sparse.set 0 p.delays n ((t4 - t1 - turn - corr) / 2) }

/-! ### Messages received -/

/-- A message's two-step partner that waits. -/
def Ptp.waits (p : Ptp) (n seqNo type : Nat) : Option (Int × Int × Int) :=
  (p.twoStep.find? (fun w => w.1 == n && w.2.1 == seqNo && w.2.2.1 == type)).map (fun w => w.2.2.2)

/-- A message waits for its follow-up. -/
def Ptp.await (p : Ptp) (n seqNo type : Nat) (v : Int × Int × Int) : Ptp :=
  { p with twoStep := p.twoStep.filter (fun w => w.1 != n || w.2.2.1 != type) ++ [(n, seqNo, type, v)] }

/-- An Announce received on a port: its data set, and the election (R323). -/
def Ptp.announced (p : Ptp) (n : Nat) (body : List Byte) : Ptp :=
  { p with heard := p.heard.filter (fun (h : Nat × List Byte) => h.1 != n) ++ [(n, (body.drop 47).take 16)] }.elect

/-- A kind 0x01 frame taken by the instance, with its receive timestamp (R322, R323): Pdelay_Req is answered in one step, and one-step
and two-step Sync and Pdelay_Resp are followed. -/
def State.ptpReceive (s : State) (n : Nat) (body : List Byte) (t : Stamp) : State :=
  match s.time.ptp with
  | none => s
  | some p =>
    let seqNo := bodyGet body 30 2
    let two := natBit (body.getD 6 0).toNat 1
    let mine := (body.drop 44).take 10 == portIdentity n
    if !s.fwUp || !s.ptpPort p n || bodyGet body 4 1 != p.domain then s
    else
      let s := match bodyType body with
        | 2 =>
          let head := ptpHeader 3 54 p.domain (bodyGet body 8 8) (t.frac / 65536) n seqNo
          s.ptpQueue n (head ++ beBytes 6 t.sec ++ beBytes 4 t.ns ++ (body.drop 20).take 10)
        | 3 =>
          match (s.lane n).line.reqAt with
          | some (k, t1) =>
            if !mine || k != seqNo then s
            else if two then s.setPtp (p.await n seqNo 3 (t.units, bodyTime body 34, bodyCorr body))
            else s.setPtp (p.measured n t1.units t.units 0 (bodyCorr body))
          | none => s
        | 10 =>
          match p.waits n seqNo 3, (s.lane n).line.reqAt with
          | some (t4, t2, corr), some (_, t1) => if mine then s.setPtp (p.measured n t1.units t4 (bodyTime body 34 - t2) (corr + bodyCorr body)) else s
          | _, _ => s
        | 0 =>
          if p.parent ≠ some n then s
          else if two then s.setPtp (p.await n seqNo 0 (t.units, 0, bodyCorr body))
          else s.ptpOffset p n t.units (bodyTime body 34) (bodyCorr body)
        | 8 =>
          match p.waits n seqNo 0 with
          | some (rx, _, corr) => if p.parent = some n then s.ptpOffset p n rx (bodyTime body 34) (corr + bodyCorr body) else s
          | none => s
        | 11 => s.setPtp (p.announced n body)
        | _ => s
      s.ptpPoll

/-! ### Capture channels (R320) -/

/-- A counter value reduced by a number of 2^-32 ns, modulo the counter's range. -/
def Stamp.sub (t : Stamp) (n : Nat) : Stamp :=
  let whole := 2 ^ 48 * 1000000000 * 2 ^ 32
  let v := (((t.sec * 1000000000 + t.ns) * 2 ^ 32 + t.frac) + (whole - n % whole)) % whole
  { sec := v / 2 ^ 32 / 1000000000, ns := v / 2 ^ 32 % 1000000000, frac := v % 2 ^ 32 }

/-- The time since the last tick of an edge, in units of 2^-32 ns, from its nanoseconds and the two halves of its fraction: less than an
increment (R312, R320). -/
def State.sinceTick (s : State) (ns : BitVec 4) (frac low : BitVec 16) : Nat :=
  min (ns.toNat * 2 ^ 32 + frac.toNat * 2 ^ 16 + low.toNat) (s.timeInc - 1)

/-- TIME_CAPTURE_EDGE (R320): an edge on TIME_CAPk, some time after the last tick: the counter as interpolated, less the synchroniser's
delay, is recorded. A channel that gives the PTP instance its pulse-per-second is read at once: the offset is the distance to the nearest
second (R323). -/
def execTimeCaptureEdge (k : Nat) (rising : Bool) (ns : BitVec 4) (frac low : BitVec 16) (s : State) :
    Host.Outcome State Fault Refusal :=
  let r := timeAt (0x200 + 0x10 * k)
  let edge := s.fld r 1 0
  if k < 4 ∧ s.timeRuns ∧ natBit edge (if rising then 0 else 1) then
    if s.flag r 2 then .next (s.bump r 23 8 1)
    else
      let v := (s.time.now.add (s.sinceTick ns frac low)).sub Config.captureDelay
      let s := (s.setFlag r 2 true).setReg (r + 4) (BitVec.ofNat 32 v.ns)
      let s := s.setReg (r + 8) (BitVec.ofNat 32 v.sec)
      let s := s.setReg (r + 0xC) (BitVec.ofNat 32 (v.sec / 2 ^ 32 + v.frac / 2 ^ 16 * 2 ^ 16))
      let s := s.raiseIrq 7 (13 + k)
      match s.time.ptp with
      | some p =>
        if p.pps = k then
          let part : Int := v.units % 65536000000000
          .next ((s.ptpCorrect p (if part < 32768000000000 then part else part - 65536000000000)).setFlag r 2 false)
        else .next s
      | none => .next s
  else .next s

end Sys2Proof.Machine
end

