-- ==== Sys2Proof/Machine/Lanes.lean ====
section
/-! DEFINITION. Serial lanes (chapter 12): the frame sent (R287–R297), insertion units (R291–R293), the frame received
(R288–R302), bring-up (R305–R307) and the test features (R308, R309). -/

namespace Sys2Proof.Machine

/-! ### The huddle field (R324) -/

/-- The done_m that a job's huddle copies carry: the last design cycle completed, m_c − 1 from the start of a restore (R324,
R331). -/
def Job.doneM (x : Job) : Nat :=
  let m := match x.prot.state, x.prot.replay with
    | .rollback, some r => if r.restored then r.mC else x.m
    | _, _ => x.m
  (m + 65535) % 65536

/-- The huddle field that a lane sends: that of the job whose peer lane it is, or 0 (R288, R324). -/
def State.huddleWord (s : State) (n : Nat) : Nat :=
  match s.laneJob n with
  | some j =>
    if s.external j n then 0
    else
      let st := (s.reg (hudAt j 4)).toNat
      (s.job j).doneM + boolNat (2 ≤ natBits st 2 0) * 2 ^ 16 + natBits st 6 6 * 2 ^ 17 + natBits st 15 8 * 2 ^ 18 +
        natBits st 5 3 * 2 ^ 26
  | none => 0

/-! ### Design and service blocks (R295–R298) -/

/-- The words at the front of a lane's queue that form its next design block: consecutive positions of one design cycle, at most
four, up to a close (R295). -/
def designRun : Nat → List TxWord → List TxWord
  | 0, _ => []
  | _, [] => []
  | n + 1, w :: ws =>
    if w.close then [w]
    else match ws with
      | v :: _ => if v.m = w.m ∧ v.e = w.e + 1 then w :: designRun n ws else [w]
      | [] => [w]

/-- The next design block, once it has closed (R295). -/
def Lane.nextBlock (l : Lane) : Option (List TxWord) :=
  let run := designRun 4 l.words
  match run.getLast? with
  | none => none
  | some w => if run.length = 4 ∨ w.close ∨ run.length < l.words.length then some run else none

/-- A byte list as the low bytes of a block. -/
def blockBits (bs : List Byte) : Nat := leNat bs

/-- The bytes of a control frame: header, body, zeros up to whole blocks (R297). -/
def controlBytes (kind : Nat) (seq : BitVec 32) (body : List Byte) : List Byte :=
  let bs := [BitVec.ofNat 8 kind, 0] ++ leBytes 2 body.length ++ leBytes 4 seq.toNat ++ body
  bs ++ List.replicate ((32 - bs.length % 32) % 32) 0

/-- A control frame's blocks with their service types: 4 a single block; 1 first, 2 middle, 3 last (R289, R297). -/
def controlBlocks (bs : List Byte) : List (List Byte × Nat) :=
  let n := bs.length / 32
  (List.range n).map (fun i =>
    ((bs.drop (32 * i)).take 32, if n = 1 then 4 else if i = 0 then 1 else if i + 1 = n then 3 else 2))

/-- What fills a frame: the lane as its queues empty, the position after the message's last design block, the message's first
position, whether the frame's marker block is out, and the message's blocks with their tags. -/
structure Fill where
  lane   : Lane
  next   : Option (Nat × Nat)
  first  : Option (Nat × Nat)
  marker : Bool
  blocks : List (Nat × Nat)
  deriving DecidableEq, Repr

/-- The next service block of a message (R296): the frame's replay-marker block, a block of a control frame, or idle. A PTP frame's
timestamps are written as its first block departs (R297, R322). -/
def Fill.service (f : Fill) (oper : Bool) (t : Stamp) : Fill :=
  let l := f.lane
  let idle := { f with blocks := f.blocks ++ [(0, 0)] }
  if !oper then idle
  else match f.marker, l.marker with
    | false, some (m, a, n) =>
      { f with lane := { l with marker := if n ≤ 1 then none else some (m, a, n - 1) }, marker := true
               blocks := f.blocks ++ [(m + a * 2 ^ 64, 5)] }
    | _, _ =>
      match l.curCtl with
      | (bs, ty) :: rest => { f with lane := { l with curCtl := rest }, blocks := f.blocks ++ [(blockBits bs, ty)] }
      | [] =>
        match l.control with
        | c :: cs =>
          let body := if c.stamp then ptpStamp t c.body else c.body
          let asks := c.stamp && bodyType body == 2
          let line := if asks then { l.line with reqAt := some (bodyGet body 30 2, t) } else l.line
          match controlBlocks (controlBytes c.kind c.seq body) with
          | (bs, ty) :: rest =>
            { f with lane := { l with control := cs, curCtl := rest, line := line }, blocks := f.blocks ++ [(blockBits bs, ty)] }
          | [] => idle
        | [] => idle

/-- One more block of a message (R296): a design block, or a service block. A design block that does not follow the message's last one
waits for the next message (R295), and service blocks go ahead of it. -/
def Fill.add (f : Fill) (design oper : Bool) (t : Stamp) : Fill :=
  let l := f.lane
  let follows := fun (w : TxWord) => match f.next with
    | none => true
    | some p => (w.m == p.1 && w.e == p.2) || (w.m == p.1 + 1 && w.e == 0)
  match if design then l.nextBlock else none with
  | some (w :: ws) =>
    if follows w then
      let ws := w :: ws
      let bits := (ws.zipIdx).foldl (fun a x => a + (if x.1.parked then 0 else x.1.word.toNat) * 2 ^ (64 * x.2)) 0
      let last := ws.getLastD w
      { f with lane := { l with words := l.words.drop ws.length }, next := some (last.m, last.e + 1)
               first := f.first <|> some (w.m, w.e)
               blocks := f.blocks ++ [(bits, 8 + 4 * boolNat w.parked + (ws.length - 1))] }
    else f.service oper t
  | _ => f.service oper t

/-- The 19 blocks of a message. -/
def Fill.message (f : Fill) (design oper : Bool) (t : Stamp) : Fill :=
  (List.range 19).foldl (fun f _ => f.add design oper t) { f with next := none, first := none, blocks := [] }

/-- A codeword message of its CH.specific, index, first position and blocks (R287, R290). -/
def messageOf (specific cw : Nat) (first : Option (Nat × Nat)) (blocks : List (Nat × Nat)) : BitVec 5140 :=
  let p := first.getD (0, 0)
  let body := (blocks.zipIdx).foldl (fun a b => a + b.1.1 * 2 ^ (256 * b.2 + 168) + b.1.2 * 2 ^ (4 * b.2 + 5032))
    (specific + cw * 2 ^ 136 + p.2 * 2 ^ 138 + p.1 % 65536 * 2 ^ 152)
  BitVec.ofNat 5140 (body + (crc32Bits 5108 body).toNat * 2 ^ 5108)

/-- CH.specific of message `cw` of a frame whose CW0 left at step counter `stamp` (R288): the huddle field is the one current as the
message starts. -/
def State.specific (s : State) (n cw stamp eqReq preset : Nat) : Nat :=
  let l := s.lane n
  match cw with
  | 0 =>
    let job := (s.reg (laneAt n 0x50)).toNat
    0xB10A0B0F5A3C96E1 + l.txSeq.toNat * 2 ^ 64 + s.fld (laneGroupAt 0 0x44) 4 0 * 2 ^ 96 + n * 2 ^ 101 +
      natBits job 14 0 * 2 ^ 107 + natBits job 31 31 * 2 ^ 122
  | 1 =>
    let echo := match l.rxStamp with
      | some (tx, d) => tx * 2 ^ 48 + (stamp + 65536 - d) % 65536 * 2 ^ 64
      | none => 0
    s.huddleWord n + stamp * 2 ^ 32 + echo + s.fld (laneAt n 0x54) 7 0 * 2 ^ 80 + eqReq * 2 ^ 88 + l.eqAckTx.toNat * 2 ^ 96 +
      preset * 2 ^ 104
  | 3 => s.huddleWord n
  | _ => 0

/-! ### The line (R286, R291–R294) -/

/-- The native scrambler's bits s(0), s(1), …: the state holds the last 58, the newest at bit 0 (R291). -/
def scramble : Nat → Nat → List Bool
  | 0, _ => []
  | n + 1, st =>
    let b := natBit st 38 ^^ natBit st 57
    b :: scramble n ((st * 2 + boolNat b) % 2 ^ 58)

/-- The PAM4 symbols of a list of bits (R291). -/
def pamSymbols : List Bool → List Nat
  | a :: b :: rest => (if a then (if b then 2 else 3) else (if b then 1 else 0)) :: pamSymbols rest
  | _ => []

/-- The bits of PAM4 symbols (R291). -/
def pamBits (symbols : List Nat) : List Bool := symbols.flatMap (fun v => [decide (2 ≤ v), v == 1 || v == 2])

/-- Changes of level between consecutive symbols. -/
def transitions : List Nat → Nat
  | a :: b :: rest => boolNat (a != b) + transitions (b :: rest)
  | _ => 0

/-- Symbols in which two units differ. -/
def unitDiff (a b : List Nat) : Nat := (List.zip a b).countP (fun p => p.1 != p.2)

/-- Insertion pattern I (R292). -/
def insertI : List Nat := (List.range 32).map (fun i => if i % 2 = 0 then 0 else 3)

/-- Escape pattern X (R292). -/
def insertX : List Nat := (List.range 32).map (fun i => if i % 2 = 0 then 3 else 0)

/-- The units sent for data units after a previous unit (R292): before each, X where it resembles an insertion unit, else I where the
two would hold too few transitions. -/
def insertUnits : List Nat → List (List Nat) → List (List Nat)
  | _, [] => []
  | prev, u :: us =>
    if unitDiff u insertI ≤ 4 ∨ unitDiff u insertX ≤ 4 then insertX :: u :: insertUnits u us
    else if transitions (prev ++ u) < 8 then insertI :: u :: insertUnits u us
    else u :: insertUnits u us

/-- The data units of received units (R292): one that matches I or X in at least 28 symbols is removed, and the one after an X is data. -/
def removeUnits : Bool → List (List Nat) → List (List Nat)
  | _, [] => []
  | true, u :: us => u :: removeUnits false us
  | false, u :: us =>
    if unitDiff u insertX ≤ 4 then removeUnits true us
    else if unitDiff u insertI ≤ 4 then removeUnits false us
    else u :: removeUnits false us

/-- A list cut into `n` pieces of `k`. -/
def pieces {α : Type} (k : Nat) : Nat → List α → List (List α)
  | 0, _ => []
  | n + 1, xs => xs.take k :: pieces k n (xs.drop k)

/-- The low `n` bits of a value, bit 0 first. -/
def bitsOf (n v : Nat) : List Bool := (List.range n).map v.testBit

/-- A message's bits as one RS(544,514) codeword (R291). -/
def codewordBits (m : BitVec 5140) : List Bool := bitsOf 5140 m.toNat ++ bitsOf 300 (rsParity m).toNat

/-- Two lists of bits, XOR. -/
def xorBits (a b : List Bool) : List Bool := List.zipWith (fun x y => x ^^ y) a b

/-- The self-synchronous scrambler of 64b/66b (R294): bits sent for bits, and the last 58 sent, the newest at bit 0. -/
def selfScramble (past : Nat) (bits : List Bool) : List Bool × Nat :=
  bits.foldl (fun a b =>
    let o := b ^^ natBit a.2 38 ^^ natBit a.2 57
    (a.1 ++ [o], (a.2 * 2 + boolNat o) % 2 ^ 58)) ([], past)

/-- The bits on the line in the fallback codings (R294): 64b/66b blocks, the frame's first with header 10. -/
def fallbackLine (coding past : Nat) (msgs : List (BitVec 5140)) : List Nat × Nat :=
  let bits := if coding = 1 then msgs.flatMap (fun m => bitsOf 5140 m.toNat) ++ List.replicate 48 false else msgs.flatMap codewordBits
  let n := bits.length / 64
  let r := selfScramble past bits
  (((pieces 64 n r.1).zipIdx).flatMap (fun b => (if b.2 = 0 then [1, 0] else [0, 1]) ++ b.1.map boolNat), r.2)

/-- The units on the line for a native frame before its pace insertions (R291, R292), after the unit sent last. -/
def nativeUnits (last : List Nat) (msgs : List (BitVec 5140)) : List (List Nat) :=
  insertUnits last (pieces 32 340 (pamSymbols (xorBits (msgs.flatMap codewordBits) (scramble 21760 (2 ^ 58 - 1)))))

/-- Symbols with errors injected where a test says so (R309): a PAM4 level changes in bit 0, an NRZ bit is inverted. -/
def injectSymbols (symbols : List Nat) (hit : Nat → Bool) : List Nat := symbols.zipIdx.map (fun v => if hit v.2 then v.1 ^^^ 1 else v.1)

/-- Received NRZ bits without the 64b/66b headers, descrambled after the 58 bits before them (R294). -/
def fallbackBits (past : Nat) (symbols : List Nat) : List Bool :=
  let sent := (pieces 66 (symbols.length / 66) symbols).flatMap (fun b => (b.drop 2).map (· == 1))
  (sent.foldl (fun (a : List Bool × Nat) b =>
    (a.1 ++ [b ^^ natBit a.2 38 ^^ natBit a.2 57], (a.2 * 2 + boolNat b) % 2 ^ 58)) ([], past)).1

/-- What a lane in near-end loopback receives of message `cw` of its last frame (R308): whether the codeword was correctable, and the
RS symbols corrected. A codeword is correctable with at most 15 symbols in error; coding 1 has no code, and its message is what came. -/
def Lane.looped (l : Lane) (coding cw : Nat) : BitVec 5140 × Bool × Nat :=
  let m := l.sent.getD cw 0
  let bits := if coding = 0 then
      let units := pieces 32 (l.line.symbols.length / 32) l.line.symbols
      xorBits (pamBits (removeUnits false units).flatten) (scramble 21760 (2 ^ 58 - 1))
    else fallbackBits l.line.before l.line.symbols
  if coding = 1 then
    (BitVec.ofNat 5140 (((bits.drop (5140 * cw)).take 5140).zipIdx.foldl (fun a b => a + boolNat b.1 * 2 ^ b.2) 0), true, 0)
  else
    let got := pieces 10 544 (bits.drop (5440 * cw))
    let bad := (List.zip got (pieces 10 544 (codewordBits m))).countP (fun p => p.1 != p.2)
    (m, decide (bad ≤ 15), if bad ≤ 15 then bad else 0)

/-- A request for the partner's taps as the receiver's adaptation makes it: a free value without the reserved code (R305). -/
def freeEqReq (k : Nat) : Nat :=
  (List.range 4).foldl (fun a i =>
    let v := natBits (Config.freeByte k).toNat (2 * i + 1) (2 * i)
    a + (if v = 3 then 0 else v) * 2 ^ (2 * i)) 0

/-- The lane sends frames (R306). -/
def LaneState.sends : LaneState → Bool
  | .waitSignal | .align | .train | .measure | .operational => true
  | _ => false

/-- The lane's line once the four messages of a frame are out (R291–R294, R309): the symbols, with the insertions, the pace and the
injected errors, and the counters. In rate mode which symbols are hit is a free choice (assumption 94). -/
def State.sendLine (s : State) (n : Nat) : State :=
  let l := s.lane n
  let q := l.line
  let coding := s.fld (laneAt n 0x40) 3 2
  let last := if q.symbols = [] then insertI else q.symbols.drop (q.symbols.length - 32)
  let units := if coding = 0 then nativeUnits last q.msgs else []
  let g := units.length - 340
  let total := max g (2 - l.slip)
  let slip := if coding = 0 then l.slip + total - 2 else 0
  let fall := if coding = 0 then ([], q.past) else fallbackLine coding q.past q.msgs
  let clean := if coding = 0 then units.flatten ++ (List.replicate (total - g) insertI).flatten else fall.1
  let rate := l.state == .operational && s.fld (laneAt n 0xA8) 1 0 == 3
  let mask := if rate then Config.freeNat s.free else 0
  let hit := fun (i : Nat) => (decide (i < q.owed) || natBit mask i) && (l.state == .operational || l.state == .test)
  let s := s.setLane n { l with sent := q.msgs, txSeq := l.txSeq + 1, slip := slip
                                line := { q with cw := 0, marked := false, msgs := [], symbols := injectSymbols clean hit
                                                 owed := q.owed - clean.length, past := fall.2, before := q.past } }
  let s := if g = 0 then s else s.bump (laneAt n 0x68) 15 0 g
  let s := s.peak (laneAt n 0x68) 23 16 slip
  let hits := (List.range clean.length).countP hit
  let s := if hits = 0 then s else s.bump (laneAt n 0xAC) 31 0 hits
  if rate then { s with free := s.free + 1 } else s

/-- FRAME_TRANSMIT (R287–R297): the next message of a frame leaves, with what is current as it starts; `stamp` is the step counter at
the departure of CW0 and counts for that message. After CW3 the frame is whole. In far-end loopback what was received last is sent
on (R308). That a command sends one message of the four is the model's choice (DESIGN CHOICE, assumption 90). -/
def execFrameTransmit (lane : Nat) (stamp : BitVec 16) (s : State) : Host.Outcome State Fault Refusal :=
  let n := lane
  let l := s.lane n
  if !l.state.sends then .next s
  else
    let cw := l.line.cw
    let at_ := if cw = 0 then stamp.toNat else l.line.stamp
    let oper := l.state == .operational
    let design := s.carriesDesign n && s.flag (laneAt n 0x50) 31
    let asks := l.state == .train && cw == 1
    let eqReq := if asks then freeEqReq s.free else 0
    let preset := if asks then (Config.freeByte (s.free + 1)).toNat % 16 else 0
    let f : Fill := { lane := l, next := none, first := none, marker := l.line.marked, blocks := [] }
    let own := f.message design oper s.time.now
    let back := s.fld (laneAt n 0x40) 7 6 == 2
    let f := if back then f else own
    let msg := if back then l.line.rxMsg.getD 0 else messageOf (s.specific n cw at_ eqReq preset) cw f.first f.blocks
    let l := f.lane
    let l := { l with line := { l.line with cw := cw + 1, stamp := at_, marked := f.marker, msgs := l.line.msgs ++ [msg] } }
    let l := if cw = 1 then { l with eqAckTx := 0, eqReqTx := BitVec.ofNat 8 eqReq } else l
    let s := { s with free := s.free + (if asks then 2 else 0) }.setLane n l
    .next (if 3 ≤ cw then s.sendLine n else s)

/-! ### Reception -/

/-- A lane's design blocks are taken (R299, R300, R306, R330): the lane is OPERATIONAL and bound, the partner's L agrees, the epoch
is the job's on a peer lane, and no log feeds the buffer. -/
def State.takesBlocks (s : State) (n : Nat) : Bool :=
  let l := s.lane n
  match s.laneJob n with
  | some j =>
    let x := s.job j
    l.state == .operational && !l.rxOther &&
      (if s.external j n then !x.reexec && x.prot.state != .rollback else l.hudGot && l.huddle.epoch == s.epoch j)
  | none => false

/-- The words of a design block placed in the elastic buffer of 1,024 words (R300, R301): `abs` is the sender's position. Words already
due are dropped, and a block whose first word comes late is counted. A word that finds the buffer full, which R328 rules out, is dropped
(DESIGN CHOICE, assumption 95). -/
def State.placeBlock (s : State) (n j : Nat) (abs : Nat) (ws : List Dword) (parked : Bool) : State :=
  let x := s.job j
  let lam := s.lambda n
  let due := abs + lam
  let s := if due < x.abs then s.bump (laneAt n 0x6C) 15 0 1 else s
  (ws.zipIdx).foldl (fun s w =>
    let d := due + w.2
    let l := s.lane n
    let latest := match l.latest with
      | some v => max v d
      | none => d
    let s := s.setLane n { l with latest := some latest }
    let kept := (s.lane n).elastic.filter (fun v => v.due != d)
    if d < x.abs ∨ 1024 ≤ kept.length then s
    else
      let s := s.setLane n { s.lane n with elastic := kept ++ [⟨d, w.1, parked⟩] }
      let slack := min 1023 (d - x.abs)
      if slack < s.fld (laneAt n 0x4C) 9 0 then s.setFld (laneAt n 0x4C) 9 0 slack else s) s

/-- The design blocks of a message (R287, R289, R295): each follows the last position of the block before it. `m16` and `e` name
the first position; the full design cycle is the one nearest to the receiver's. -/
def State.receiveBlocks (s : State) (n : Nat) (msg : BitVec 5140) : State :=
  let v := msg.toNat
  let tag := fun (b : Nat) => natBits v (4 * b + 5035) (4 * b + 5032)
  let blocks := (List.range 19).filter (fun b => natBit (tag b) 3)
  if blocks = [] then s
  else match s.laneJob n with
    | none => s.bump (laneAt n 0x6C) 31 16 blocks.length
    | some j =>
      if !s.takesBlocks n then s.bump (laneAt n 0x6C) 31 16 blocks.length
      else
        let x := s.job j
        let m : Int := (x.m : Int) + signedOf 16 (unsignedOf 16 ((natBits v 167 152 : Int) - x.m))
        if m < 0 then s.bump (laneAt n 0x6C) 31 16 blocks.length
        else
          let start := m.toNat * x.len + natBits v 151 138
          (blocks.foldl (fun (a : State × Nat) b =>
            let count := tag b % 4 + 1
            let ws := (List.range count).map (fun i => BitVec.ofNat 64 (natBits v (256 * b + 168 + 64 * i + 63) (256 * b + 168 + 64 * i)))
            (a.1.placeBlock n j a.2 ws (natBit (tag b) 2), a.2 + count)) (s, start)).1

/-- The blocks of a CW0 that waited for its frame's huddle copy are taken (R330). -/
def State.releaseHeld (s : State) (n : Nat) : State :=
  let l := s.lane n
  match l.line.held with
  | some m => (s.setLane n { l with line := { l.line with held := none } }).receiveBlocks n m
  | none => s

/-- A control frame that has ended, whole or not, waits for firmware (R297). -/
def Line.endControl (q : Line) (f : RxControl) : Line := { q with rxCtl := none, ctlIn := q.ctlIn ++ [f] }

/-- A message has been lost: the control frame being received has a lost block (R297). -/
def Line.missed (q : Line) : Line := { q with rxCtl := q.rxCtl.map (fun (f : RxControl) => { f with lost := true }) }

/-- A block of a control frame received (R289, R297): a frame that another begins before its last block, and a block without its first,
have lost blocks. -/
def Line.takeControl (q : Line) (type : Nat) (bs : List Byte) (t : Stamp) : Line :=
  let q := match type, q.rxCtl with
    | 1, some f | 4, some f => q.endControl { f with lost := true }
    | _, _ => q
  match type, q.rxCtl with
  | 1, _ => { q with rxCtl := some ⟨bs, false, t⟩ }
  | 4, _ => q.endControl ⟨bs, false, t⟩
  | 2, some f => { q with rxCtl := some { f with bytes := f.bytes ++ bs } }
  | 3, some f => q.endControl { f with bytes := f.bytes ++ bs }
  | 3, none => q.endControl ⟨bs, true, t⟩
  | _, _ => q

/-- The control blocks of a message (R289, R297), with the time counter at its timestamp point (R321). In OPERATIONAL only (R306). -/
def State.receiveControl (s : State) (n : Nat) (msg : BitVec 5140) : State :=
  let v := msg.toNat
  let l := s.lane n
  if l.state ≠ .operational then s
  else
    let line := (List.range 19).foldl (fun (q : Line) b =>
      let tag := natBits v (4 * b + 5035) (4 * b + 5032)
      if 1 ≤ tag ∧ tag ≤ 4 then q.takeControl tag (leBytes 32 (natBits v (256 * b + 423) (256 * b + 168))) s.time.now else q) l.line
    s.setLane n { l with line := line }

/-- The next firmware-to-firmware control frame to every peer of a job (R297, R329, R345); its body of 1 to 504 bytes is firmware's own
(assumption 29). -/
def State.tellPeers (s : State) (j : Nat) : State :=
  let body := freeBytes s.free (1 + Config.freeNat s.free % 504)
  (s.peerLanes j).foldl (fun s n => s.queueControl n 2 body false) { s with free := s.free + 1 }

/-- Position 0 of a job's next design cycle has been released: its notice has passed with the release met, and no hold is decided before
it (R103, R325). -/
def State.nextReleased (s : State) (j : Nat) : Bool :=
  let x := s.job j
  decide (x.len < x.e + 16) && x.e != x.len && x.holdAt != some x.len && x.nextHold != some x.len && !x.gate

/-- A checkpoint announced in a peer's huddle copy (R329): taken over as the earliest target still to come, or reported as CK_LATE
where its design cycle has been released without it. -/
def State.ckHeard (s : State) (j ckM : Nat) : State :=
  let x := s.job j
  let d := signedOf 8 (unsignedOf 8 ((ckM : Int) - x.m))
  let t : Int := (x.m : Int) + d
  let asked := match x.prot.requested with
    | some r => decide ((r : Int) ≤ t)
    | none => false
  if decide (1 < d) || (d == 1 && (asked || !s.nextReleased j)) then
    let t := t.toNat
    let t := match x.prot.requested with
      | some r => min r t
      | none => t
    let s := s.setJob j { x with prot := { x.prot with requested := some t } }
    (s.setFlag (hudAt j 4) 6 true).setFld (hudAt j 4) 15 8 (t % 256)
  else
    let known := x.prot.retained.any (fun c => (c.m : Int) == t) || (d = 0 && x.prot.requested == some x.m) ||
      (match x.prot.copying with
        | some c => (c.m : Int) == t
        | none => false)
    if known || x.prot.state == .off then s
    else ((s.bump (hudAt j 0xC) 31 0 1).event j 0x0904 j [BitVec.ofNat 32 ckM]).tellPeers j

/-- A huddle copy received intact (R288, R324). -/
def State.huddleRx (s : State) (n v : Nat) : State :=
  let h : Huddle := { doneM := natBits v 15 0, valid := natBit v 16, ck := natBit v 17, ckM := natBits v 25 18
                      epoch := natBits v 28 26 }
  let s := s.setLane n { s.lane n with huddle := h, hudGot := true }
  match s.laneJob n with
  | some j => if h.ck && h.valid && (s.job j).live && !s.external j n then s.ckHeard j h.ckM else s
  | none => s

/-- A partner's request for the transmit taps applied, and its answer prepared (R305). -/
def State.eqApply (s : State) (n req : Nat) : State :=
  let step := fun (a : Nat × Nat) (i : Nat) =>
    let v : Int := signedOf 8 (natBits a.1 (8 * i + 7) (8 * i))
    match natBits req (2 * i + 1) (2 * i) with
    | 1 => if v = 127 then (a.1, a.2 + 2 * 4 ^ i) else (natPut a.1 (8 * i + 7) (8 * i) (unsignedOf 8 (v + 1)), a.2 + 4 ^ i)
    | 2 => if v = -128 then (a.1, a.2 + 2 * 4 ^ i) else (natPut a.1 (8 * i + 7) (8 * i) (unsignedOf 8 (v - 1)), a.2 + 4 ^ i)
    | _ => a
  let r := (List.range 4).foldl step ((s.reg (laneAt n 0x58)).toNat, 0)
  (s.setReg (laneAt n 0x58) (BitVec.ofNat 32 r.1)).setLane n { s.lane n with eqAckTx := BitVec.ofNat 8 r.2, eqBusy := true }

/-- CW0 received (R288, R299, R302, R307). -/
def State.rxCw0 (s : State) (n v : Nat) (stamp : BitVec 16) : State :=
  let pkg := natBits v 100 96
  let ln := natBits v 106 101
  let was := s.lanePartner n
  let s := s.setFld (laneAt n 0x44) 19 8 (ln + pkg * 2 ^ 6 + 2 ^ 11)
  let l := s.lane n
  let changed := l.state == .operational && was.isSome && was != some (pkg, ln)
  let other := natBit v 122 && s.flag (laneAt n 0x50) 31 && natBits v 121 107 != s.fld (laneAt n 0x50) 14 0
  let s := s.setLane n { l with rxCw := 1, rxWhole := true, rxOther := other, changed := l.changed || changed
                                rxFrame := (stamp.toNat, 0, 0, 0) }
  let s := if other && !s.flag (laneAt n 0x44) 4 then (s.setFlag (laneAt n 0x44) 4 true).raiseIrq (lanePage n) 8 else s
  if changed then (s.raiseIrq (lanePage n) 7).peerLost n else s

/-- CW1 received (R288, R305). -/
def State.rxCw1 (s : State) (n v : Nat) : State :=
  let l := s.lane n
  let req := natBits v 95 88
  let s := (s.setFld (laneAt n 0x54) 15 8 (natBits v 87 80)).setLane n
    { l with rxFrame := (l.rxFrame.1, natBits v 47 32, natBits v 63 48, natBits v 79 64), eqReqRx := BitVec.ofNat 8 req
             holdFrames := if req = 0 ∧ l.eqReqTx = 0 then l.holdFrames + 1 else 0
             eqBusy := if req = 0 then false else l.eqBusy }
  let s := s.huddleRx n (natBits v 31 0)
  if l.state != .train then s
  else
    let s := if natBit v 107 then s.setReg (laneAt n 0x58) (Config.lanePreset (natBits v 106 104)) else s
    if req = 0 ∨ l.eqBusy then s else s.eqApply n req

/-- The last message of a frame received whole: its stamps are kept, and in MEASURE it gives a sample (R288, R302). -/
def State.rxFrameEnd (s : State) (n : Nat) : State :=
  let l := s.lane n
  let (d, tx, echo, hold) := l.rxFrame
  let rtt := (d + 2 * 65536 - echo - hold) % 65536
  let measure := l.state == .measure && decide (l.samples < 1024)
  s.setLane n { l with rxStamp := some (tx, d), rxWhole := false
                       samples := if measure then l.samples + 1 else l.samples
                       maxRtt := if measure then max l.maxRtt rtt else l.maxRtt }

/-- The lane receives frames (R306). -/
def LaneState.receives : LaneState → Bool
  | .align | .train | .measure | .operational => true
  | _ => false

/-- A lane loses lock (R306, R307): back to ALIGN with auto_retrain, else FAILED. -/
def State.loseLock (s : State) (n : Nat) : State :=
  if !(s.lane n).state.receives then s
  else if s.flag (laneAt n 0x40) 1 then
    if (s.lane n).state = .align then s.raiseIrq (lanePage n) 3 else s.laneTo n .align 0
  else s.laneTo n .failed 5

/-- The design blocks of a message received intact, and its header (R288, R295, R330): on a peer lane those of CW0 wait for the frame's
first huddle copy, and where CW1 is lost they are judged by the newest copy there is. -/
def State.receiveMessage (s : State) (n cw : Nat) (msg : BitVec 5140) (stamp : BitVec 16) : State :=
  let v := msg.toNat
  let s := if cw = 1 then s else s.releaseHeld n
  let s := match cw with
    | 0 => s.rxCw0 n v stamp
    | 1 => s.rxCw1 n v
    | 3 => s.huddleRx n (natBits v 31 0)
    | _ => s
  let s := s.releaseHeld n
  let waits := cw == 0 && (match s.laneJob n with
    | some j => !s.external j n
    | none => false)
  if waits then s.setLane n { s.lane n with line := { (s.lane n).line with held := some msg } } else s.receiveBlocks n msg

/-- CODEWORD_MESSAGE_RX (R290): a message is taken, or discarded whole; the eighth lost in a row loses lock (R307). In near-end loopback
it is what the lane itself sent (R308). Complete control frames and replay markers are rows of their own. -/
def execCodewordMessageRx (lane : Nat) (msg : BitVec 5140) (rsOk : Bool) (corrected : Nat) (stamp : BitVec 16) (s : State) :
    Host.Outcome State Fault Refusal :=
  let n := lane
  if !(s.lane n).state.receives then .next s
  else
    let near := s.fld (laneAt n 0x40) 7 6 == 1
    let (msg, rsOk, corrected) := if near then (s.lane n).looped (s.fld (laneAt n 0x40) 3 2) (s.lane n).rxCw else (msg, rsOk, corrected)
    let v := msg.toNat
    let good := rsOk && crc32Bits 5108 (v % 2 ^ 5108) == BitVec.ofNat 32 (v / 2 ^ 5108)
    if !good then
      let s := ((s.releaseHeld n).bump (laneAt n 0x64) 31 0 1).raiseIrq (lanePage n) 6
      let l := s.lane n
      let s := s.setLane n { l with lostRun := l.lostRun + 1, rxWhole := false, rxCw := if near then (l.rxCw + 1) % 4 else l.rxCw
                                    line := l.line.missed }
      .next (if 8 ≤ l.lostRun + 1 then s.loseLock n else s)
    else
      let s := if corrected = 0 then s else s.bump (laneAt n 0x60) 31 0 corrected
      let cw := natBits v 137 136
      let l := s.lane n
      let inOrder := cw = 0 ∨ l.rxCw = cw
      let s := s.setLane n { l with lostRun := 0, rxCw := (cw + 1) % 4, rxWhole := l.rxWhole && decide inOrder
                                    line := { l.line with rxMsg := some msg } }
      let s := (s.receiveMessage n cw msg stamp).receiveControl n msg
      .next (if cw = 3 ∧ (s.lane n).rxWhole then s.rxFrameEnd n else s)

/-! ### Bring-up (R306, R307) -/

/-- SIGNAL_DETECTED (R306). -/
def execSignalDetected (lane : Nat) (s : State) : Host.Outcome State Fault Refusal :=
  .next (if (s.lane lane).state = .waitSignal then s.laneTo lane .align 0 else s)

/-- ALIGN_DONE (R306): the marker stood in place in 4 consecutive frames. -/
def execAlignDone (lane : Nat) (s : State) : Host.Outcome State Fault Refusal :=
  .next (if (s.lane lane).state = .align then s.laneTo lane .train 0 else s)

/-- ALIGN_TIMEOUT (R306). -/
def execAlignTimeout (lane : Nat) (s : State) : Host.Outcome State Fault Refusal :=
  .next (if (s.lane lane).state = .align then s.laneTo lane .failed 2 else s)

/-- TRAIN_DONE (R306): 16 frames with both requests at hold and a FOM of at least the floor. -/
def execTrainDone (lane : Nat) (s : State) : Host.Outcome State Fault Refusal :=
  let l := s.lane lane
  .next (if l.state = .train ∧ 16 ≤ l.holdFrames ∧ s.fld (laneAt lane 0x54) 31 24 ≤ s.fld (laneAt lane 0x54) 7 0 then
    s.laneTo lane .measure 0 else s)

/-- TRAIN_TIMEOUT (R306). -/
def execTrainTimeout (lane : Nat) (s : State) : Host.Outcome State Fault Refusal :=
  .next (if (s.lane lane).state = .train then s.laneTo lane .failed 3 else s)

/-- MEASURE_DONE (R302, R303): after 1,024 samples. -/
def execMeasureDone (lane : Nat) (s : State) : Host.Outcome State Fault Refusal :=
  let l := s.lane lane
  if l.state = .measure ∧ 1024 ≤ l.samples then
    let meas := (l.maxRtt + 1) / 2 + 8
    let s := s.setFld (laneAt lane 0x48) 25 16 (min 1023 meas)
    .next (if meas ≤ s.lambda lane then s.laneTo lane .operational 0 else s.laneTo lane .failed 4)
  else .next s

/-- LOCK_LOST (R306, R307): the marker has been missing in place in 4 consecutive frames; the run of 8 lost messages acts at the
eighth. -/
def execLockLost (lane : Nat) (s : State) : Host.Outcome State Fault Refusal := .next (s.loseLock lane)

/-- LANE_PLL_UNLOCK (R26, R306): every lane of the group but those in OFF fails. -/
def execLanePllUnlock (group : Nat) (s : State) : Host.Outcome State Fault Refusal :=
  if 4 ≤ group then .next s
  else
    let s := (s.setFlag (laneGroupAt group 0x40) 0 false).bump (PageKind.clk.at 0x48) 15 0 1
    let s := s.raiseIrq 2 3
    .next ((List.range 16).foldl (fun s i =>
      let n := group * 16 + i
      if (s.lane n).state = .off then s else s.laneTo n .failed 1) s)

/-- FOM_UPDATE (R304). -/
def execFomUpdate (lane : Nat) (fom : BitVec 8) (s : State) : Host.Outcome State Fault Refusal :=
  let r := laneAt lane 0x54
  let s := s.setFld r 7 0 fom.toNat
  let s := if fom.toNat < s.fld (laneAt lane 0x74) 7 0 then s.setFld (laneAt lane 0x74) 7 0 fom.toNat else s
  let low := decide (fom.toNat < s.fld r 23 16)
  let was := s.flag (laneAt lane 0x44) 3
  let s := s.setFlag (laneAt lane 0x44) 3 low
  .next (if low && !was then s.raiseIrq (lanePage lane) 4 else s)

/-- The 80-bit user pattern, newest bit first, as if it had just been sent (R308). -/
def State.userPattern (s : State) (n : Nat) : List Bool :=
  (bitsOf 80 ((s.reg (laneAt n 0x84)).toNat + (s.reg (laneAt n 0x88)).toNat * 2 ^ 32 + s.fld (laneAt n 0x8C) 15 0 * 2 ^ 64)).reverse

/-- The pattern that a lane's generator is set to (R308). -/
def State.patternOf (s : State) (n : Nat) : Nat × List Bool :=
  let p := s.fld (laneAt n 0x80) 3 0
  (p, if p = 9 then s.userPattern n else [])

/-- `k` bits of the pattern generator, oldest first, and its past bits (R308). A pattern starts from the user pattern's first bit, or from
a register of ones. -/
def State.generate (s : State) (n k : Nat) : List Bool × List Bool :=
  let p := s.fld (laneAt n 0x80) 3 0
  let q := (s.lane n).line
  let past := if q.gen ≠ [] ∧ q.genOf = s.patternOf n then q.gen else if p = 9 then s.userPattern n else List.replicate 31 true
  (List.range k).foldl (fun a _ =>
    let b := patternNext p a.2
    (a.1 ++ [b], (b :: a.2).take 80)) ([], past)

/-- What the checker holds while it reads a stretch: past bits, newest first, the run of error-free bits, whether it is locked, and the
bit errors and compared bits counted. -/
structure Checker where
  past : List Bool
  run  : Nat
  lock : Bool
  errs : Nat
  bits : Nat
  deriving DecidableEq, Repr

/-- One received bit (R308): unlocked, the checker seeds itself from the stream and locks after 64 error-free bits; locked, it runs on
its own and counts. -/
def Checker.take (p : Nat) (c : Checker) (b : Bool) : Checker :=
  let want := patternNext p c.past
  if c.lock then
    { c with past := (want :: c.past).take 80, errs := c.errs + boolNat (b != want), bits := c.bits + 1 }
  else
    let run := if patternSpan p ≤ c.past.length ∧ b = want then c.run + 1 else 0
    { c with past := (b :: c.past).take 80, run := run, lock := decide (64 ≤ run) }

/-- PATTERN_CHECKER_LOCK (R308, R309): a stretch of the line in TEST. The generator sends as many bits as the checker hears, with the
errors injected; in near-end loopback the checker hears those, and in far-end loopback what is heard is sent. -/
def execPatternCheckerLock (heard : Heard) (s : State) : Host.Outcome State Fault Refusal :=
  let n := heard.lane
  let l := s.lane n
  if l.state ≠ .test then .next s
  else
    let loop := s.fld (laneAt n 0x40) 7 6
    let native := s.fld (laneAt n 0x40) 3 2 == 0
    let inv := s.flag (laneAt n 0x80) 8
    let off := s.fld (laneAt n 0x80) 3 0 == 0
    let g := if off then ([], l.line.gen) else s.generate n heard.bits.length
    let bits := if loop = 2 then heard.bits else g.1.map (· ^^ inv)
    let rate := s.fld (laneAt n 0xA8) 1 0 == 3
    let mask := if rate then Config.freeNat s.free else 0
    let clean := if native then pamSymbols bits else bits.map boolNat
    let hit := fun (i : Nat) => decide (i < l.line.owed) || natBit mask i
    let symbols := injectSymbols clean hit
    let input := if loop = 1 then (if native then pamBits symbols else symbols.map (· == 1)) else heard.bits
    let p := s.fld (laneAt n 0x80) 7 4
    let c0 : Checker := { past := l.line.chk, run := l.line.run, lock := s.flag (laneAt n 0x90) 0, errs := 0, bits := 0 }
    let c := if p = 0 then c0 else input.foldl (fun c b => c.take p (b ^^ inv)) c0
    let s := s.setLane n { l with line := { l.line with symbols := symbols, owed := l.line.owed - symbols.length, gen := g.2
                                                        genOf := s.patternOf n, chk := c.past, run := c.run } }
    let hits := (List.range symbols.length).countP hit
    let s := if hits = 0 then s else s.bump (laneAt n 0xAC) 31 0 hits
    let s := if rate then { s with free := s.free + 1 } else s
    let s := s.setFlag (laneAt n 0x90) 0 c.lock
    let s := s.setReg64 (laneAt n 0x94) (s.reg64 (laneAt n 0x94) + c.errs)
    .next (s.setReg64 (laneAt n 0x9C) (s.reg64 (laneAt n 0x9C) + c.bits))

/-! ### Test features (R309, R311) -/

/-- A write of LANE_INJ.fire (R309): the next symbols sent are hit, and counted as they are. -/
def State.injectFire (s : State) (n : Nat) : State :=
  let l := s.lane n
  let k := match s.fld (laneAt n 0xA8) 1 0 with
    | 1 => 1
    | 2 => s.fld (laneAt n 0xA8) 9 2
    | _ => 0
  if (l.state = .test ∨ l.state = .operational) ∧ k ≠ 0 then
    s.setLane n { l with line := { l.line with owed := l.line.owed + k } }
  else s

/-- A write of LANE_PAT_CLR (R311). -/
def State.patternClear (s : State) (n : Nat) : State := (s.setReg64 (laneAt n 0x94) 0).setReg64 (laneAt n 0x9C) 0



end Sys2Proof.Machine
end

