-- ==== Sys2Proof/Machine/Capture.lean ====
section
/-! DEFINITION. The capture engine (R338–R350): records, the trigger sequencer, segments and gaps. -/

namespace Sys2Proof.Machine

/-- The event of a capture code (R351, R425). -/
def State.capEvent (s : State) (code : Nat) : State := s.event 350 code (s.cap.job.getD 0xFF) []

/-- The state with the capture engine changed. -/
def State.setCap (s : State) (c : Cap) : State := { s with cap := c }

/-! ### Writing records (R344, R346, R349) -/

/-- The bytes of a segment: 2^size_log2 (R344). -/
def State.capSize (s : State) : Nat := 2 ^ s.fld (capAt 0 0x48) 5 0

/-- The HBM address of an offset of a segment (R344). -/
def State.capAddr (s : State) (seg off : Nat) : Nat := s.fld (capAt 0 0x44) 24 0 * 4096 + seg * s.capSize + off

/-- The bytes in the staging buffer. -/
def Cap.fill (c : Cap) : Nat := 64 * c.stage.length + c.line.length

/-- CAP_STAGE.peak follows the fill, in KiB (R352). -/
def State.capPeak (s : State) : State :=
  let k := s.cap.fill / 1024
  if s.fld (capAt 0 0x78) 27 16 < k then s.setFld (capAt 0 0x78) 27 16 k else s

/-- Words written at the present offset: whole lines go to the staging buffer (R344, R349). -/
def State.capWords (s : State) (ws : List Nat) : State :=
  (ws.foldl (fun s w =>
    let c := s.cap
    let line := c.line ++ leBytes 8 w
    let off := c.off + 8
    if line.length = 64 then
      s.setCap { c with off := off, line := [], stage := c.stage ++ [(s.capAddr c.seg (off - 64), line)] }
    else s.setCap { c with off := off, line := line }) s).capPeak

/-- The header word of a record (R346). -/
def capHeader (type len : Nat) (partial_ : Bool) (m : Nat) : Nat :=
  type + len * 2 ^ 4 + boolNat partial_ * 2 ^ 15 + m % 2 ^ 48 * 2 ^ 16

/-- The probes of a captured job's image, for the tap filters and CAP_PROBES.n: written at CAP_OPEN and at every image load with the
session open (R337, R352). -/
def State.setProbes (s : State) (probes : List (Nat × Nat × Nat)) : State :=
  (s.setCap { s.cap with probes := probes }).setReg (capAt 0 0x54) (BitVec.ofNat 32 probes.length)

/-- A record laid down in the ring: what it overwrites is no longer held (R346). -/
def State.capPlace (s : State) (type m : Nat) (ws : List Nat) : State :=
  let c := s.cap
  let lo := c.off
  let hi := c.off + 8 * ws.length
  let ring := c.ring.filter (fun (i : CapItem) => decide (i.off + 8 * i.len ≤ lo) || decide (hi ≤ i.off))
  (s.setCap { c with ring := ring ++ [⟨lo, ws.length, type, m⟩] }).capWords ws

/-- A PAD record of `n` words (R346), at most 128: the room that a CYCLE record lacks. -/
def State.capPad (s : State) (n : Nat) : State :=
  if n = 0 then s else s.capPlace 5 0 (capHeader 5 (n % 2048) false 0 :: List.replicate (n - 1) 0)

/-- A record written: a PAD to the ring end goes before one that does not fit, and the ring goes on at offset 64 (R346). -/
def State.capRecord (s : State) (type m : Nat) (partial_ : Bool) (body : List Nat) : State :=
  let ws := capHeader type (body.length + 1) partial_ m :: body
  let size := s.capSize
  let s := if s.cap.off + 8 * ws.length ≤ size then s
    else
      let s := s.capPad ((size - s.cap.off) / 8)
      s.setCap { s.cap with off := 64 }
  s.capPlace type m ws

/-- Where the next record of `n` words would lie (R346). -/
def State.capNext (s : State) (n : Nat) : Nat := if s.cap.off + 8 * n ≤ s.capSize then s.cap.off else 64

/-- A CYCLE or GAP record of `n` words fits in the staging buffer (R349). -/
def State.capRoom (s : State) (n : Nat) : Bool := decide (s.cap.fill + 8 * n ≤ 2097152)

/-- The GAP record of the design cycles lost (R349). -/
def State.capGapRecord (s : State) : State :=
  match s.cap.lost with
  | some (m, n) =>
    let s := (s.setCap { s.cap with lost := none }).capRecord 2 m false [n]
    ((s.bump (capAt 0 0x74) 15 0 1).raiseIrq 0x110 6).capEvent 0x0705
  | none => s

/-- The words of a CYCLE record after its header: N probe bits (R346). -/
def cycleWords (n : Nat) (bits : Sparse Bool) : List Nat :=
  (List.range ((n + 63) / 64)).map (fun w =>
    (List.range 64).foldl (fun a i => a + boolNat (Sparse.get false bits (w * 64 + i)) * 2 ^ i) 0)

/-- The CYCLE record of a design cycle written, or counted as lost (R349). -/
def State.capCycle (s : State) (r : CapRec) : State :=
  let n := s.cap.probes.length
  let len := 1 + (n + 63) / 64
  let s := if s.cap.lost.isSome && s.capRoom (2 + len) then s.capGapRecord else s
  if s.cap.lost.isNone && s.capRoom len then
    (s.capRecord 1 r.m r.cut (cycleWords n r.bits)).setReg64 (capAt 0 0x68) r.m
  else
    let lost := match s.cap.lost with
      | some (m, k) => (m, k + 1)
      | none => (r.m, 1)
    (s.setCap { s.cap with lost := some lost, gaps := satAdd 0xFFFFFFFF s.cap.gaps 1 }).bump (capAt 0 0x70) 31 0 1

/-! ### Segments (R347, R348) -/

/-- The header line of the current segment (R347). -/
def State.capHeaderLine (s : State) (status : Nat) : List Byte :=
  let c := s.cap
  let cyc := c.ring.filter (fun (i : CapItem) => i.type == 1)
  let old := (cyc.head?.map (fun (i : CapItem) => i.m)).getD 0
  let new := (cyc.getLast?.map (fun (i : CapItem) => i.m)).getD 0
  let offOld := (c.ring.head?.map (fun (i : CapItem) => i.off)).getD 0
  let t := if status = 3 then none else c.trig
  let trig := match t with
    | some t => leBytes 8 t.m ++ leBytes 6 t.stamp.sec ++ leBytes 2 (t.stamp.frac / 2 ^ 16) ++ leBytes 4 t.stamp.ns ++
        leBytes 4 (t.state + boolNat t.remote * 2 ^ 8 + boolNat t.host * 2 ^ 9)
    | none => List.replicate 24 0
  leBytes 4 0x53504143 ++ leBytes 4 (c.seg % 65536 + c.job.getD 0 * 2 ^ 16 + status * 2 ^ 22) ++ trig ++
    leBytes 8 old ++ leBytes 8 new ++ leBytes 4 (offOld / 8) ++
    leBytes 4 ((t.map (fun (x : CapTrig) => x.off)).getD 0 / 8) ++ leBytes 4 c.gaps ++ leBytes 4 c.probes.length

/-- A segment closed (R348): padded to a line end, its header to be written with a status. -/
def State.capClose (s : State) (status : Nat) : State :=
  let s := s.capPad ((64 - s.cap.off % 64) % 64 / 8)
  let s := s.setCap { s.cap with closed := status }
  ((s.bump (capAt 0 0x60) 16 0 1).raiseIrq 0x110 4).capEvent 0x0706

/-- The header of the segment just closed written (R347). -/
def State.capWriteHeader (s : State) : State :=
  let c := s.cap
  (s.setCap { c with stage := c.stage ++ [(s.capAddr c.seg 0, s.capHeaderLine c.closed)] }).capPeak

/-- A segment begins: its ring is empty. Design cycles lost before it that no GAP record names yet stay owed to it (R349). -/
def Cap.openSeg (c : Cap) (seg : Nat) : Cap :=
  { c with seg := seg, off := 64, ring := [], line := [], trig := none, left := 0, gaps := 0 }

/-! ### The trigger sequencer (R340–R343) -/

/-- The 64-bit word that comparator `j` tests (R341). -/
def State.capWord (s : State) (r : CapRec) (j : Nat) : Nat :=
  let cfg := (s.reg (capAt 2 (0x40 + 0x20 * j))).toNat
  let src := match natBits cfg 1 0 with
    | 0 => (cycleWords s.cap.probes.length r.bits).getD (natBits cfg 8 2) 0
    | 1 => r.lines % 2 ^ 20
    | _ => r.trig % 16
  src &&& s.reg64 (capAt 2 (0x44 + 0x20 * j))

/-- Comparator `j` matches (R341). -/
def State.capMatch (s : State) (r : CapRec) (j : Nat) : Bool :=
  let x := s.capWord r j
  let v := s.reg64 (capAt 2 (0x4C + 0x20 * j))
  match s.fld (capAt 2 (0x40 + 0x20 * j)) 10 9 with
  | 0 => x == v
  | 1 => x != v
  | _ => match s.cap.lastX.getD j none with
    | some y => x != y
    | none => false

/-- Timer `k` has expired at a flat time (R340). -/
def State.capExpired (s : State) (flat k : Nat) : Bool :=
  match s.cap.timers.getD k none with
  | some start => decide ((s.reg64 (capAt 2 (0x240 + 0x10 * k)) : Int) ≤ signedOf 64 (unsignedOf 64 ((flat : Int) - start)))
  | none => false

/-- The limit of counter `i` (R354). -/
def State.capLimit (s : State) (i : Nat) : Nat :=
  (s.reg (capAt 2 (0x144 + 0x20 * i))).toNat + s.fld (capAt 2 (0x148 + 0x20 * i)) 15 0 * 2 ^ 32

/-- A condition of a sequencer state (R342). -/
def capCond (mask : Nat) (all_ inv : Bool) (ev : Nat) : Bool :=
  mask != 0 && ((if all_ then ev &&& mask == mask else ev &&& mask != 0) ^^ inv)

/-- A record's events without the counters' limits (R340), and the originating design cycle of a remote trigger: the first that came,
where several are due at one evaluation (R345). -/
def State.capEvents (s : State) (r : CapRec) : Nat × Option Nat :=
  let bits := fun (n at_ : Nat) (f : Nat → Bool) => (List.range n).foldl (fun a i => a + boolNat (f i) * 2 ^ (at_ + i)) 0
  let remote := s.cap.remote.find? (fun m => decide (m ≤ r.m))
  (bits 8 0 (s.capMatch r) + bits 4 16 (s.capExpired r.stamp.flat) + r.trig % 16 * 2 ^ 20 + boolNat s.cap.hostEv * 2 ^ 24 +
    boolNat remote.isSome * 2 ^ 25 + 2 ^ 27, remote)

/-- The trigger fires (R345): in ARMED it fixes m_trig and writes the TRIG record; otherwise it is counted. -/
def State.capFire (s : State) (st m : Nat) (stamp : Stamp) (host : Bool) (remote : Option Nat) : State :=
  if s.cap.state = .armed then
    let origin := remote.getD m
    let at_ := s.capNext 4
    let body := [st + boolNat remote.isSome * 2 ^ 8 + boolNat host * 2 ^ 9, stamp.flat, origin]
    let s := (s.capRecord 3 m false body).raiseIrq 0x110 3
    let t : CapTrig := { m := m, origin := origin, stamp := stamp, state := st, remote := remote.isSome, host := host, off := at_ }
    let s := s.setCap { s.cap with state := .post, trig := some t, left := s.fld (capAt 0 0x50) 31 0 }
    match s.cap.job with
    | some j =>
      if s.flag (capAt 0 0x40) 9 && s.fwUp then s.tellPeers j else s
    | none => s
  else s.bump (capAt 0 0x7C) 15 0 1

/-- A sequencer state entered with its entry actions (R342). -/
def State.capEnter (s : State) (st m : Nat) (stamp : Stamp) (host : Bool) (remote : Option Nat) : State :=
  let act := (s.reg (capAt 1 (0x4C + 0x10 * st))).toNat
  let c := s.cap
  let c := { c with
    seq := st
    counts := (c.counts.zipIdx).map (fun p => if natBit act (8 + p.2) then 0 else p.1)
    timers := (c.timers.zipIdx).map (fun p => if natBit act (16 + p.2) then some stamp.flat else p.1) }
  let s := s.setCap c
  let s := if natBit act 20 then s.capFire st m stamp host remote else s
  if natBit act 21 && s.flag (capAt 0 0x40) 10 then { s with pins := { s.pins with trigOut := s.pins.trigOut + 1 } } else s

/-- One evaluation (R343), which takes every remote trigger due (R345). -/
def State.capEvaluate (s : State) (r : CapRec) : State :=
  let (ev, remote) := s.capEvents r
  let c := s.cap
  let st := c.seq
  let host := c.hostEv
  let cnt := s.fld (capAt 1 (0x4C + 0x10 * st)) 7 0
  let limits := (List.range 8).map s.capLimit
  let counts := (c.counts.zipIdx).map (fun p =>
    if natBit cnt p.2 && natBit ev (s.fld (capAt 2 (0x140 + 0x20 * p.2)) 4 0) then satAdd (2 ^ 48 - 1) p.1 1 else p.1)
  let ev := ev + (List.range 8).foldl (fun a i => a + boolNat (decide (limits.getD i 0 ≤ counts.getD i 0)) * 2 ^ (8 + i)) 0
  let s := s.setCap { c with
    counts := counts, hostEv := false
    expired := (List.range 4).map (s.capExpired r.stamp.flat)
    lastX := (List.range 8).map (fun j => some (s.capWord r j))
    remote := c.remote.filter (fun m => !(decide (m ≤ r.m))) }
  let ctl := (s.reg (capAt 1 (0x48 + 0x10 * st))).toNat
  if capCond (s.reg (capAt 1 (0x40 + 0x10 * st))).toNat (natBit ctl 8) (natBit ctl 9) ev then
    s.capEnter (natBits ctl 3 0) r.m r.stamp host remote
  else if capCond (s.reg (capAt 1 (0x44 + 0x10 * st))).toNat (natBit ctl 10) (natBit ctl 11) ev then
    s.capEnter (natBits ctl 7 4) r.m r.stamp host remote
  else s

/-- The bytes from `lo` to `hi` of a segment meet its TRIG record (R346, R348). -/
def Cap.meetsTrig (c : Cap) (lo hi : Nat) : Bool :=
  match c.trig with
  | some t => decide (lo < t.off + 32) && decide (t.off < hi)
  | none => false

/-- Whether records of these lengths in words, written one after the other from the present offset on with the PAD that one may need
before it, would overwrite the TRIG record of a segment in POST (R346, R348). -/
def State.capWouldCover (s : State) (lens : List Nat) : Bool :=
  s.cap.state == .post &&
    (lens.foldl (fun (a : Bool × Nat) n =>
      if a.2 + 8 * n ≤ s.capSize then (a.1 || s.cap.meetsTrig a.2 (a.2 + 8 * n), a.2 + 8 * n)
      else (a.1 || s.cap.meetsTrig a.2 s.capSize || s.cap.meetsTrig 64 (64 + 8 * n), 64 + 8 * n)) (false, s.cap.off)).1

/-- The words of a CYCLE record of the session (R346). -/
def State.capLen (s : State) : Nat := 1 + (s.cap.probes.length + 63) / 64

/-- The records that a waiting record is about to write: its REPLAY record, the GAP record that has room again, its CYCLE record
(R346, R349, R350). -/
def State.capWrites (s : State) (r : CapRec) : List Nat :=
  (if r.replay.isSome then [2] else []) ++
    (if s.cap.lost.isSome then (if s.capRoom (2 + s.capLen) then [2, s.capLen] else [])
     else if s.capRoom s.capLen then [s.capLen] else [])

/-- The segment closes and the engine goes to REARM (R348). -/
def State.capRearm (s : State) (status : Nat) : State :=
  let s := s.capClose status
  s.setCap { s.cap with state := .rearm }

/-- In POST the segment closes with status 2 when the next record would overwrite the TRIG record: the GAP record still owed, else a
CYCLE record (R348). -/
def State.capTruncate (s : State) : State :=
  if s.capWouldCover [if s.cap.lost.isSome then 2 else s.capLen] then s.capRearm 2 else s

/-- A record's way through ARMED or POST (R348, R350). -/
def State.capTake (s : State) (r : CapRec) : State :=
  let s := match r.replay with
    | some mc => s.capRecord 4 r.m false [mc]
    | none => s
  let post := s.cap.state == .post
  let s := s.capEvaluate r
  let s := s.capCycle r
  if s.cap.state = .post then
    let left := if post then s.cap.left - 1 else s.cap.left
    let s := s.setCap { s.cap with left := left }
    if left = 0 then s.capRearm 1 else s.capTruncate
  else s

/-! ### Rows -/

/-- CAP_BOUNDARY_MARKER (R338): a segment's stream ends a design cycle. -/
def execCapBoundaryMarker (seg : Nat) (s : State) : Host.Outcome State Fault Refusal :=
  let go := fun (a : Bool × List CapRec) (r : CapRec) =>
    if !a.1 && r.owed.contains seg then (true, a.2 ++ [{ r with owed := r.owed.filter (· != seg) }]) else (a.1, a.2 ++ [r])
  .next (s.setCap { s.cap with recs := (s.cap.recs.foldl go (false, [])).2 })

/-- CAP_RECORD_ASSEMBLE (R339, R343, R346, R348): the oldest record, once its markers are in and its compare has passed. In REARM
it waits, as does one in POST whose records, or a GAP record before it, would overwrite the TRIG record: the segment closes first. -/
def execCapRecordAssemble (s : State) : Host.Outcome State Fault Refusal :=
  match s.cap.recs with
  | [] => .next s
  | r :: rs =>
    if r.owed ≠ [] ∨ r.wait then .next s
    else match s.cap.state with
      | .armed | .post =>
        .next (if s.capWouldCover (s.capWrites r) then s.capRearm 2 else (s.setCap { s.cap with recs := rs }).capTake r)
      | .rearm => .next s
      | _ => .next (s.setCap { s.cap with recs := rs })

/-- CAP_REARM_DONE (R347, R348): the header is written; the next segment opens, or the capture is full. -/
def execCapRearmDone (s : State) : Host.Outcome State Fault Refusal :=
  if s.cap.state = .rearm then
    let s := s.capWriteHeader
    let count := s.fld (capAt 0 0x4C) 16 0
    let wrap := s.flag (capAt 0 0x40) 8
    if s.cap.seg + 1 < count ∨ wrap then
      let s := s.setCap (s.cap.openSeg (if s.cap.seg + 1 < count then s.cap.seg + 1 else 0))
      let s := s.capEnter (s.fld (capAt 1 0x140) 3 0) 0 s.time.now false none
      .next (s.setCap { s.cap with state := .armed })
    else
      .next ((s.setCap { s.cap with state := .done, recs := [] }).raiseIrq 0x110 5 |>.capEvent 0x0707)
  else .next s

/-- CAP_GAP (R349): the staging buffer again has room for the GAP record and the next record. In POST the record may be the last
before the TRIG record (R348). -/
def execCapGap (s : State) : Host.Outcome State Fault Refusal :=
  .next (if s.cap.lost.isSome && s.capRoom (2 + s.capLen) && (s.cap.state == .armed || s.cap.state == .post) then
    (if s.capWouldCover [2] then s.capRearm 2 else s.capGapRecord.capTruncate) else s)

/-- ARM (R348). -/
def State.capArm (s : State) : State :=
  if s.cap.job.isSome && [CapState.idle, .done, .stopped].contains s.cap.state then
    let c := s.cap
    let s := s.setCap { c.openSeg 0 with
      state := .armed, lost := none, seq := 0, counts := List.replicate 8 0, timers := List.replicate 4 none
      expired := List.replicate 4 false, lastX := List.replicate 8 none, hostEv := false, remote := [], recs := [] }
    s.setReg (capAt 0 0x60) 0
  else s

/-- STOP, or the job stopped or destroyed (R348). -/
def State.capStop (s : State) : State :=
  match s.cap.state with
  | .armed => let s := (s.capClose 3).capWriteHeader; s.setCap { s.cap with state := .stopped, recs := [] }
  | .post => let s := (s.capClose 2).capWriteHeader; s.setCap { s.cap with state := .stopped, recs := [] }
  | .rearm => let s := s.capWriteHeader; s.setCap { s.cap with state := .stopped, recs := [] }
  | _ => s

/-- TRIGGER (R340). -/
def State.capTrigger (s : State) : State := s.setCap { s.cap with hostEv := true }

end Sys2Proof.Machine
end

