-- ==== Sys2Proof/Machine/Image.lean ====
section
/-! DEFINITION. The image (R209–R216): header, block table and bodies as the loader reads them, the die-pair shift, and phase 0 of
the checks (R217). -/

namespace Sys2Proof.Machine

/-! ### Reading (R209–R211) -/

/-- The function number that stands for the auto-load partition of flash as an image's place (R409, R416). -/
def flashFn : Nat := 64

/-- Bytes of a place (R230, R416): host memory of a function, HBM by physical address, or the auto-load partition. -/
def State.placeBytes (s : State) (p : Place) (off n : Nat) : List Byte :=
  (if p.hbm then s.hbm else if p.fn = flashFn then s.theham.image else s.hostMem).bytes (p.addr + off) n

/-- The little-endian number in `n` bytes of a place. -/
def State.placeNum (s : State) (p : Place) (off n : Nat) : Nat := leNat (s.placeBytes p off n)

/-- The scope of a block type (R211): 0 cluster, 1 segment, 2 job; `none` for a reserved type. -/
def blockScope (type : Nat) : Option Nat :=
  if [0x01, 0x02, 0x03, 0x04, 0x05, 0x10, 0x11].contains type then some 0
  else if type = 0x06 then some 1
  else if [0x07, 0x08, 0x09, 0x12, 0x13].contains type then some 2
  else none

/-- The length of a fixed-length block type (R211). -/
def blockLen (type : Nat) : Option Nat :=
  match type with
  | 0x01 => some 851968
  | 0x02 => some 9216
  | 0x03 => some 1920
  | 0x04 => some 147456
  | 0x05 => some 96
  | 0x06 => some 2112
  | 0x07 => some 160
  | 0x08 => some 32
  | 0x11 => some 16448
  | _ => none

/-- A segment under the die-pair shift (R216). -/
def shiftSeg (shift : Bool) (g : Nat) : Nat := if shift then (g + 32) % 64 else g

/-- A package cluster under the die-pair shift (R216). -/
def shiftCluster (shift : Bool) (cl : Nat) : Nat := if shift then (cl + 2048) % 4096 else cl

/-- An octant under the die-pair shift (R216). -/
def shiftOctant (shift : Bool) (o : Nat) : Nat := if shift then (o + 4) % 8 else o

/-- A segment mask under the die-pair shift. -/
def shiftMask (shift : Bool) (m : BitVec 64) : BitVec 64 := if shift then m.rotateLeft 32 else m

/-- Entry `i` of the block table of an image, with its segment as placed (R210, R216). A segment above 63 names none under any
placement (R212). -/
def State.readBlock (s : State) (p : Place) (shift : Bool) (i : Nat) : Block :=
  let at_ := s.placeNum p 0x24 4 + 64 * i
  let w := s.placeNum p at_ 4
  let type := natBits w 7 0
  let seg := natBits w 15 8
  { type := type, seg := if blockScope type = some 2 ∨ 64 ≤ seg then seg else shiftSeg shift seg, cl := natBits w 23 16
    len := s.placeNum p (at_ + 4) 4, off := s.placeNum p (at_ + 8) 8
    digest := BitVec.ofNat 256 (s.placeNum p (at_ + 16) 32), index := i, place := p }

/-- The entries of an image's block table. -/
def State.readBlocks (s : State) (p : Place) (shift : Bool) : List Block :=
  (List.range (s.placeNum p 0x20 2)).map (s.readBlock p shift)

/-- The first block of a type, segment and cluster. -/
def findBlock (bs : List Block) (type seg cl : Nat) : Option Block :=
  bs.find? (fun b => b.type == type && b.seg == seg && b.cl == cl)

/-- The body of a block; empty where there is none. -/
def State.bodyOf (s : State) (p : Place) (b : Option Block) : List Byte :=
  match b with
  | some b => s.placeBytes p b.off b.len
  | none => []

/-- A little-endian number in a body. -/
def bodyNum (body : List Byte) (off n : Nat) : Nat := leNat ((body.drop off).take n)

/-- The lane declarations of a LANES body (R211) on the placement: lane and Λ. -/
def laneDecls (shift : Bool) (body : List Byte) : List (Nat × Nat) :=
  (List.range (body.length / 4)).map (fun i =>
    let v := bodyNum body (4 * i) 4
    (shiftSeg shift (natBits v 5 0), natBits v 31 16))

/-- The line configuration of an image on its placement (R113, R211, R216): configuration and pattern of each line. -/
def lineDecls (shift : Bool) (body : List Byte) : List (Nat × Nat) :=
  (List.range 20).map (fun n =>
    let v := bodyNum body (8 * n) 4
    (if natBits v 2 0 = 6 then natPut v 19 8 (shiftCluster shift (natBits v 19 8)) else v, bodyNum body (8 * n + 4) 4))

/-- Window units that a WINDOW body asks for, by octant as placed (R211, R216); in compare mode copy B needs what copy A
needs (R276). -/
def windowNeeds (shift compare : Bool) (body : List Byte) : List (Nat × Nat) :=
  let own := (List.range 8).map (fun o => (shiftOctant shift o, bodyNum body (4 * o) 4))
  own ++ (if compare then (own.filter (fun n => decide (n.1 < 4))).map (fun n => (n.1 + 4, n.2)) else [])

/-- An image as read: what a job keeps of it (R230). In compare mode its placed mask holds both copies (R276). -/
def State.readImage (s : State) (p : Place) (len : Nat) (shift compare : Bool) : Image :=
  let bs := s.readBlocks p shift
  let m := BitVec.ofNat 64 (s.placeNum p 0x18 8)
  { place := p, len := len, tool := s.placeNum p 0x28 4, keySlot := natBits (s.placeNum p 0x2C 4) 2 0
    digest := BitVec.ofNat 256 (s.placeNum p 0x30 32), sig := s.placeBytes p 0x50 64, shift := shift
    jobLen := natBits (s.placeNum p 0x10 4) 14 0
    mask := if compare then m ||| shiftMask true m else shiftMask shift m
    blocks := bs, lanes := laneDecls shift (s.bodyOf p (findBlock bs 0x09 0 0xFF))
    lines := lineDecls shift (s.bodyOf p (findBlock bs 0x07 0 0xFF))
    needs := windowNeeds shift compare (s.bodyOf p (findBlock bs 0x08 0 0xFF))
    probes := s.bodyOf p (findBlock bs 0x12 0 0xFF), xact := s.bodyOf p (findBlock bs 0x13 0 0xFF) }

/-! ### Segments (R22) -/

/-- The fabric dies at the ends of a die-to-die link (R19). -/
def linkDies : D2dLink → List Nat
  | .hub d => [d]
  | .fabric01 => [0, 1]
  | .fabric02 => [0, 2]
  | .fabric13 => [1, 3]
  | .fabric23 => [2, 3]

/-- A segment is reported unavailable (R22): a link of its die failed training. -/
def State.segDown (s : State) (g : Nat) : Bool := s.fab.linkBad.any (fun l => (linkDies l).contains (dieOf g))

/-! ### Phase 0 (R209–R216, R220, R230) -/

/-- A phase 0 fault record. -/
def headerFault (j code blk seg cl : Nat) : FaultRec :=
  { code := code, phase := 0, cls := 0, job := j, seg := seg, cl := cl % 64, unit := 9, blk := blk }

/-- A phase 0 fault record that names a block. -/
def blockFault (j code : Nat) (b : Block) : FaultRec :=
  headerFault j code b.index b.seg (if blockScope b.type = some 0 then b.cl else 0)

/-- The image-signing key enrolled in a slot verifies the header's signature (R213). -/
def State.sigOk (s : State) (p : Place) (im : Image) : Bool :=
  match Sparse.get none s.theham.imgKeys im.keySlot with
  | some key => Config.sm2Verify key (Config.sm3 (s.placeBytes p 0 0x50)) (BitVec.ofNat 512 (leNat im.sig))
  | none => false

/-- Reserved bits of the header are 0, its length field and the image's length agree (R209, R215). -/
def State.headerClear (s : State) (p : Place) (len : Nat) : Bool :=
  let n := fun (off k : Nat) => s.placeNum p off k
  n 0x06 2 == 0x0100 && n 0x08 8 == len && natBits (n 0x10 4) 31 17 == 0 && !natBit (n 0x10 4) 15 &&
    natBits (n 0x14 4) 31 7 == 0 && n 0x22 2 == 0 && natBits (n 0x2C 4) 31 3 == 0 && n 0x90 112 == 0 &&
    n 0x24 4 % 64 == 0 && decide (n 0x24 4 + 64 * n 0x20 2 ≤ len)

/-- seg_mask of an image under its shift: in compare mode the mask of copy A. -/
def State.ownMask (s : State) (im : Image) : BitVec 64 := shiftMask im.shift (BitVec.ofNat 64 (s.placeNum im.place 0x18 8))

/-- A block table entry keeps the rules of R210–R212 on its own: known type, scope, reserved bits, place and length. -/
def State.entryOk (s : State) (im : Image) (b : Block) : Bool :=
  let p := im.place
  let at_ := s.placeNum p 0x24 4 + 64 * b.index
  let inMask := decide (b.seg < 64) && (s.ownMask im).getLsbD b.seg
  let scope := match blockScope b.type with
    | some 0 => decide (b.cl < 64) && inMask
    | some 1 => b.cl == 0xFF && inMask
    | some _ => b.cl == 0xFF && b.seg == 0
    | none => false
  let fixed := match blockLen b.type with
    | some n => b.len == n
    | none => b.type != 0x09 || b.len % 4 == 0
  scope && fixed && s.placeNum p (at_ + 3) 1 == 0 && s.placeNum p (at_ + 48) 16 == 0 && b.off % 64 == 0 &&
    decide (b.off + b.len ≤ im.len)

/-- Two bodies overlap. -/
def bodiesMeet (a b : Block) : Bool := decide (a.off < b.off + b.len) && decide (b.off < a.off + a.len)

/-- A block repeats the scope of an earlier one, or overlaps an earlier body (R212). -/
def clashes (bs : List Block) (b : Block) : Bool :=
  (bs.take b.index).any (fun a => (a.type == b.type && a.seg == b.seg && a.cl == b.cl) || bodiesMeet a b)

/-- The blocks that an image must hold (R212): type, segment and cluster. -/
def requiredBlocks (mask : BitVec 64) : List (Nat × Nat × Nat) :=
  (segsOf mask).flatMap (fun g => (0x06, g, 0xFF) ::
    (List.range 64).flatMap (fun c => [0x01, 0x02, 0x03, 0x04, 0x05].map (fun t => (t, g, c)))) ++
  [(0x07, 0, 0xFF), (0x08, 0, 0xFF)]

/-- Some select of a slot word is 7, or its LANE select of some track is not 0 (R212). -/
def usesLane (slot : Nat) : Bool :=
  (List.range 16).any (fun t => trkSelect slot t 4 != 0 || (List.range 7).any (fun i => trkSelect slot t i == 7))

/-- S of a segment's SEQ body (R211). -/
def seqLen (body : List Byte) : Nat := natBits (bodyNum body 0 4) 10 0

/-- An executed slot entry of the image uses a lane sub-port (R212). -/
def State.lanesUsed (s : State) (p : Place) (bs : List Block) : Bool :=
  (bs.filter (fun b => b.type == 0x04)).any (fun b =>
    let n := seqLen (s.bodyOf p (findBlock bs 0x06 b.seg 0xFF))
    let body := s.placeBytes p b.off b.len
    (List.range (min n 1024)).any (fun k => usesLane (bodyNum body (128 * k) 128)))

/-- The records of a PRELOAD_MB body (R211): bank, first word and the words; `none` where they do not fill it (R212). The first
argument bounds the number of records. -/
def preloadRecords : Nat → List Byte → Option (List (Nat × Nat × List Dword))
  | 0, body => if body = [] then some [] else none
  | n + 1, body =>
    if body = [] then some []
    else
      let h := bodyNum body 0 8
      let first := natBits h 27 16
      let count := natBits h 44 32
      let ws := (List.range count).map (fun i => BitVec.ofNat 64 (bodyNum body (8 + 8 * i) 8))
      if body.length < 8 + 8 * count ∨ count < 1 ∨ 4096 < count ∨ 4096 < first + count then none
      else (preloadRecords n (body.drop (8 + 8 * count))).map (fun rs => (natBits h 1 0, first, ws) :: rs)

/-- A preload body keeps R212: its records name banks, counts and words in range and fill it. -/
def State.preloadOk (s : State) (p : Place) (b : Block) : Bool :=
  b.type != 0x10 || (preloadRecords (b.len / 16 + 1) (s.placeBytes p b.off b.len)).isSome

/-- The first IMG_FORMAT fault of an image (R212, R215): the header, the first block at fault, a block that is missing, or a
LANES block that the slot tables do not call for. -/
def State.formatFault (s : State) (j : Nat) (im : Image) : Option FaultRec :=
  let bs := im.blocks
  if !s.headerClear im.place im.len then some (headerFault j 0x0304 0 0 0)
  else match bs.find? (fun b => !s.entryOk im b || clashes bs b || !s.preloadOk im.place b) with
    | some b => some (blockFault j 0x0304 b)
    | none =>
      match (requiredBlocks (s.ownMask im)).find? (fun r => (findBlock bs r.1 r.2.1 r.2.2).isNone) with
      | some r => some (headerFault j 0x0304 0 r.2.1 (if r.2.2 = 0xFF then 0 else r.2.2))
      | none =>
        match findBlock bs 0x09 0 0xFF, s.lanesUsed im.place bs with
        | some b, false => some (blockFault j 0x0304 b)
        | none, true => some (headerFault j 0x0304 0 0 0)
        | _, _ => none

/-- IMG_PLACE (R216, R220, R230, R276): the placement of a load on a job's mask, or of a region on a part of it. -/
def State.placeFault (s : State) (j : Nat) (im : Image) (compare region : Bool) : Option FaultRec :=
  let raw := BitVec.ofNat 64 (s.placeNum im.place 0x18 8)
  let half := raw.toNat < 2 ^ 32 || raw.toNat % 2 ^ 32 == 0
  let reloc := natBit (s.placeNum im.place 0x10 4) 16
  let job := (s.job j).mask
  let at_ := fun (g : Nat) => some (headerFault j 0x0305 0 g 0)
  if (segsOf raw).length ≠ natBits (s.placeNum im.place 0x14 4) 6 0 then at_ 0
  else if (im.shift || compare) && !(reloc && half) then at_ 0
  else if compare && (im.shift || raw.toNat % 2 ^ 32 != raw.toNat) then at_ 0
  else match (segsOf im.mask).find? (fun g => s.segDown g || !job.getLsbD g) with
    | some g => at_ g
    | none =>
      if !region && im.mask != job then at_ ((segsOf job).find? (fun g => !im.mask.getLsbD g) |>.getD 0)
      else match im.lanes.find? (fun l => !im.mask.getLsbD l.1) with
        | some l => (findBlock im.blocks 0x09 0 0xFF).map (fun b => headerFault j 0x0305 b.index l.1 0)
        | none =>
          match im.needs.find? (fun n => n.2 != 0 && !(segsOf job).any (fun g => octantOf g == n.1)) with
          | some _ => (findBlock im.blocks 0x08 0 0xFF).map (fun b => headerFault j 0x0305 b.index 0 0)
          | none => none

/-- The fault of phase 0, if the image has one (R213, R217). -/
def State.phase0 (s : State) (j : Nat) (im : Image) (compare region : Bool) : Option FaultRec :=
  let p := im.place
  let table := s.placeBytes p (s.placeNum p 0x24 4) (64 * s.placeNum p 0x20 2)
  let badBody := im.blocks.find? (fun b => Config.sm3 (s.placeBytes p b.off b.len) != b.digest)
  if s.placeNum p 0 4 ≠ 0x5144474E ∨ s.placeNum p 4 2 ≠ 1 then some (headerFault j 0x0301 0 0 0)
  else if !s.sigOk p im then some (headerFault j 0x0302 0 0 0)
  else if Config.sm3 table ≠ im.digest then some (headerFault j 0x0303 0 0 0)
  else match badBody with
    | some b => some (blockFault j 0x0303 b)
    | none =>
      match s.formatFault j im with
      | some f => some f
      | none => s.placeFault j im compare region

/-! ### The job as it would be after the load (R230, R239) -/

/-- A job's schedule under check: its stores, sequencers, L, segments and the blocks that a fault record names. -/
structure Plan where
  job    : Nat
  mask   : BitVec 64
  len    : Nat
  cfg    : Sparse Byte
  seqs   : Sparse Seq
  blocks : List Block
  image  : Image
  deriving DecidableEq, Repr

/-- The place of a cluster block's body in the cluster's area (R211). -/
def bodyPlace (type : Nat) : Nat :=
  match type with
  | 0x01 => 0
  | 0x02 => 0xD0000
  | 0x03 => 0xD2400
  | 0x04 => 0xD4000
  | _ => cinitBase

/-- The stores of an image: its ISTORE, CSTORE, FNLIB, SLOT and CINIT bodies, in compare mode for both copies (R230, R276). -/
def State.imageStores (s : State) (im : Image) (compare : Bool) : Sparse Byte :=
  im.blocks.foldl (fun m b =>
    if [0x01, 0x02, 0x03, 0x04, 0x05].contains b.type then
      let body := s.placeBytes im.place b.off b.len
      let at_ := cfgBase (b.seg * 64 + b.cl) + bodyPlace b.type
      let m := m.putBytes at_ body
      if compare then m.putBytes (at_ + cfgBase 2048) body else m
    else m) []

/-- A sequencer as a SEQ body gives it (R211), at position 0. -/
def seqOfBody (body : List Byte) (jobLen : Nat) : Seq :=
  let a := bodyNum body 4 4
  let ds := (List.range 64).map (fun d => (List.range 8).map (fun w => bodyNum body (64 + 32 * d + 4 * w) 4))
  { cycLen := seqLen body, jobLen := jobLen, rpt := ds
    ofsInit := [natBits a 9 0, natBits a 19 10, natBits a 29 20, natBits (bodyNum body 8 4) 9 0] }

/-- Descriptor `a` encloses descriptor `b` (R95). -/
def encloses (a b : Rpt) : Bool := decide (a.start ≤ b.start) && decide (b.stop ≤ a.stop) && decide (a.level < b.level)

/-- The executed length E of a sequencer (R90). -/
def Seq.execLength (q : Seq) : Nat :=
  let ds := (q.rpt.map rptOf).filter (·.valid)
  ds.foldl (fun e d =>
    e + d.countM1 * (d.stop + 1 - d.start) * ((ds.filter (fun a => encloses a d)).foldl (fun p a => p * (a.countM1 + 1)) 1)) q.cycLen

/-- The sequencers of an image, in compare mode of both copies (R211, R276). -/
def State.imageSeqs (s : State) (im : Image) (compare : Bool) : Sparse Seq :=
  (im.blocks.filter (fun b => b.type == 0x06)).foldl (fun m b =>
    let q := seqOfBody (s.placeBytes im.place b.off b.len) im.jobLen
    let q := { q with execLen := q.execLength }
    let m := Sparse.set {} m b.seg q
    if compare then Sparse.set {} m (b.seg + 32) q else m) []

/-- The schedule of a job once an image is loaded on it (R230), or on a region of it (R239): every other segment keeps its
verified copy and its sequencer's tables. -/
def State.planOf (s : State) (j : Nat) (im : Image) (compare region : Bool) : Plan :=
  let stores := s.imageStores im compare
  let seqs := s.imageSeqs im compare
  let x := s.job j
  if region then
    let rest := (segsOf x.mask).filter (fun g => !im.mask.getLsbD g)
    let old := rest.flatMap (fun g => Sparse.range s.fab.copy (cfgBase (g * 64)) (cfgBase (g * 64 + 64)))
    let keep := match x.image with
      | some i => i.blocks.filter (fun b => blockScope b.type == some 2 || rest.contains b.seg)
      | none => []
    { job := j, mask := x.mask, len := x.len
      cfg := stores.foldl (fun m e => Sparse.set 0 m e.1 e.2) old
      seqs := rest.foldl (fun m g => Sparse.set {} m g { s.seq g with state := .idle }) seqs
      blocks := im.blocks.filter (fun b => blockScope b.type != some 2) ++ keep
      image := match x.image with
        | some i => i
        | none => im }
  else { job := j, mask := im.mask, len := im.jobLen, cfg := stores, seqs := seqs, blocks := im.blocks, image := im }

/-- The sequencer of a segment at position 0 of a design cycle. -/
def Plan.seq (p : Plan) (g : Nat) : Seq := (Sparse.get {} p.seqs g).restart

/-- The positions of a segment's design cycle, repeats expanded; an L above 16,384 is refused and expanded no further (R90,
R96). -/
def Plan.rows (p : Plan) (g : Nat) : List Seq := Seq.ahead (min p.len 16384 - 1) (p.seq g)

/-- The index in the block table of a cluster's block, in compare mode that of copy A's (R219). -/
def Plan.blk (p : Plan) (type seg cl : Nat) : Nat :=
  match findBlock p.blocks type seg cl with
  | some b => b.index
  | none =>
    match findBlock p.blocks type (seg - 32) cl with
    | some b => b.index
    | none => 0

/-- An instruction word of the plan. -/
def Plan.word (p : Plan) (cl bp k : Nat) : IWord := iword (Sparse.num p.cfg (istoreAt cl bp k).1 12)

/-- A control word of the plan. -/
def Plan.control (p : Plan) (cl k : Nat) : CWord := cword (Sparse.num p.cfg (cstoreAt cl k).1 8)

/-- A slot word of the plan. -/
def Plan.slot (p : Plan) (cl k : Nat) : Nat := Sparse.num p.cfg (slotAt cl k 0).1 128

end Sys2Proof.Machine
end

