-- ==== Sys2Proof/Machine/Checks.lean ====
section
/-! DEFINITION. Phases 1 and 2 of the checks of an image (R86, R90, R95, R99, R102, R112, R124, R125, R131, R149, R158, R180, R181,
R187, R189, R336, R381) on the placement as loaded, and the order of fault records (R218). -/

namespace Sys2Proof.Machine

/-! ### Records -/

/-- An executed position of a segment's design cycle: its number, and the sequencer as the position executes. -/
abbrev Pos := Nat × Seq

/-- The positions at which a segment executes programmed steps, repeats expanded (R221). -/
def Plan.steps (p : Plan) (g : Nat) : List Pos := ((p.rows g).zipIdx.filter (fun r => !r.1.padding)).map (fun r => (r.2, r.1))

/-- The executions of programmed step `k` among the positions of a segment. -/
def runsOf (ps : List Pos) (k : Nat) : List Pos := ps.filter (fun r => r.2.k == k)

/-- The first executed position of programmed step `k`; 0 where it has none. -/
def firstRun (ps : List Pos) (k : Nat) : Nat := match runsOf ps k with
  | r :: _ => r.1
  | [] => 0

/-- A fault record of a unit of cluster `c` of segment `g`, in the block of a type (R219). -/
def Plan.fault (p : Plan) (code phase g c unit type : Nat) : FaultRec :=
  { code := code, phase := phase, cls := 0, job := p.job, seg := g, cl := c, unit := unit
    blk := p.blk type g (if blockScope type = some 0 then c else 0xFF) }

/-- A second party in the layout of W1 (R219). -/
def partyWord (g c bp unit sub : Nat) : Nat := g + c * 2 ^ 6 + bp * 2 ^ 12 + unit * 2 ^ 20 + sub * 2 ^ 24

/-- A record where a condition holds. -/
def faultIf (bad : Bool) (r : FaultRec) : List FaultRec := if bad then [r] else []

/-! ### Phase 1: the BPs (R66, R73, R77, R78, R86) -/

/-- An address outside the receive area (R72, R73). -/
def outsideRecv (a : Nat) : Bool := decide (a < 0x400) || decide (0x7BF < a)

/-- SEL_RANGE of an entry on its own (R65, R73, R86), phase 1: a relative special selector, or a LOAD with a direct S0 outside the
receive area. -/
def selFixed (w : IWord) : Bool :=
  (List.range 6).any (fun i => w.rel.testBit i && decide (0x7C0 ≤ w.sel.getD i 0)) ||
    (w.opc == 3 && !w.rel.testBit 0 && outsideRecv (w.sel.getD 0 0))

/-- SEL_RANGE of an entry at one execution (R66, R73, R86): a relative receive selector above 0x7BF, or a LOAD whose relative S0
comes outside the receive area. It depends on the offset that the repeats give, so it belongs to phase 2 (R217, R220; DEDUCED,
assumption 76). -/
def selMoved (w : IWord) (q : Seq) : Bool :=
  let f := q.ofs.getD w.ofs 0
  (List.range 6).any (fun i =>
    let a := w.sel.getD i 0
    w.rel.testBit i && decide (0x400 ≤ a) && decide (a < 0x7C0) && decide (0x7BF < a + f)) ||
    (w.opc == 3 && w.rel.testBit 0 && outsideRecv (effAddr w f 0))

/-- The entries of a BP below S, with their indices. -/
def Plan.entries (p : Plan) (g c bp : Nat) : List (Nat × IWord) :=
  (List.range (min (p.seq g).cycLen 1024)).map (fun k => (k, p.word (g * 64 + c) bp k))

/-- A step lies inside a repeat body of a segment. -/
def Seq.inBody (q : Seq) (k : Nat) : Bool :=
  (q.rpt.map rptOf).any (fun d => d.valid && decide (d.start ≤ k) && decide (k ≤ d.stop))

/-- CHAIN_INVALID (R78): the entry that breaks the rule of the one SHIFT that advances the chain. -/
def chainFault (q : Seq) (es : List (Nat × IWord)) : Option Nat :=
  let shifts := es.filter (fun e => e.2.opc == 2)
  let advs := shifts.filter (fun e => e.2.adv)
  match shifts, advs with
  | [], _ => none
  | s :: _, [] => some s.1
  | _, [a] => if q.inBody a.1 then some a.1 else none
  | _, _ :: b :: _ => some b.1

/-- Phase 1 of one BP (R86). -/
def Plan.checkBp (p : Plan) (ps : List Pos) (g c bp : Nat) : List FaultRec :=
  let cl := g * 64 + c
  let q := p.seq g
  let r := fun (code k : Nat) =>
    { p.fault code 1 g c 1 0x01 with bp := bp, k := k, e := firstRun ps k }
  let all := (List.range 1024).flatMap (fun k =>
    let at_ := istoreAt cl bp k
    let v := Sparse.num p.cfg at_.1 12
    faultIf (secdedCheck 96 v != Sparse.num p.cfg at_.2 1) (r 0x0310 k) ++ faultIf (decide (4 ≤ (iword v).opc)) (r 0x0311 k))
  let es := (p.entries g c bp).filter (fun e => decide (1 ≤ e.2.opc) && decide (e.2.opc ≤ 3))
  let chain := es.any (fun (e : Nat × IWord) => e.2.opc == 2)
  all ++ es.flatMap (fun (e : Nat × IWord) =>
    faultIf (selFixed e.2) (r 0x0312 e.1) ++
    faultIf ((e.2.adv && e.2.opc != 2) || (chain && e.2.we)) (r 0x0313 e.1)) ++
  (match chainFault q es with
  | some k => [r 0x0314 k]
  | none => [])

/-! ### Phase 1: control words and slot words (R99, R131) -/

/-- Phase 1 of a control store (R99, R217). -/
def Plan.checkControl (p : Plan) (ps : List Pos) (g c : Nat) : List FaultRec :=
  let cl := g * 64 + c
  let r := fun (code k : Nat) => { p.fault code 1 g c 2 0x02 with k := k, e := firstRun ps k }
  (List.range 1024).flatMap (fun k =>
    let at_ := cstoreAt cl k
    let v := Sparse.num p.cfg at_.1 8
    let w := cword v
    faultIf (secdedCheck 64 v != Sparse.num p.cfg at_.2 1) (r 0x0310 k) ++
    faultIf (decide (k < (p.seq g).cycLen) && (w.scat == 7 || w.issueKind == 3)) (r 0x0315 k))

/-- A track's selects are refused (R131): a U-turn, a dead direction, a lane select where there is no lane, LANE = 7. -/
def trackBad (cl slot t : Nat) : Bool :=
  let sels := (List.range 7).map (trkSelect slot t)
  let dead := fun (d : Nat) => (linkEnd cl d).isNone
  (List.range 4).any (fun d => sels.getD d 0 == d + 1 || (dead d && (sels.getD d 0 != 0 || sels.contains (d + 1)))) ||
    sels.getD 4 0 == 7 || ((laneSub cl).isNone && (sels.getD 4 0 != 0 || sels.contains 7))

/-- Phase 1 of a slot table (R131, R217). -/
def Plan.checkSlots (p : Plan) (ps : List Pos) (g c : Nat) : List FaultRec :=
  let cl := g * 64 + c
  let r := fun (code k sub : Nat) => { p.fault code 1 g c 3 0x04 with sub := sub, k := k, e := firstRun ps k }
  (List.range 1024).flatMap (fun k =>
    let slot := p.slot cl k
    (List.range 16).flatMap (fun w =>
      let at_ := slotAt cl k w
      faultIf (secdedCheck 64 (Sparse.num p.cfg at_.1 8) != Sparse.num p.cfg at_.2 1) (r 0x0310 k w)) ++
    (if k < (p.seq g).cycLen then
      faultIf (natBits slot 1023 1008 != 0) (r 0x0319 k 0) ++
      (List.range 32).flatMap (fun i => faultIf (parkField slot i == 3) (r 0x0319 k i)) ++
      (List.range 16).flatMap (fun t => faultIf (trackBad cl slot t) (r 0x0319 k t)) ++
      (List.range 32).flatMap (fun i =>
        faultIf (dlvSelect slot i != 0 && outsideRecv (natBits (dlvField slot i) 10 0)) (r 0x0312 k i))
    else []))

/-! ### Phase 1: the sequencer (R90, R95) -/

/-- A descriptor breaks R95 beside the other valid ones of its segment; `d` is its number. -/
def rptBad (q : Seq) (d : Nat) : Bool :=
  let x := q.desc d
  let others := (List.range 64).filterMap (fun i => if i ≠ d ∧ (q.desc i).valid then some (q.desc i) else none)
  x.valid && (decide (x.stop < x.start) || decide (q.cycLen ≤ x.stop) || !rptReservedClear (q.rpt.getD d []) ||
    others.countP (fun a => encloses a x) != x.level ||
    others.any (fun a => decide (a.start ≤ x.stop) && decide (x.start ≤ a.stop) && !(encloses a x || encloses x a)))

/-- S of a segment is one of R90. -/
def Seq.lengthOk (q : Seq) : Bool := decide (64 ≤ q.cycLen) && decide (q.cycLen ≤ 1024) && q.cycLen % 16 == 0

/-- Phase 1 of a segment's SEQ block (R90, R95). -/
def Plan.checkSeq (p : Plan) (g : Nat) : List FaultRec :=
  let q := p.seq g
  faultIf (!q.lengthOk) (p.fault 0x0316 1 g 0 7 0x06) ++
  (List.range 64).flatMap (fun d =>
    faultIf (rptBad q d) { p.fault 0x0318 1 g 0 7 0x06 with sub := d, k := (q.desc d).start })

/-- Phase 1 (R217). A segment whose sequencer is at fault has no executed positions to name. -/
def Plan.phase1 (p : Plan) : List FaultRec :=
  (segsOf p.mask).flatMap (fun g =>
    let seqs := p.checkSeq g
    let ps := if seqs = [] then p.steps g else []
    seqs ++ (List.range 64).flatMap (fun c =>
      (List.range 64).flatMap (p.checkBp ps g c) ++ p.checkControl ps g c ++ p.checkSlots ps g c))

/-! ### Phase 2: the network (R68, R73, R91, R124, R125, R131) -/

/-- The deliveries of a slot word: BP, address and inbound port, modes expanded (R127, R128). -/
def deliveriesOf (slot : Nat) : List (Nat × Nat × Nat) :=
  (List.range 32).flatMap (fun i =>
    if dlvSelect slot i = 0 then []
    else (dlvTargets (dlvField slot i)).map (fun bp => (bp, natBits (dlvField slot i) 10 0, i)))

/-- The collisions of one executed position of a cluster (R68, R73, R131), and its addresses out of range (R66, R73). A router party in W6
names no BP, as in the worked example after R221; a router in W1, where two deliveries meet, comes with the BP that both address, which
the spec does not say (DESIGN CHOICE, assumption 119). -/
def Plan.collisions (p : Plan) (g c : Nat) (r : Pos) : List FaultRec :=
  let cl := g * 64 + c
  let k := r.2.k
  let ws := (List.range 64).map (fun bp => (bp, p.word cl bp k)) |>.filter (fun x => decide (1 ≤ x.2.opc) && decide (x.2.opc ≤ 3))
  let dels := deliveriesOf (p.slot cl k)
  let rec_ := fun (unit type : Nat) => { p.fault 0x0320 2 g c unit type with k := k, e := r.1 }
  let senders := (List.range 32).flatMap (fun port =>
    match ws.filter (fun x => x.2.send && x.2.port == port) with
    | a :: rest => rest.map (fun b => { rec_ 1 0x01 with bp := a.1, w6 := partyWord g c b.1 1 0, w7 := port })
    | [] => [])
  let loads := (ws.filter (fun x => x.2.opc == 3)).flatMap (fun x =>
    let a := effAddr x.2 (r.2.ofs.getD x.2.ofs 0) 0
    (dels.filter (fun d => d.1 == x.1 && d.2.1 == a)).map (fun d =>
      { rec_ 1 0x01 with bp := x.1, w6 := partyWord g c 0 3 d.2.2, w7 := a }))
  let firstOf := fun (d : Nat × Nat × Nat) => dels.find? (fun x => x.1 == d.1 && x.2.1 == d.2.1)
  let overlaps := dels.filterMap (fun d =>
    match firstOf d with
    | some f => if f.2.2 = d.2.2 then none
        else some { rec_ 3 0x04 with bp := d.1, sub := f.2.2, w6 := partyWord g c 0 3 d.2.2, w7 := d.2.1 }
    | none => none)
  let moved := ws.flatMap (fun x => faultIf (selMoved x.2 r.2) { rec_ 1 0x01 with code := 0x0312, bp := x.1 })
  moved ++ senders ++ loads ++ overlaps

/-- A segment is one of the job's and is available (R125). -/
def Plan.ours (p : Plan) (s : State) (g : Nat) : Bool := p.mask.getLsbD g && !s.segDown g

/-- A segment of the job pads at a position (R91). -/
def Plan.padsAt (p : Plan) (g e : Nat) : Bool := match (p.rows g)[e]? with
  | some q => q.padding
  | none => false

/-- A track of a router at one executed position: ROUTE_FOREIGN, ROUTE_WRAP and PAD_ROUTE (R124, R125). -/
def Plan.checkTrack (p : Plan) (s : State) (g c : Nat) (r : Pos) (t : Nat) : List FaultRec :=
  let cl := g * 64 + c
  let slot := p.slot cl r.2.k
  let links := (List.range 4).filterMap (fun d => (linkEnd cl d).map (fun x => (d, x.1 / 64, x.2)))
  let drives := links.filter (fun x => trkSelect slot t x.1 != 0)
  let foreign := links.any (fun x => !p.ours s x.2.1 &&
    (trkSelect slot t x.1 != 0 || (List.range 7).any (fun i => trkSelect slot t i == x.1 + 1)))
  let late := fun (x : Nat × Nat × Bool) => decide (p.len ≤ r.1 + (if x.2.2 then 12 else 1))
  let own := drives.filter (fun x => p.ours s x.2.1)
  let rec_ := fun (code : Nat) => { p.fault code 2 g c 3 0x04 with sub := t, k := r.2.k, e := r.1 }
  faultIf foreign (rec_ 0x0321) ++ faultIf (drives.any late) (rec_ 0x0322) ++
  faultIf (own.any (fun x => !late x && p.padsAt x.2.1 (r.1 + (if x.2.2 then 12 else 1)))) (rec_ 0x0323)

/-- Phase 2 of a cluster's BPs and router. -/
def Plan.checkNet (p : Plan) (s : State) (ps : List Pos) (g c : Nat) : List FaultRec :=
  ps.flatMap (fun r => p.collisions g c r ++ (List.range 16).flatMap (p.checkTrack s g c r))

/-! ### Phase 2: the wide arithmetic unit and the banks (R149, R158) -/

/-- The issues of a cluster's WAU: position, operation, pair. -/
def Plan.issues (p : Plan) (ps : List Pos) (cl : Nat) : List (Nat × Nat × Nat) :=
  ps.filterMap (fun r =>
    let w := p.control cl r.2.k
    if w.wauOp = 0 then none else some (r.1, w.wauOp, pairOf w.opnd))

/-- An operation writes B (R143). -/
def writesB (op : Nat) : Bool := op == 3 || op == 4 || op == 5

/-- Phase 2 of a cluster's WAU at one executed position: WAU_WRAP of the issue, WAU_CLASH of results and of registers (R149, R219),
and BANK_CLASH (R158). -/
def Plan.checkWau (p : Plan) (is : List (Nat × Nat × Nat)) (g c : Nat) (r : Pos) : List FaultRec :=
  let cl := g * 64 + c
  let w := p.control cl r.2.k
  let e := r.1
  let rec_ := fun (code unit sub : Nat) => { p.fault code 2 g c unit 0x02 with sub := sub, k := r.2.k, e := e }
  let presents := is.filter (fun x => x.1 + wauLatency x.2.1 == e)
  let lands := is.filter (fun x => writesB x.2.1 && x.1 + wauLatency x.2.1 == e + 1 && w.ldSrc != 0 && w.ldDst == 2 * x.2.2 + 1)
  let latest := fun (xs : List (Nat × Nat × Nat)) => xs.foldl (fun a x => max a x.1) 0
  let clash := fun (reg at_ : Nat) => { rec_ 0x0324 4 0 with w6 := partyWord g c 0 4 0, w7 := reg + at_ * 2 ^ 18 }
  faultIf (w.wauOp != 0 && decide (p.len < e + wauLatency w.wauOp)) (rec_ 0x0325 4 0) ++
  faultIf (decide (2 ≤ presents.length)) (clash 0 (latest presents)) ++
  faultIf (lands != []) (clash w.ldDst (latest lands)) ++
  (List.range 4).flatMap (fun b =>
    let word := (Sparse.num p.cfg (cfgBase cl + cinitBase + 4 * (b + 4)) 4 + r.2.ocr.getD (b + 4) 0) % 4096
    faultIf (w.bankOp.getD b 0 != 0 && w.ldSrc == 3 + b)
      { rec_ 0x0326 5 b with w6 := partyWord g c 0 4 0, w7 := word % 2048 })

/-- A result clash in a position at which the segment pads (R139, R149), the pipeline presenting there too, or at position L: there two
results are due at position 0 of the next design cycle (R149, R206). -/
def Plan.checkPadWau (p : Plan) (is : List (Nat × Nat × Nat)) (g c e : Nat) : List FaultRec :=
  let presents := is.filter (fun x => x.1 + wauLatency x.2.1 == e)
  faultIf (decide (2 ≤ presents.length) && (p.padsAt g e || e == p.len))
    { p.fault 0x0324 2 g c 4 0x02 with e := e, w6 := partyWord g c 0 4 0, w7 := presents.foldl (fun a x => max a x.1) 0 * 2 ^ 18 }

/-! ### Phase 2: WAITs and queues (R102, R180, R181, R186–R189) -/

/-- A request of a queue as the loader tracks it (R189): its position, direction, whether a WAIT has covered it, the words
taken, and whether it holds its entry. -/
structure MqTrack where
  e       : Nat
  write   : Bool
  covered : Bool
  taken   : Nat
  live    : Bool
  deriving DecidableEq, Repr

/-- The records of a queue at one executed position, and its requests after it. -/
def Plan.trackQueue (p : Plan) (g c q : Nat) (xs : List MqTrack) (r : Pos) : List MqTrack × List FaultRec :=
  let w := p.control (g * 64 + c) r.2.k
  let rec_ := fun (code : Nat) => { p.fault code 2 g c 6 0x02 with sub := q, k := r.2.k, e := r.1 }
  let waits := w.waitEn && w.waitQ == q
  let near := waits && (xs.take (xs.length - w.waitCount)).any (fun x => decide (r.1 < x.e + 17))
  let cover := fun (x : MqTrack × Nat) => if waits && decide (x.2 + w.waitCount < xs.length) then { x.1 with covered := true } else x.1
  let ys := xs.zipIdx.map cover
  let takes := (w.ldSrc == 7 || w.scat == 6) && w.waitQ == q
  let src := ys.zipIdx.find? (fun x => x.1.live && !x.1.write && decide (x.1.taken < 8))
  let uncovered := takes && (match src with
    | some x => !x.1.covered
    | none => true)
  let zs := match takes, src with
    | true, some x => ys.set x.2 { x.1 with taken := x.1.taken + 1 }
    | _, _ => ys
  let zs := if (w.issueKind = 1 ∨ w.issueKind = 2) ∧ w.issueQ = q then zs ++ [⟨r.1, w.issueKind == 2, false, 0, true⟩] else zs
  let full := decide (16 < zs.countP (fun x => x.live)) && w.issueQ == q && (w.issueKind == 1 || w.issueKind == 2)
  let free := fun (x : MqTrack) => if x.write && x.covered then { x with live := false } else if x.taken = 8 then { x with live := false } else x
  (zs.map free, faultIf (waits && decide (r.1 < 16)) (rec_ 0x0327) ++ faultIf near (rec_ 0x0328) ++
    faultIf full (rec_ 0x0329) ++ faultIf uncovered (rec_ 0x032A))

/-- The units of 16 MiB that a queue's region takes in its octant's window (R181). -/
def regionUnits (base size : Nat) : List Nat :=
  let lo := base * 64 / 16777216
  let hi := ((base + 2 ^ size) * 64 - 1) / 16777216
  (List.range (hi + 1 - lo)).map (lo + ·)

/-- Phase 2 of one queue of a cluster (R189, R180, R181). `units` lists the window units that the job holds, by octant. -/
def Plan.checkQueue (p : Plan) (s : State) (units : List (Nat × Nat)) (ps : List Pos) (g c q : Nat) : List FaultRec :=
  let cl := g * 64 + c
  let run := ps.foldl (fun (a : List MqTrack × List FaultRec) r =>
    let x := p.trackQueue g c q a.1 r
    (x.1, a.2 ++ x.2)) ([], [])
  let last := p.len - 1
  let kLast := match (p.rows g)[last]? with
    | some x => if x.padding then 0 else x.k
    | none => 0
  let open_ := run.1.any (fun x => !x.covered || (x.live && !x.write && decide (x.taken < 8)))
  let issue := ps.find? (fun r =>
    let w := p.control cl r.2.k
    (w.issueKind == 1 || w.issueKind == 2) && w.issueQ == q)
  let o := octantOf g
  let base := natBits (Sparse.num p.cfg (cfgBase cl + cinitBase + 32 + 8 * q) 4) 27 0
  let size := natBits (Sparse.num p.cfg (cfgBase cl + cinitBase + 36 + 8 * q) 4) 4 0
  run.2 ++ faultIf open_ { p.fault 0x032B 2 g c 6 0x02 with sub := q, k := kLast, e := last } ++
  (match issue with
  | none => []
  | some r =>
    let rec_ := fun (code : Nat) => { p.fault code 2 g c 6 0x05 with sub := q, k := r.2.k, e := r.1 }
    faultIf (!s.octantOk o) (rec_ 0x032D) ++
    faultIf ((regionUnits base size).any (fun u => !units.contains (o, u))) (rec_ 0x032C))

/-! ### Phase 2: lanes, lines, probes and ports -/

/-- The lane that a segment of the placement uses (R118, R277). -/
def Plan.laneOf (p : Plan) (compare : Bool) (g : Nat) : Nat := if compare && p.mask.getLsbD (g - 32) && decide (32 ≤ g) then g - 32 else g

/-- LANE_DECL (R220, R221): every execution of a slot entry that uses a lane sub-port (R212) of an undeclared lane, and a lane
declared twice. -/
def Plan.checkLanes (p : Plan) (compare : Bool) (ps : List Pos) (g : Nat) : List FaultRec :=
  let n := p.laneOf compare g
  let decls := p.image.lanes.countP (fun l => l.1 == n)
  (if decls = 0 then
    [27, 28, 35, 36].flatMap (fun c => ps.flatMap (fun r =>
      faultIf (usesLane (p.slot (g * 64 + c) r.2.k)) { p.fault 0x032E 2 g c 8 0x04 with sub := n, k := r.2.k, e := r.1 }))
  else []) ++
  faultIf (decide (2 ≤ decls) && n == g) { p.fault 0x032E 2 0 0 8 0x09 with seg := g, sub := n }

/-- LINE_TIMING of the FABRIC sources (R112, R220). -/
def Plan.checkLines (p : Plan) (lines : List (Nat × Nat)) : List FaultRec :=
  lines.zipIdx.flatMap (fun l =>
    let v := l.1.1
    if natBits v 2 0 = 6 then
      let cl := natBits v 19 8
      let k := natBits v 31 22
      let last := if p.mask.getLsbD (cl / 64) then ((runsOf (p.steps (cl / 64)) k).getLast?).map (·.1) else none
      let bad := match last with
        | some e => decide (p.len < e + 32)
        | none => true
      faultIf bad { p.fault 0x038C 2 0 0 7 0x07 with seg := cl / 64, cl := cl % 64, sub := l.2, k := k, e := last.getD 0 }
    else [])

/-- The probes of an image as placed: cluster, tap and position (R335). -/
def probeList (shift : Bool) (body : List Byte) : List (Nat × Nat × Nat) :=
  (List.range ((body.length - 4) / 4)).map (fun i =>
    let v := bodyNum body (4 + 4 * i) 4
    (shiftCluster shift (natBits v 11 0), natBits v 13 12, natBits v 27 14))

/-- PROBE_INVALID (R336). -/
def Plan.checkProbes (p : Plan) : List FaultRec :=
  let body := p.image.probes
  let n := bodyNum body 0 4
  let ps := probeList p.image.shift body
  let r := fun (cl e i : Nat) => { p.fault 0x0701 2 0 0 0 0x12 with seg := cl / 64, cl := cl % 64, e := e, w7 := i }
  if (findBlock p.image.blocks 0x12 0 0xFF).isNone then []
  else if n = 0 ∨ 8192 < n ∨ body.length ≠ 4 + 4 * n then [r 0 0 0]
  else ps.zipIdx.flatMap (fun x =>
    let (cl, tap, e) := x.1
    faultIf (natBits (bodyNum body (4 + 4 * x.2) 4) 31 28 != 0 || !p.mask.getLsbD (cl / 64) || decide (p.len ≤ e) ||
      p.padsAt (cl / 64) e || (ps.take x.2).contains (cl, tap, e) ||
      decide (64 ≤ (ps.take x.2).countP (fun y => y.1 == cl))) (r cl e x.2))

/-- The transactor ports of an image as placed (R380). -/
def portList (shift : Bool) (body : List Byte) : List Port :=
  (List.range ((body.length - 4) / 8)).map (fun i =>
    let v := bodyNum body (4 + 8 * i) 8
    { cl := shiftCluster shift (natBits v 11 0), bank := natBits v 13 12, base := natBits v 25 14, h2d := !natBit v 26
      slots := natBits v 38 32, words := natBits v 45 39 })

/-- The words of a port's mailbox (R381, R382). -/
def Port.size (x : Port) : Nat := 2 + x.slots * (x.words + 1)

/-- Two mailboxes lie in one bank and overlap, or are both design-to-host (R381). -/
def portsClash (a b : Port) : Bool :=
  a.cl == b.cl && a.bank == b.bank &&
    ((decide (a.base < b.base + b.size) && decide (b.base < a.base + a.size)) || (!a.h2d && !b.h2d))

/-- XACT_INVALID (R381): one record for each entry at fault, and for each DISPATCH line. -/
def Plan.checkPorts (p : Plan) (lines : List (Nat × Nat)) : List FaultRec :=
  let body := p.image.xact
  let n := bodyNum body 0 4
  let ps := portList p.image.shift body
  let disp := lines.zipIdx.filter (fun l => natBits l.1.1 2 0 == 4)
  let r := fun (cl i : Nat) => { p.fault 0x0166 2 0 0 0 0x13 with seg := cl / 64, cl := cl % 64, sub := i }
  let lineBad := fun (l : (Nat × Nat) × Nat) => natBits l.1.1 31 12 != 0 || decide (ps.length ≤ natBits l.1.1 11 8)
  if (findBlock p.image.blocks 0x13 0 0xFF).isNone then []
  else if n = 0 ∨ 16 < n ∨ body.length ≠ 4 + 8 * n then [r 0 0]
  else (ps.zipIdx.flatMap (fun x =>
      let v := bodyNum body (4 + 8 * x.2) 8
      faultIf (natBits v 31 27 != 0 || natBits v 63 46 != 0 || !p.mask.getLsbD (x.1.cl / 64) || x.1.slots == 0 ||
        decide (64 < x.1.slots) || x.1.words == 0 || decide (64 < x.1.words) || decide (4096 < x.1.base + x.1.size) ||
        (ps.take x.2).any (portsClash x.1) || !disp.any (fun l => natBits l.1.1 11 8 == x.2)) (r x.1.cl x.2))) ++
    disp.flatMap (fun l => faultIf (lineBad l) { r 0 (natBits l.1.1 11 8) with w7 := l.2 })

/-! ### Phase 2, the order of records, and the whole check -/

/-- STEP_BUDGET (R90, R219). -/
def Plan.checkBudget (p : Plan) (g : Nat) : List FaultRec :=
  let e := (p.seq g).execLength
  faultIf (decide (p.len < e) || decide (16384 < p.len)) { p.fault 0x0317 2 g 0 7 0x06 with w6 := e, w7 := p.len }

/-- Phase 2 (R217). -/
def Plan.phase2 (p : Plan) (s : State) (lines : List (Nat × Nat)) (units : List (Nat × Nat)) (compare : Bool) : List FaultRec :=
  (segsOf p.mask).flatMap (fun g =>
    let ps := p.steps g
    p.checkBudget g ++ p.checkLanes compare ps g ++ (List.range 64).flatMap (fun c =>
      let is := p.issues ps (g * 64 + c)
      p.checkNet s ps g c ++ ps.flatMap (p.checkWau is g c) ++ (List.range (min p.len 16384 + 1)).flatMap (p.checkPadWau is g c) ++
      (List.range 8).flatMap (p.checkQueue s units ps g c))) ++
  p.checkLines lines ++ p.checkProbes ++ p.checkPorts lines

/-- A record comes no later than another (R218): by phase, segment, cluster, position and BP. -/
def FaultRec.before (a b : FaultRec) : Bool :=
  let key := fun (r : FaultRec) => [r.phase, r.seg, r.cl, r.e, r.bp]
  !decide (key b < key a)

/-- A record placed among records in order, behind those it does not precede. -/
def insertRec (r : FaultRec) : List FaultRec → List FaultRec
  | [] => [r]
  | x :: xs => if FaultRec.before x r then x :: insertRec r xs else r :: x :: xs

/-- Records in the order of R218; records of one place keep the order in which they were found. -/
def sortRecs (rs : List FaultRec) : List FaultRec := rs.foldl (fun acc r => insertRec r acc) []

/-- Phases 1 and 2 of an image (R217): phase 2 runs only where phase 1 found nothing. -/
def State.checkPlan (s : State) (p : Plan) (im : Image) (units : List (Nat × Nat)) (compare : Bool) : List FaultRec :=
  match p.phase1 with
  | [] => sortRecs (p.phase2 s im.lines units compare)
  | fs => sortRecs fs

end Sys2Proof.Machine
end

