-- ==== Sys2Proof/Machine/Commands.lean ====
section
/-! DEFINITION. What every firmware command passes before it acts (R438–R440, R245): the shutdown, recovery, fields, rights and
the job named. -/

namespace Sys2Proof.Machine

/-- The commands outside the job, image, run-control, state, checkpoint and capture groups that a caller with VF rights may
issue (R439). -/
def vfOps : List Nat := [0x0101, 0x0102, 0x0107, 0x0803, 0x0A04, 0x0A05, 0x0B01, 0x0B02, 0x0B03, 0x0B04]

/-- The groups served in recovery and on the board controller's ring: device, security, log and update (R420, R440). -/
def coreGroups : List Nat := [0x01, 0x0A, 0x0B, 0x0C]

/-- A caller may issue a command (R439, R420). -/
def State.permitted (s : State) (r : Ring) (op : Nat) : Bool :=
  let g := op / 256
  match r with
  | .bmc => coreGroups.contains g
  | _ => !s.callerIsVf r || vfOps.contains op || (decide (2 ≤ g) && decide (g ≤ 7))

/-- What every command passes: DEV_SHUTDOWN's aftermath (R445), recovery (R440), its fields (R438) and the caller's rights
(R439). Firmware cores in reset execute none (R26, assumption 83). -/
def State.gate (s : State) (c : Call) (op : Nat) (fields : Bool) (body : State → State) : State :=
  if !s.fwUp then s
  else if s.theham.shutdown && !([0x0101, 0x0102].contains op) then s.reply c op 0x0015
  else if s.recovery && !coreGroups.contains (op / 256) then s.reply c op 0x0013
  else if !fields then s.reply c op 0x0011
  else if !s.permitted c.ring op then s.reply c op 0x0012
  else body s

/-- A job that a caller sees: it exists, and a VF's caller owns it (R439). -/
def State.sees (s : State) (r : Ring) (j : Nat) : Bool :=
  decide (j < 64) && (s.job j).state != .free && (!s.callerIsVf r || (s.job j).fn == s.callerFn r)

/-- The gate of a command that names a job: NO_JOB (R439, R246). -/
def State.jobGate (s : State) (c : Call) (op j : Nat) (fields : Bool) (body : State → State) : State :=
  s.gate c op (fields && decide (j < 64)) (fun s => if s.sees c.ring j then body s else s.reply c op 0x0202)

/-- A buffer address is 64-byte aligned (R438). -/
def aligned64 (a : Nat) : Bool := a % 64 == 0

/-- A buffer of a caller holds `n` bytes: the transfer window of the board controller's ring has 4 KiB, the shared window
256 KiB (R435, R405). -/
def bufFits (r : Ring) (addr n : Nat) : Bool :=
  match r with
  | .host _ => true
  | .agent => decide (addr + n ≤ 262144)
  | .bmc => decide (addr + n ≤ 4096)

/-- The commands of a job that wait complete with ABORTED (R442). -/
def State.abortAll (s : State) (j : Nat) : State := s.finish (fun w => w.job == j) 0x0016 0 (fun _ => [])

/-- A command of the job with an opcode waits. -/
def State.waits (s : State) (j op : Nat) : Bool := s.theham.waiting.any (fun w => w.job == j && w.op == op)

end Sys2Proof.Machine
end

