-- ==== Sys2Proof/Machine/Power.lean ====
section
/-! DEFINITION. Power domains (R170, R171, R500–R502): switches and their ends, what a domain loses and how its blocks come
back, and the resets of the debug domain (R462). -/

namespace Sys2Proof.Machine

/-- BAR0 offset of a PWR register. -/
def pwrAt (off : Nat) : Nat := PageKind.pwr.at off

/-- The pages of a power domain (R18, R35). The HBM controllers and the referees are in no switched domain: a PHY's switch
enables and disables their pages (R36). -/
def domainPages (pd : Nat) : List Nat :=
  if pd < 64 then (List.range 65).map (0x1000 + pd * 0x80 + ·)
  else if pd < 68 then (0x140 + (pd - 64) * 0x10) :: (List.range 16).map (0x180 + (pd - 64) * 16 + ·)
  else match pd with
    | 74 => (List.range 16).map (0x100 + ·)
    | 75 => [0x110, 0x111, 0x112]
    | 76 => (List.range 9).map (0x120 + ·) ++ [0x130]
    | 77 => [7]
    | 78 => [4, 5]
    | 79 => [6]
    | 82 => [0xA, 0xB]
    | _ => []

/-! ### Loss of power -/

/-- A segment loses power (R170): its stores, registers, data stores and queues, and without retention its banks. -/
def State.loseSeg (s : State) (g : Nat) (keep : Bool) : State :=
  let f := s.fab
  let lo := g * 64
  let bit := BitVec.ofNat 64 (2 ^ g)
  let f := { f with
    seqs := Sparse.erase f.seqs g
    cfg := Sparse.clearRange f.cfg (cfgBase lo) (cfgBase (lo + 64))
    ds := Sparse.clearRange f.ds (g * 8388608) ((g + 1) * 8388608)
    ors := Sparse.clearRange f.ors (lo * 8) ((lo + 64) * 8)
    pipe := Sparse.clearRange f.pipe lo (lo + 64)
    chain := Sparse.clearRange f.chain lo (lo + 64)
    inj := Sparse.clearRange f.inj (lo * 32) ((lo + 64) * 32)
    flights := f.flights.filter (fun x => x.cl / 64 != g)
    queues := Sparse.clearRange f.queues (lo * 8) ((lo + 64) * 8)
    taps := Sparse.clearRange f.taps (lo * 4096) ((lo + 64) * 4096)
    cyc := Sparse.clearRange f.cyc (lo * 16) ((lo + 64) * 16)
    istoreWb := f.istoreWb.filter (fun x => x.cl / 64 != g)
    mbWb := f.mbWb.filter (fun x => x.bank / 256 != g)
    dynWait := Sparse.clearRange f.dynWait (g * 256) (g * 256 + 256)
    waking := f.waking &&& ~~~bit
    wasKept := f.wasKept &&& ~~~bit }
  let f := if keep then { f with retained := f.retained ||| bit }
    else { f with retained := f.retained &&& ~~~bit, kept := f.kept &&& ~~~bit
                  mb := Sparse.clearRange f.mb (g * 1048576) ((g + 1) * 1048576)
                  dirty := Sparse.clearRange f.dirty (g * 256) ((g + 1) * 256) }
  { s with fab := f }

/-- Pages of a domain that stops: a transaction that holds one rolls back with TXN_ABORT (R55). -/
def State.abortPages (s : State) (pages : List Nat) : State :=
  pages.foldl (fun s p => match s.txnOf p with
    | some r => s.txnAbort r 0xB false
    | none => s) s

/-- The reset of the switched debug logic (R462): the DBG and TRACE pages with their blocks. -/
def State.debugReset (s : State) : State :=
  let s := (s.resetPage 0xA).resetPage 0xB
  { s with dbg := { uc := s.dbg.uc, fw := s.dbg.fw, core := s.dbg.core } }

/-- A domain is without power (R170, R177, R306, R500). A stack in self-refresh reads HBMC_STAT.trained 0 until its PHY is switched on
again, when it has trained: the spec gives only self_refresh for that state (DESIGN CHOICE, assumption 117). -/
def State.domainLost (s : State) (pd : Nat) (keep : Bool) : State :=
  let pages := domainPages pd
  let s := s.abortPages pages
  let s :=
    if pd < 64 then s.loseSeg pd keep
    else if pd < 68 then
      let s := (List.range 16).foldl (fun s i => s.laneTo ((pd - 64) * 16 + i) .off 0) s
      pages.foldl (fun s p => s.setFlag (hdr p 8) 0 false) s
    else if 70 ≤ pd ∧ pd < 74 then
      let k := pd - 70
      let s := (List.range 32).foldl (fun s i =>
        (s.setFlag (hdr (0x20 + k * 32 + i) 8) 0 false).refControl (k * 32 + i) .disabled) s
      (s.setFlag (hdr (0xA0 + k) 8) 0 false).setFld (hbmcAt k 0x40) 1 0 2
    else match pd with
      | 74 => { s with disp := {} }
      | 75 => { s with cap := {} }
      | 76 => { s with scrub := {} }
      | 77 => { s with time := {} }
      | 78 => { s with pins := { trip := s.pins.trip, hudOut := s.pins.hudOut, trigOut := s.pins.trigOut } }
      | 80 =>
        let s := if s.domainOn 80 && !s.flag (dbgAt 0x44) 4 then s.ucSleep 0 else s
        { s with theham := { s.theham with agentOn := false }, dbg := { s.dbg with uc := [], core := {} } }
      | 82 => s.debugReset
      | _ => s
  { s with pwr := { s.pwr with on := s.pwr.on &&& ~~~(BitVec.ofNat 84 (2 ^ pd)) } }

/-! ### Power comes -/

/-- A page enabled (R36). -/
def State.enablePage (s : State) (p : Nat) : State := s.setFlag (hdr p 8) 0 true

/-- The packages of a type that are in use, in the order of their measurement (R414). -/
def Theham.packages (t : Theham) (kind : Nat) : List (List Byte) := (t.inUse.filter (fun p => p.1 == kind)).map (·.2)

/-- The user core starts anew (R407, R414, R500): the agent that boot verified is placed in TCM and runs from its start, which its image
tells (a free pc), and which is a debug event with DBG_CTL.catch_boot (R470). The core leaves monitor mode and sleep. -/
def State.loadAgent (s : State) : State :=
  let images := s.theham.packages 3
  let on := !images.isEmpty
  let tcm := images.foldl (fun m bs => Sparse.putBytes m 0 ((Config.packageBody bs).take 0x80000)) s.dbg.uc
  let core : UserCore := { pc := Config.freeWord s.free }
  let s := { s with free := s.free + 1, theham := { s.theham with agentOn := on }
                    dbg := { s.dbg with step := false, deferred := 0, uc := tcm, core := core } }
  let s := s.setFlag (dbgAt 0x44) 3 false
  let s := if s.flag (dbgAt 0x44) 4 || s.trace.asleep then s.ucWake core.pc core.mode else s
  if on && s.flag (dbgAt 0x40) 2 then s.debugEventHere 7 else s

/-- A domain comes on (R11, R36, R171, R500): its blocks reset, its pages enabled as R36 says. -/
def State.domainUp (s : State) (pd : Nat) : State :=
  let s := { s with pwr := { s.pwr with on := s.pwr.on ||| BitVec.ofNat 84 (2 ^ pd) } }
  let pages := domainPages pd
  if pd < 64 then
    let s := pages.foldl State.resetPage s
    let s := if (s.jobOfSeg pd).isSome then pages.foldl State.enablePage s else s
    let bit := BitVec.ofNat 64 (2 ^ pd)
    if s.fab.retained.getLsbD pd then
      { s with fab := { s.fab with retained := s.fab.retained &&& ~~~bit, waking := s.fab.waking ||| bit
                                   wasKept := s.fab.wasKept ||| bit, kept := s.fab.kept &&& ~~~bit } }
    else s
  else if pd < 68 then
    let s := pages.foldl (fun s p => (s.resetPage p).enablePage p) s
    s.setFlag (laneGroupAt (pd - 64) 0x40) 0 true
  else if 70 ≤ pd ∧ pd < 74 then
    let k := pd - 70
    let s := (s.enablePage (0xA0 + k)).setFld (hbmcAt k 0x40) 1 0 1
    (List.range 32).foldl (fun s i =>
      if s.pcOk (k * 32 + i) then (s.enablePage (0x20 + k * 32 + i)).refControl (k * 32 + i) .arb else s) s
  else match pd with
    | 82 => (s.debugReset).enablePage 0xB
    | 80 => s.loadAgent
    | 78 => pages.foldl State.resetPage s
    | _ => pages.foldl (fun s p => (s.resetPage p).enablePage p) s

/-! ### Switches (R501) -/

/-- A domain is at the state that an operation asks for, and no switch of it is under way: 0 off, 1 on, 2 off with retention. -/
def State.atState (s : State) (pd op : Nat) : Bool :=
  !(s.pwr.busy ++ s.pwr.queue).any (fun x => x.pd == pd) &&
    (if op = 1 then s.domainOn pd else !s.domainOn pd && (op == 2 || !s.fab.retained.getLsbD pd))

/-- A queued switch can start: no switch of its domain is in progress, and of segment domains at most 8 ramp at once. -/
def Pwr.ready (p : Pwr) (x : PwrOp) : Bool :=
  !p.busy.any (fun b => b.pd == x.pd) &&
    (x.op != 1 || decide (64 ≤ x.pd) || decide (p.busy.countP (fun b => b.op == 1 && decide (b.pd < 64)) < 8))

/-- The queued switches that can start do so, in request order. -/
def State.startQueued (s : State) : State :=
  let p := s.pwr.queue.foldl (fun (p : Pwr) (x : PwrOp) =>
    if p.ready x && !p.queue.any (fun q => q.pd == x.pd) then { p with busy := p.busy ++ [x] } else { p with queue := p.queue ++ [x] })
    ({ s.pwr with queue := [] } : Pwr)
  { s with pwr := p }

/-- A switch of a domain asked for (R446, R501). -/
def State.powerSwitch (s : State) (pd op : Nat) (call : Option Call) : State :=
  { s with pwr := { s.pwr with queue := s.pwr.queue ++ [({ pd := pd, op := op, call := call } : PwrOp)] } }.startQueued

/-- A JOB_CREATE is at its end when every domain of its job is on, no switch of one is under way or waits, and every bank is awake
(R529). -/
def State.createDone (s : State) : State :=
  let ready := fun (w : Waiting) => w.op == 0x0201 && (segsOf (s.job w.job).mask).all (fun g =>
    s.domainOn g && !s.fab.waking.getLsbD g && !(s.pwr.busy ++ s.pwr.queue).any (fun x => x.pd == g))
  s.finish ready 0 0 (fun w => leBytes 1 w.job)

/-- The end of a switch in progress. -/
def State.switchDone (s : State) (x : PwrOp) : State :=
  let s := { s with pwr := { s.pwr with busy := s.pwr.busy.erase x } }
  let s := if x.op = 1 then (if s.domainOn x.pd then s else s.domainUp x.pd)
    else if s.domainOn x.pd || s.fab.retained.getLsbD x.pd then s.domainLost x.pd (x.op == 2) else s
  let s := match x.call with
    | some c => s.complete c 0x0103 0 0 []
    | none => s
  s.createDone.startQueued

/-- DOMAIN_SWITCH_ON_DONE (R500, R501). -/
def execDomainSwitchOnDone (pd : Nat) (s : State) : Host.Outcome State Fault Refusal :=
  match s.pwr.busy.find? (fun x => x.pd == pd && x.op == 1) with
  | some x => .next (s.switchDone x)
  | none => .next s

/-- DOMAIN_SWITCH_OFF_DONE (R500, R501). -/
def execDomainSwitchOffDone (pd : Nat) (s : State) : Host.Outcome State Fault Refusal :=
  match s.pwr.busy.find? (fun x => x.pd == pd && x.op != 1) with
  | some x => .next (s.switchDone x)
  | none => .next s

/-- BANK_WAKE_DONE (R171): the banks of a waking segment become accessible. -/
def execBankWakeDone (seg : Nat) (s : State) : Host.Outcome State Fault Refusal :=
  .next ({ s with fab := { s.fab with waking := s.fab.waking &&& ~~~(BitVec.ofNat 64 (2 ^ seg)) } }.createDone)

/-! ### DEV_POWER (R446) -/

/-- A job's image issues queue requests (R177): some control word in reach of its sequencers does. -/
def State.jobIssues (s : State) (j : Nat) : Bool :=
  (segsOf (s.job j).mask).any (fun g => (clustersOf g).any (fun cl =>
    (List.range (s.seq g).cycLen).any (fun k => [1, 2].contains (s.control cl k).issueKind)))

/-- A switch-off is refused with DOMAIN_BUSY (R446, R177, R462). -/
def State.domainBusy (s : State) (pd : Nat) : Bool :=
  if pd < 64 then (s.jobOfSeg pd).isSome
  else if pd < 68 then (List.range 16).any (fun i => (s.laneJob ((pd - 64) * 16 + i)).isSome)
  else if 70 ≤ pd ∧ pd < 74 then s.jobs.any (fun e => e.2.live && s.jobIssues e.1)
  else match pd with
    | 74 => s.disp.flows != []
    | 75 => s.cap.job.isSome
    | 76 => s.jobs.any (fun e => e.2.state != .free)
    | 77 => s.time.ptp.isSome || s.jobs.any (fun e => e.2.live && s.peerLanes e.1 != [])
    | 82 => s.flag (dbgAt 0x40) 3 || s.traceState != 0
    | _ => false

/-- DEV_POWER (R445, R446). -/
def execDevPower (c : Call) (domain op : Nat) (s : State) : Host.Outcome State Fault Refusal :=
  .next (s.gate c 0x0103 (decide (domain < 84) && decide (op < 3) && (op != 2 || decide (domain < 64))) (fun s =>
    if [68, 69, 79, 81, 83].contains domain then s.reply c 0x0103 0x0012
    else if s.atState domain op then s.reply c 0x0103 0
    else if op ≠ 1 ∧ s.domainBusy domain then s.reply c 0x0103 0x0190
    else if op = 1 ∧ s.theham.high then s.reply c 0x0103 0x0209
    else
      let s := if op = 2 ∧ s.fab.kept.getLsbD domain = false ∧ s.fab.wasKept.getLsbD domain = false then
          { s with fab := { s.fab with keeper := Sparse.set 0 s.fab.keeper domain 0 } } else s
      s.powerSwitch domain op (some c)))

end Sys2Proof.Machine
end

