-- ==== Sys2Proof/Machine/Jobs.lean ====
section
/-! DEFINITION. Jobs (R226–R229, R242–R245): creation, stop, halts, destroy, windows (R180, R447) and what a job's queries
return. -/

namespace Sys2Proof.Machine

/-! ### Pages and event routes (R41, R227, R426) -/

/-- Firmware hands a list of pages to a requester (R41). -/
def State.handPages (s : State) (pages : List Nat) (rq : Requester) : State := pages.foldl (fun s p => s.setOwner p rq) s

/-- The default route of a source that no job holds: the PF's vector 2, with log set (R426). -/
def defaultRoute : Word := 0x8280

/-- An event source routed to a function's vector 1 with log set (R426). -/
def State.routeTo (s : State) (fn : Nat) (source : Nat) : State :=
  s.setReg (evtRoute source) (BitVec.ofNat 32 (fn + 2 ^ 6 + 2 ^ 9 + 2 ^ 15))

/-- The pseudo-channels of an octant's window (R179). -/
def octantPcs (o : Nat) : List Nat := (List.range 16).map (fun j => o + 8 * j)

/-- The octants that hold a segment of a mask. -/
def octantsOf (mask : BitVec 64) : List Nat := (List.range 8).filter (fun o => (segsOf mask).any (fun g => octantOf g == o))

/-- The jobs that hold a segment of an octant. -/
def State.jobsInOctant (s : State) (o : Nat) : List Job :=
  (s.jobs.filter (fun e => (octantsOf e.2.mask).contains o)).map (·.2)

/-- The REF pages of an octant go to the function that owns every job in it, or to the PF (R227). -/
def State.handRefs (s : State) (o : Nat) : State :=
  let fns := (s.jobsInOctant o).map (fun (x : Job) => x.fn)
  let rq := match fns with
    | f :: fs => if fs.all (· == f) then fnRequester f else .pf
    | [] => .pf
  s.handPages ((octantPcs o).map (0x20 + ·)) rq

/-- The pages of a segment. -/
def fabPages (g : Nat) : List Nat := (List.range 65).map (0x1000 + g * 0x80 + ·)

/-- The event sources of a job's segments and lanes (R425). -/
def jobSources (j : Nat) (mask : BitVec 64) : List Nat := j :: (segsOf mask).flatMap (fun g => [64 + g, 128 + g])

/-! ### Creation (R226, R227) -/

/-- A segment's power domain is off, or a switch is under way that takes it off. -/
def State.segNeedsPower (s : State) (g : Nat) : Bool :=
  !s.domainOn g || (s.pwr.busy ++ s.pwr.queue).any (fun x => x.pd == g && x.op != 1)

/-- The code with which a creation is refused before any space is sought (R226, R421). -/
def State.createFault (s : State) (mask : BitVec 64) : Option Nat :=
  let segs := segsOf mask
  if (List.range 64).all (fun j => (s.job j).state != .free) then some 0x0201
  else if segs.any (fun g => (s.jobOfSeg g).isSome) then some 0x0204
  else if segs.any s.segDown then some 0x0205
  else if mask = 0 then some 0x0207
  else if s.theham.high && segs.any s.segNeedsPower then some 0x0209
  else none

/-- A further reservation of four units, the lowest that are free, for each of a list of segments (R227, R230); `none` where a window
lacks the space. -/
def State.reserve (s : State) (j : Nat) (segs : List Nat) : Option State :=
  segs.foldl (fun o g => o.bind (fun s =>
    let oc := octantOf g
    let us := ((List.range 768).filter (fun u => s.unitFree oc u)).take 4
    let x := s.job j
    if us.length = 4 then some (s.setJob j { x with reserve := x.reserve ++ us.map (fun u => (oc, u, 1)) }) else none)) (some s)

/-- A VF without a group gets the lowest that the PF holds and no flow uses (R394), and the group's source goes to the function that the
job is made for (R426). -/
def State.handGroup (s : State) (fn : Nat) : State :=
  if fn = 0 ∨ s.groupOfFn fn ≠ 0 then s.routeTo fn (320 + s.groupOfFn fn)
  else match (List.range 16).find? (fun g =>
      g != 0 && s.owner (groupPage g) == (0, 0) && !s.disp.flows.any (fun f => f.group == g)) with
    | some g => (s.setOwner (groupPage g) (.vf fn)).routeTo fn (320 + g)
    | none => s

/-- Banks kept by another function's destroy are cleared before a segment is handed over (R236). -/
def State.claimSeg (s : State) (fn g : Nat) : State :=
  let held := s.fab.retained.getLsbD g || s.fab.wasKept.getLsbD g || s.fab.kept.getLsbD g
  let s := if held && Sparse.get 0 s.fab.keeper g != fn then s.wipeBanks g else s
  { s with fab := { s.fab with kept := s.fab.kept &&& ~~~(BitVec.ofNat 64 (2 ^ g)) } }

/-- A job made on a mask for a function (R226, R227): its number and the state, or the code of the refusal. The number is the
lowest free one; the segments' domains are asked for. -/
def State.makeJob (s : State) (mask : BitVec 64) (fn : Nat) : Nat ⊕ (Nat × State) :=
  match s.createFault mask with
  | some c => .inl c
  | none =>
    let segs := segsOf mask
    let j := ((List.range 64).find? (fun j => (s.job j).state == .free)).getD 0
    let bulk := segs.all (fun g => (List.range 16).all (fun i => mask.getLsbD (dieOf g * 16 + i)))
    let x : Job := { state := .created, mask := mask, fn := fn, lead := segs.head?.getD 0, bulk := bulk
                     stage := if bulk then 3 else 0 }
    match (s.setJob j x).reserve j segs with
    | none => .inl 0x0206
    | some s =>
      let s := segs.foldl (fun s g => (s.claimSeg fn g).handPages (fabPages g) (fnRequester fn)) s
      let s := segs.foldl (fun s g => (fabPages g).foldl State.enablePage s) s
      let s := (octantsOf mask).foldl State.handRefs s
      let s := s.handGroup fn
      let pcs := (octantsOf mask).flatMap octantPcs
      let s := (jobSources j mask ++ pcs.map (192 + ·)).foldl (fun s src => s.routeTo fn src) s
      let s := segs.foldl (fun s g => if s.segNeedsPower g then s.powerSwitch g 1 none else s) s
      .inr (j, s)

/-- JOB_CREATE (R226, R227, R447, R529). A VF's caller creates for itself only (R439). -/
def execJobCreate (c : Call) (mask : BitVec 64) (fn : Nat) (s : State) : Host.Outcome State Fault Refusal :=
  .next (s.gate c 0x0201 (decide (fn < 64)) (fun s =>
    if s.callerIsVf c.ring && s.callerFn c.ring != fn then s.reply c 0x0201 0x0012
    else match s.makeJob mask fn with
      | .inl code => s.reply c 0x0201 code
      | .inr (j, s) => (s.await { call := c, op := 0x0201, job := j }).createDone))

/-! ### Binding of lanes (R299) -/

/-- The lanes of a job, and its huddle, are let go (R299, R331). -/
def State.unbind (s : State) (j : Nat) : State :=
  let s := (List.range 64).foldl (fun s n =>
    if s.laneJob n = some j then
      let l := s.lane n
      ((s.setReg (laneAt n 0x50) 0).setFlag (laneAt n 0x44) 4 false).setLane n
        { l with words := [], elastic := [], latest := none, partner := none, wordsLost := false, marker := none, hudGot := false
                 rxOther := false, line := { l.line with held := none } }
    else s) s
  (s.setFld (hudAt j 4) 2 0 0).setFlag (hudAt j 4) 6 false

/-! ### Stop (R242) -/

/-- The user number of a job's checkpoint store and log, and of the capture region, among the HBM allocations. -/
def ckptUser (j : Nat) : Nat := j

/-- Protection returns to OFF (R275): the store and the log are freed, CKPT_JOB_CFG.enable reads 0. -/
def State.protOff (s : State) (j : Nat) : State :=
  let x := s.job j
  ((s.setJob j { x with prot := {} }).freeHbm (ckptUser j)).setFlag (ckptAt j 0) 0 false

/-- The job of a stop or destroy that stands (R242, R243, R245, R348, R393, R442): sequencers idle, flows stopped, lanes and
huddle let go, protection OFF, failed cleared; the commands that wait for its run are answered. -/
def State.stopJob (s : State) (j : Nat) (after : JobState) : State :=
  let s := s.mapSeqs j (fun q => { q with state := .idle, region := false })
  let s := s.stopFlows j
  let s := if s.cap.job = some j then s.capStop else s
  let s := (s.unbind j).protOff j
  let x := s.job j
  let clearing := s.fab.clearing &&& ~~~x.mask
  let s := { s with fab := { s.fab with clearing := clearing } }
  let s := s.setJob j { x with state := after, failed := false, haltReq := none, haltedBy := none, untilM := none, holdAt := none
                               nextHold := none, block := 0, blocks := 0, lastBlk := false, waitSegs := [], laneDown := []
                               hudHold := false, gate := false, ue := false, cmpDue := none }
  let s := s.finish (fun w => w.job == j && [0x0603, 0x0605, 0x0405].contains w.op) 0x0016 0 (fun _ => [])
  let s := s.finishJob j 0x0402 0 (s.haltResult j)
  s.finishJob j 0x0404 0 []

/-- A stop or destroy that waits for its job to stand goes on (R242, R243). -/
def State.standsNow (s : State) (j : Nat) : State :=
  if !s.standing j then s
  else if (s.job j).state = .destroying then s.stopJob j .destroying
  else if s.waits j 0x0404 then s.stopJob j .loaded
  else s

/-! ### Halts (R105) -/

/-- What units have entered for a position that a halt keeps from executing: it executes on the state that stands then (R59, R105). -/
def State.dropStaged (s : State) (j : Nat) : State :=
  { s with fab := { s.fab with staged := s.fab.staged.filter (fun u => !(s.job j).hasCluster (u.1 / 128)) } }

/-- A job's sequencers stop between steps (R105, R106, R109): a hold in progress is to begin a new block, and a partial checkpoint is
discarded, the next being requested (R264). Protection that has left COPYING for a rollback or for FAILED keeps that state (R275).
Waiting RUN_HALT commands complete; a stop or destroy goes on. -/
def State.haltNow (s : State) (j : Nat) (why : HaltWhy) : State :=
  let x := s.job j
  let paused := (s.seq x.lead).state == .pause && x.prot.state == .copying
  let s := s.closeBlocks j
  let s := s.mapSeqs j (fun q =>
    if [SeqState.run, .pad, .hold, .pause].contains q.state then { q with before := q.state, state := .halted } else q)
  let prot := if paused then
      { x.prot with state := .armed, copying := none, requested := some (match x.prot.requested with
        | some t => min t x.m
        | none => x.m) }
    else x.prot
  let s := s.setJob j { s.job j with haltReq := none, haltedBy := some why, block := 0, lastBlk := false, prot := prot }
  let s := (s.dropStaged j).flushWritebacks j
  (s.finishJob j 0x0402 0 (s.haltResult j)).standsNow j

/-- HALT_TAKES_EFFECT (R105, R109): a halt asked for takes effect. -/
def execHaltTakesEffect (job : Nat) (s : State) : Host.Outcome State Fault Refusal :=
  let x := s.job job
  match x.haltReq with
  | none => .next s
  | some why =>
    if [JobState.active, .reloading, .destroying].contains x.state then .next (s.haltNow job why) else .next s

/-! ### Destroy (R243) -/

/-- Every command of a job that is in progress completes with ABORTED (R442): those that wait, a load and a reload. -/
def State.abortJob (s : State) (j : Nat) : State :=
  let x := s.job j
  let s := match x.load with
    | some q => s.reply q.call 0x0301 0x0016
    | none => s
  let s := match x.reload with
    | some r => s.reply r.call 0x0302 0x0016
    | none => s
  (s.setJob j { s.job j with load := none, reload := none }).abortAll j

/-- The capture session ends (R348, R451): the engine stops, its staged lines reach the region, the region is freed and the CAP
pages return to the PF. -/
def State.capEnd (s : State) : State :=
  let s := s.capStop
  let hbm := s.cap.stage.foldl (fun (m : Sparse Byte) (l : Nat × List Byte) => m.putBytes l.1 l.2) s.hbm
  let s := { s with hbm := hbm }
  let s := (s.setCap {}).freeHbm 64
  let s := ((s.setFld (capAt 0 0x40) 6 0 0).setReg (capAt 0 0x44) 0)
  s.handPages [0x110, 0x111, 0x112] .pf

/-- The commands of a job that wait to start complete with ABORTED (R442), but those of callers who do not see the job (R439). -/
def State.abortQueued (s : State) (job : Nat) : State :=
  let gone := s.theham.queued.filter (fun q => q.job == job && s.sees q.call.ring job)
  gone.foldl (fun s q => s.reply q.call q.op 0x0016)
    { s with theham := { s.theham with queued := s.theham.queued.filter (fun q => !(q.job == job && s.sees q.call.ring job)) } }

/-- JOB_DESTROY (R243, R442, R447): the job's commands taken before it end; a second destroy waits for the first. -/
def execJobDestroy (c : Call) (job : Nat) (keep : Bool) (s : State) : Host.Outcome State Fault Refusal :=
  .next (s.jobGate c 0x0202 job true (fun s =>
    let w : Waiting := { call := c, op := 0x0202, job := job }
    let s := s.abortQueued job
    if (s.job job).state = .destroying then s.await w
    else
      let s := s.abortJob job
      let s := (s.requestHalt job .stop).await w
      let s := s.setJob job { s.job job with state := .destroying, keepDestroy := keep }
      if s.standing job then s.stopJob job .destroying else s))

/-- A destroyed segment's banks: cleared, or kept in retention for its function (R170, R236, R243). -/
def State.releaseSeg (s : State) (fn g : Nat) (keep : Bool) : State :=
  let s := { s with fab := { s.fab with
    ds := Sparse.clearRange s.fab.ds (g * 8388608) ((g + 1) * 8388608)
    ors := Sparse.clearRange s.fab.ors (g * 512) ((g + 1) * 512)
    queues := Sparse.clearRange s.fab.queues (g * 512) ((g + 1) * 512)
    pipe := Sparse.clearRange s.fab.pipe (g * 64) ((g + 1) * 64)
    chain := Sparse.clearRange s.fab.chain (g * 64) ((g + 1) * 64)
    flights := s.fab.flights.filter (fun x => x.cl / 64 != g)
    keeper := if keep then Sparse.set 0 s.fab.keeper g fn else s.fab.keeper
    kept := if keep then s.fab.kept ||| BitVec.ofNat 64 (2 ^ g) else s.fab.kept &&& ~~~(BitVec.ofNat 64 (2 ^ g)) } }
  if keep then s.powerSwitch g 2 none else s.wipeBanks g

/-- DESTROY_COMPLETE (R36, R227, R243, R394): the destroy's clearing is done; pages, space and the job number are free. -/
def execDestroyComplete (job : Nat) (s : State) : Host.Outcome State Fault Refusal :=
  let x := s.job job
  if !s.fwUp ∨ x.state ≠ .destroying ∨ x.haltReq.isSome ∨ ¬ s.standing job then .next s
  else
    let segs := segsOf x.mask
    let s := if s.cap.job = some job then s.capEnd else s
    let s := s.dropFlows job
    let s := { s with disp := { s.disp with ports := Sparse.clearRange s.disp.ports (job * 16) (job * 16 + 16) } }
    let s := s.setJob job {}
    let s := segs.foldl (fun s g => s.releaseSeg x.fn g x.keepDestroy) s
    let s := { s with fab := { s.fab with copy := segs.foldl (fun m g =>
      Sparse.clearRange m (cfgBase (g * 64)) (cfgBase (g * 64 + 64))) s.fab.copy } }
    let s := segs.foldl (fun s g => (s.handPages (fabPages g) .pf)) s
    let s := segs.foldl (fun s g => (fabPages g).foldl (fun s p => s.setFlag (hdr p 8) 0 false) s) s
    let s := (octantsOf x.mask).foldl State.handRefs s
    let gone := jobSources job x.mask ++
      ((octantsOf x.mask).filter (fun o => (s.jobsInOctant o).isEmpty)).flatMap (fun o => (octantPcs o).map (192 + ·))
    let s := gone.foldl (fun s src => s.setReg (evtRoute src) defaultRoute) s
    let g : Nat := s.groupOfFn x.fn
    let s := if g != 0 && (s.jobsOfFn x.fn).isEmpty then
        (s.setOwner (groupPage g) .pf).setReg (evtRoute (320 + g)) defaultRoute
      else s
    .next (s.finishJob job 0x0202 0 [])

/-! ### Queries (R447) -/

/-- DEV_JOB_STAT_n (R247). -/
def State.jobStat (s : State) (j : Nat) : Nat :=
  let x := s.job j
  let code := match x.state with
    | .free => 0 | .created => 1 | .loading => 2 | .loaded => 3 | .starting => 4 | .active => 5 | .reloading => 6
    | .destroying => 7
  if x.state = .free then 0
  else code + boolNat x.failed * 2 ^ 3 + boolNat x.bulk * 2 ^ 4 + x.stage * 2 ^ 5 + x.lead * 2 ^ 8 + x.fn * 2 ^ 16 +
    boolNat (x.fn != 0) * 2 ^ 22 + (segsOf x.mask).length * 2 ^ 25

/-- FABS_SEQ_STAT.state of a sequencer (R109). -/
def SeqState.code : SeqState → Nat
  | .idle => 0 | .run => 1 | .pad => 2 | .hold => 3 | .halted => 4 | .stopped => 5 | .pause => 6

/-- CKPT_JOB_STAT.state (R275, R283). -/
def ProtState.code : ProtState → Nat
  | .off => 0 | .armed => 1 | .copying => 2 | .rollback => 3 | .reexec => 4 | .failed => 5

/-- JOB_QUERY (R447). -/
def execJobQuery (c : Call) (job : Nat) (s : State) : Host.Outcome State Fault Refusal :=
  .next (s.jobGate c 0x0203 job true (fun s =>
    let x := s.job job
    s.complete c 0x0203 0 0 (leBytes 4 (s.jobStat job) ++ leBytes 1 (s.seq x.lead).state.code ++ leBytes 1 x.prot.state.code ++
      [0, 0] ++ leBytes 8 x.mask.toNat ++ leBytes 8 x.m)))

/-- IMG_INFO (R447). -/
def execImgInfo (c : Call) (job : Nat) (s : State) : Host.Outcome State Fault Refusal :=
  .next (s.jobGate c 0x0303 job true (fun s =>
    let x := s.job job
    match x.image with
    | some im =>
      if [JobState.loaded, .starting, .active, .reloading, .destroying].contains x.state then
        s.complete c 0x0303 0 0 (leBytes 2 im.jobLen ++ leBytes 1 (boolNat im.shift + 2 * boolNat x.compare) ++ [0] ++
          leBytes 4 im.tool ++ leBytes 1 im.keySlot ++ List.replicate 7 0 ++ leBytes 8 im.mask.toNat)
      else s.reply c 0x0303 0x0203
    | none => s.reply c 0x0303 0x0203))

/-! ### Windows (R180, R447) -/

/-- The window units that a job holds, by octant. -/
def Job.units (x : Job) : List (Nat × Nat) := x.windows.flatMap (fun w => (List.range w.2.2).map (fun i => (w.1, w.2.1 + i)))

/-- JOB_WINDOW_ALLOC (R180, R447): the lowest run of free units that fits. -/
def execJobWindowAlloc (c : Call) (job octant units : Nat) (s : State) : Host.Outcome State Fault Refusal :=
  .next (s.jobGate c 0x0204 job (decide (octant < 8) && decide (1 ≤ units) && decide (units ≤ 768)) (fun s =>
    let x := s.job job
    if !(octantsOf x.mask).contains octant then s.reply c 0x0204 0x0207
    else
      match (List.range (769 - units)).find? (fun u => (List.range units).all (fun i => s.unitFree octant (u + i))) with
      | some u =>
        if s.octantOk octant then
          (s.setJob job { x with windows := x.windows ++ [(octant, u, units)] }).complete c 0x0204 0 0 (leBytes 4 u)
        else s.reply c 0x0204 0x0206
      | none => s.reply c 0x0204 0x0206))

/-- The units that the queue regions of a loaded image take in an octant: those of queues on which an executed control word
issues (R181). -/
def State.queueUnits (s : State) (j octant : Nat) : List Nat :=
  ((segsOf (s.job j).mask).filter (fun g => octantOf g == octant)).flatMap (fun g => (clustersOf g).flatMap (fun cl =>
    (List.range 8).flatMap (fun q =>
      let issues := (List.range (s.seq g).cycLen).any (fun k =>
        let w := s.control cl k
        (w.issueKind == 1 || w.issueKind == 2) && w.issueQ == q)
      if issues then
        regionUnits (natBits (Sparse.num s.fab.cfg (cfgBase cl + cinitBase + 32 + 8 * q) 4) 27 0)
          (natBits (Sparse.num s.fab.cfg (cfgBase cl + cinitBase + 36 + 8 * q) 4) 4 0)
      else [])))

/-- JOB_WINDOW_FREE (R447). -/
def execJobWindowFree (c : Call) (job octant units offset : Nat) (s : State) : Host.Outcome State Fault Refusal :=
  .next (s.jobGate c 0x0205 job (decide (octant < 8)) (fun s =>
    let x := s.job job
    if x.state ≠ .created ∧ x.state ≠ .loaded then s.reply c 0x0205 0x0203
    else
      let range := (List.range units).map (offset + ·)
      let held := (x.units.filter (fun u => u.1 == octant)).map (·.2)
      let need := match x.image with
        | some im => ((im.needs.find? (fun n => n.1 == octant)).map (·.2)).getD 0
        | none => 0
      let covered := range.all (fun u => held.contains u)
      let queues := match x.image with
        | some _ => (s.queueUnits job octant).any (fun u => range.contains u)
        | none => false
      if !covered || decide (held.length - units < need) || queues then s.reply c 0x0205 0x0207
      else
        let rest := (x.units.filter (fun u => !(u.1 == octant && range.contains u.2))).map (fun u => (u.1, u.2, 1))
        (s.setJob job { x with windows := rest }).reply c 0x0205 0))

end Sys2Proof.Machine
end

