-- ==== Sys2Proof/Machine/Load.lean ====
section
/-! DEFINITION. Loading (R230, R231), region reload (R239–R241) and the start of a job (R232–R237). -/

namespace Sys2Proof.Machine

/-! ### Stores -/

/-- A measurement register extended with a digest (R417). -/
def State.extendMr (s : State) (i : Nat) (d : BitVec 256) : State :=
  let t := s.theham
  let old := Sparse.get 0 t.mr i
  let new := Config.sm3 (leBytes 32 old.toNat ++ leBytes 32 d.toNat)
  { s with theham := { t with mr := Sparse.set 0 t.mr i new, mrCount := Sparse.set 0 t.mrCount i (Sparse.get 0 t.mrCount i + 1) } }

/-- FABC_BP_CHAIN and FABC_BP_ACTIVE of a segment's clusters, and the mode of its BPs, from the executed entries of its instruction
stores (R77, R87, R88). The registers keep their values until the next load or their reset (R11), the mode for the life of the image. -/
def State.setModes (s : State) (g : Nat) : State :=
  let n := (s.seq g).cycLen
  (clustersOf g).foldl (fun s cl =>
    let ops := (List.range 64).map (fun bp => (List.range n).map (fun k =>
      (iword (Sparse.num s.fab.cfg (istoreAt cl bp k).1 12)).opc))
    let mask := fun (f : Nat → Bool) (half : Nat) => BitVec.ofNat 32 ((List.range 32).foldl (fun a i =>
      a + boolNat ((ops.getD (32 * half + i) []).any f) * 2 ^ i) 0)
    let chain : Dword := mask (· == 2) 1 ++ mask (· == 2) 0
    let s := { s with fab := { s.fab with chain := Sparse.set 0 s.fab.chain cl chain } }
    let s := (s.setReg (fabcAt cl 0x48) (mask (· == 2) 0)).setReg (fabcAt cl 0x4C) (mask (· == 2) 1)
    (s.setReg (fabcAt cl 0x50) (mask (· != 0) 0)).setReg (fabcAt cl 0x54) (mask (· != 0) 1)) s

/-- The stores of a list of segments replaced by the bytes of a table. -/
def replaceStores (m : Sparse Byte) (segs : List Nat) (new : Sparse Byte) : Sparse Byte :=
  let m := segs.foldl (fun m g => Sparse.clearRange m (cfgBase (g * 64)) (cfgBase (g * 64 + 64))) m
  new.foldl (fun m e => Sparse.set 0 m e.1 e.2) m

/-- Data stores and OR0–OR7 of a list of segments at zero. -/
def State.zeroState (s : State) (segs : List Nat) : State :=
  segs.foldl (fun s g => { s with fab := { s.fab with
    ds := Sparse.clearRange s.fab.ds (g * 8388608) ((g + 1) * 8388608)
    ors := Sparse.clearRange s.fab.ors (g * 512) ((g + 1) * 512) } }) s

/-- The snapshot registers of a segment's clusters as the XACT block gives them, for both copies in compare mode (R400, R404). -/
def State.setPorts (s : State) (j : Nat) (im : Image) (compare : Bool) : State :=
  let segs := segsOf (s.job j).mask
  let s := segs.foldl (fun s g => (clustersOf g).foldl (fun s cl =>
    (List.range 4).foldl (fun s b => s.setReg (fabcAt cl (0x300 + 8 * b)) 0) s) s) s
  let ps := portList im.shift im.xact
  let s := { s with disp := { s.disp with ports := Sparse.clearRange s.disp.ports (j * 16) (j * 16 + 16) } }
  (ps.zipIdx).foldl (fun s p =>
    let s := s.setPort j p.2 p.1
    if p.1.h2d then s
    else (if compare then [0, 1] else [0]).foldl (fun s c =>
      s.setReg (fabcAt (p.1.cl + 2048 * c) (0x300 + 8 * p.1.bank)) (BitVec.ofNat 32 (p.1.base + 1 + 2 ^ 31))) s) s

/-! ### Loading -/

/-- The bytes of fault records (R219). -/
def recordBytes (fs : List FaultRec) : List Byte := fs.flatMap (fun f => f.toWords.flatMap (fun w => leBytes 4 w.toNat))

/-- The end of a load or reload command (R218, R447): its report, the count of faults and the first record. -/
def State.reportFaults (s : State) (c : Call) (op report capacity : Nat) (fs : List FaultRec) : State :=
  let s := if fs = [] then s else s.bufWrite c.ring report (recordBytes (fs.take capacity))
  let code := (fs.head?.map (fun (f : FaultRec) => f.code)).getD 0
  s.complete c op code (min 65535 fs.length) (recordBytes (fs.take 1))

/-- The window units that an image asks for beyond the job's, allocated lowest first (R180, R230); in compare mode a unit of copy A is
free in both copies' windows and comes with that of copy B, and copy B takes what it still lacks first at the offsets of copy A
(R276). -/
def State.allocNeeds (s : State) (j : Nat) (needs : List (Nat × Nat)) (compare : Bool) : Option State :=
  needs.foldl (fun o n => o.bind (fun s =>
    let x := s.job j
    let have_ := (x.units.filter (fun u => u.1 == n.1)).length
    let want := n.2 - have_
    if want = 0 then some s
    else
      let both := compare && decide (n.1 < 4)
      let free := (List.range 768).filter (fun u => s.unitFree n.1 u && (!both || s.unitFree (n.1 + 4) u))
      let twin := fun (u : Nat) => compare && decide (4 ≤ n.1) && x.units.contains (n.1 - 4, u)
      let us := (free.filter twin ++ free.filter (fun u => !twin u)).take want
      if us.length = want then
        let add := us.flatMap (fun u => (n.1, u, 1) :: (if both then [(n.1 + 4, u, 1)] else []))
        some (s.setJob j { x with windows := x.windows ++ add })
      else none)) (some s)

/-- IMG_LOAD (R230, R447): a load in state LOADED takes a second reservation. -/
def execImgLoad (c : Call) (job : Nat) (hbm shift compare : Bool) (address : BitVec 64) (len : Nat) (report : BitVec 64)
    (capacity : Nat) (s : State) : Host.Outcome State Fault Refusal :=
  let fields := decide (capacity ≤ 256) && aligned64 address.toNat && aligned64 report.toNat
  .next (s.jobGate c 0x0301 job fields (fun s =>
    let x := s.job job
    if x.state ≠ .created ∧ x.state ≠ .loaded then s.reply c 0x0301 0x0203
    else if !bufFits c.ring report.toNat (32 * capacity) then s.reply c 0x0301 0x0017
    else
      match if x.state = .loaded then s.reserve job (segsOf x.mask) else some s with
      | none => s.reply c 0x0301 0x0206
      | some s =>
        let x := s.job job
        let q : LoadReq := { call := c, place := ⟨hbm, s.callerFn c.ring, address.toNat⟩, len := len, shift := shift
                             compare := compare, report := report.toNat, capacity := capacity }
        s.setJob job { x with prev := x.state, state := .loading, load := some q }))

/-- A load that fails leaves every store, page, bank and allocation as it was (R230). -/
def State.loadFails (s : State) (j : Nat) (old : Job) : State :=
  let n := (segsOf old.mask).length
  s.setJob j { old with state := old.prev, load := none, reserve := old.reserve.take (4 * n) }

/-- Step 5 of a load (R230): stores, verified copy, sequencers, modes and ports written, data stores and operand registers
zeroed, dirty bits cleared. -/
def State.loadStores (s : State) (j : Nat) (im : Image) (compare : Bool) : State :=
  let x := s.job j
  let segs := segsOf x.mask
  let stores := s.imageStores im compare
  let seqs := s.imageSeqs im compare
  let s := { s with fab := { s.fab with cfg := replaceStores s.fab.cfg segs stores, copy := replaceStores s.fab.copy segs stores } }
  let s := segs.foldl (fun s g => s.setSeq g { (Sparse.get ({} : Seq) seqs g).restart with state := .idle }) s
  let s := s.zeroState segs
  let s := { s with fab := { s.fab with
    dirty := segs.foldl (fun m g => Sparse.clearRange m (g * 256) ((g + 1) * 256)) s.fab.dirty } }
  (segs.foldl State.setModes s).setPorts j im compare

/-- LOADING as it ends (R230): phase 0, the windows, phases 1 and 2, and the stores, or the refusal: the state, the status without
faults, and the faults. -/
def State.loadResult (s : State) (j : Nat) (q : LoadReq) : State × Nat × List FaultRec :=
  let x := s.job j
  if !q.call.dmaOk then (s.loadFails j x, 0x0014, [])
  else
    let im := s.readImage q.place q.len q.shift q.compare
    match s.phase0 j im q.compare false with
    | some f => (s.loadFails j x, 0, [f])
    | none =>
      match s.allocNeeds j im.needs q.compare with
      | none => (s.loadFails j x, 0x0206, [])
      | some s =>
        match s.checkPlan (s.planOf j im q.compare false) im (s.job j).units q.compare with
        | f :: fs => (s.loadFails j x, 0, f :: fs)
        | [] =>
          let s := s.loadStores j im q.compare
          let s := if s.cap.job = some j then s.setProbes (probeList im.shift im.probes) else s
          let y := s.job j
          let n := (segsOf y.mask).length
          let reserve := if y.prev = .loaded then y.reserve.drop (4 * n) else y.reserve
          let s := s.setJob j { y with state := .loaded, load := none, image := some im, compare := q.compare
                                       len := im.jobLen, reserve := reserve, m := 0, e := 0 }
          (s.extendMr (8 + j / 8) (Config.sm3 (s.placeBytes q.place 0 0x50)), 0, [])

/-- The end of LOADING with the command's completion. -/
def State.loadEnd (s : State) (j : Nat) (q : LoadReq) : State :=
  let (s, status, faults) := s.loadResult j q
  if faults = [] then s.reply q.call 0x0301 status else s.reportFaults q.call 0x0301 q.report q.capacity faults

/-- LOADING_COMPLETE (R230, R244): a load in progress ends. -/
def execLoadingComplete (job : Nat) (s : State) : Host.Outcome State Fault Refusal :=
  if !s.fwUp then .next s else
  let x := s.job job
  match x.load with
  | some q => .next (if x.state = .loading then s.loadEnd job q else s)
  | none => .next s

/-! ### Preload (R234) -/

/-- The preload blocks of an image. -/
def Image.preloads (im : Image) : List Block := im.blocks.filter (fun b => b.type == 0x10 || b.type == 0x11)

/-- Some preload body differs from its digest (R234). -/
def State.preloadBad (s : State) (im : Image) : Bool :=
  im.preloads.any (fun b => Config.sm3 (s.placeBytes b.place b.off b.len) != b.digest)

/-- Data stores and OR0–OR7 of a cluster written from a PRELOAD_STATE body (R211, R234, R450). -/
def State.putState (s : State) (cl : Nat) (body : List Byte) : State :=
  let lo := cl * 131072
  let bits := (body.take 16384).zipIdx.foldl (fun (m : Sparse Bool) b =>
    (List.range 8).foldl (fun m i => Sparse.set false m (lo + 8 * b.2 + i) (b.1.getLsbD i)) m) s.fab.ds
  let ors := (List.range 8).foldl (fun (m : Sparse Dword) r =>
    Sparse.set 0 m (cl * 8 + r) (BitVec.ofNat 64 (bodyNum body (16384 + 8 * r) 8))) s.fab.ors
  { s with fab := { s.fab with ds := bits, ors := ors } }

/-- A cluster's data stores and OR0–OR7 in the PRELOAD_STATE layout (R211, R450). -/
def State.getState (s : State) (cl : Nat) : List Byte :=
  (List.range 16384).map (fun i => BitVec.ofNat 8 ((List.range 8).foldl (fun a b =>
    a + boolNat (Sparse.get false s.fab.ds (cl * 131072 + 8 * i + b)) * 2 ^ b) 0)) ++
  (List.range 8).flatMap (fun r => leBytes 8 (Sparse.get 0 s.fab.ors (cl * 8 + r)).toNat)

/-- One preload block applied to a copy `copy` of its cluster, read where the image that brought it lies (R234). -/
def State.applyPreload (s : State) (b : Block) (copy : Nat) : State :=
  let cl := b.seg * 64 + b.cl + 2048 * copy
  let body := s.placeBytes b.place b.off b.len
  if b.type = 0x11 then s.putState cl body
  else ((preloadRecords (b.len / 16 + 1) body).getD []).foldl (fun s r =>
    (r.2.2.zipIdx).foldl (fun s w => s.portStore .firmware (cl * 4 + r.1) (r.2.1 + w.2) w.1) s) s

/-- Preload blocks applied in order, in compare mode to both copies. -/
def State.applyPreloads (s : State) (bs : List Block) (compare : Bool) : State :=
  bs.foldl (fun s b => if compare then (s.applyPreload b 0).applyPreload b 1 else s.applyPreload b 0) s

/-! ### Region reload (R239–R241) -/

/-- A region image is refused with REGION_INVALID (R239). -/
def State.regionBad (s : State) (j : Nat) (im : Image) : Bool :=
  let x := s.job j
  im.mask &&& ~~~x.mask != 0 || im.mask == x.mask || im.mask == 0 || im.mask.getLsbD x.lead || im.jobLen != x.len

/-- The LINES block of a region image differs from the job's line configuration in use (R239). -/
def State.linesDiffer (s : State) (j : Nat) (im : Image) : Bool :=
  let lead := (s.job j).lead
  (im.lines.zipIdx).any (fun l =>
    s.reg (fabsAt lead (0x100 + 8 * l.2)) != BitVec.ofNat 32 l.1.1 || s.reg (fabsAt lead (0x104 + 8 * l.2)) != BitVec.ofNat 32 l.1.2)

/-- IMG_RELOAD (R239, R240, R274, R442, R447): the checks, and the choice of B1. -/
def execImgReload (c : Call) (job : Nat) (hbm shift : Bool) (address : BitVec 64) (len : Nat) (report : BitVec 64)
    (capacity boundaries : Nat) (s : State) : Host.Outcome State Fault Refusal :=
  let fields := decide (capacity ≤ 256) && aligned64 address.toNat && aligned64 report.toNat && decide (1 ≤ boundaries) &&
    decide (boundaries < 65536)
  .next (s.jobGate c 0x0302 job fields (fun s =>
    let x := s.job job
    if x.reload.isSome then s.reply c 0x0302 0x0015
    else if x.state ≠ .active ∨ x.replaying then s.reply c 0x0302 0x0203
    else if !bufFits c.ring report.toNat (32 * capacity) then s.reply c 0x0302 0x0017
    else if !c.dmaOk then s.reply c 0x0302 0x0014
    else
      let im := s.readImage ⟨hbm, s.callerFn c.ring, address.toNat⟩ len shift false
      if s.regionBad job im then s.reply c 0x0302 0x0207
      else match s.reserve job (segsOf im.mask) with
        | none => s.reply c 0x0302 0x0206
        | some s1 =>
          match s1.phase0 job im false true with
          | some f => s.reportFaults c 0x0302 report.toNat capacity [f]
          | none =>
            if s.linesDiffer job im then s.reply c 0x0302 0x0207
            else match s1.checkPlan (s1.planOf job im false true) im x.units x.compare with
              | f :: fs => s.reportFaults c 0x0302 report.toNat capacity (f :: fs)
              | [] =>
                let r : Reload := { mask := im.mask, image := im, b1 := x.m + boundaries + boolNat (x.e != 0), parked := false
                                    written := false, call := c, stores := s1.imageStores im false
                                    seqs := s1.imageSeqs im false, oldSeqs := [] }
                s1.setJob job { s1.job job with reload := some r }))

/-- The region's queues, operations and bits in flight are none once its stores are written. -/
def State.clearUnits (s : State) (segs : List Nat) : State :=
  segs.foldl (fun s g => { s with fab := { s.fab with
    queues := Sparse.clearRange s.fab.queues (g * 512) ((g + 1) * 512)
    pipe := Sparse.clearRange s.fab.pipe (g * 64) ((g + 1) * 64)
    inj := Sparse.clearRange s.fab.inj (g * 2048) ((g + 1) * 2048)
    taps := Sparse.clearRange s.fab.taps (g * 262144) ((g + 1) * 262144)
    cyc := Sparse.clearRange s.fab.cyc (g * 1024) ((g + 1) * 1024)
    flights := s.fab.flights.filter (fun x => x.cl / 64 != g) } }) s

/-- REGION_STORES_WRITTEN (R240): the parked region's stores are written, its data stores and operand registers zeroed, its
preload blocks applied. B2 is the next boundary. -/
def execRegionStoresWritten (job : Nat) (s : State) : Host.Outcome State Fault Refusal :=
  if !s.fwUp then .next s else
  let x := s.job job
  match x.reload with
  | some r =>
    if !r.parked || r.written then .next s
    else
      let segs := segsOf r.mask
      let old := segs.foldl (fun m g => Sparse.set ({} : Seq) m g (s.seq g)) []
      let s := { s with fab := { s.fab with cfg := replaceStores s.fab.cfg segs r.stores } }
      let s := segs.foldl (fun s g =>
        let q := Sparse.get ({} : Seq) r.seqs g
        s.setSeq g { q.restart with state := .idle, region := true, holdCount := (s.seq g).holdCount }) s
      let s := (s.zeroState segs).clearUnits segs
      let s := s.applyPreloads (r.image.preloads.filter (fun b => segs.contains b.seg)) false
      let s := segs.foldl State.setModes s
      -- B2: the next boundary, or the one that the job's packages agree on for its checkpoint (R260)
      let guarded := !([ProtState.off, .failed].contains x.prot.state) && !(s.peerLanes job).isEmpty
      let b2 := if guarded then s.ckptTarget job else 0
      let s := if guarded then s.requestCkpt job else s
      .next (s.setJob job { s.job job with reload := some { r with b2 := b2, written := true, oldSeqs := old } })
  | none => .next s

/-- A reload aborted (R241): the region's stores and sequencers as before, the new copy's space freed, the job ACTIVE, the
command completed with RELOAD_ABORTED. -/
def State.abortReload (s : State) (j : Nat) : State :=
  let x := s.job j
  match x.reload with
  | none => s
  | some r =>
    let segs := segsOf r.mask
    let old := segs.flatMap (fun g => Sparse.range s.fab.copy (cfgBase (g * 64)) (cfgBase (g * 64 + 64)))
    let s := if r.written then { s with fab := { s.fab with cfg := replaceStores s.fab.cfg segs old } } else s
    let lead := s.seq x.lead
    let s := segs.foldl (fun s g =>
      let q := if r.written then Sparse.get ({} : Seq) r.oldSeqs g else s.seq g
      s.setSeq g { q with region := false, state := if r.parked then lead.state else q.state, before := lead.before }) s
    let s := segs.foldl State.setModes s
    let n := (segsOf x.mask).length
    let y := s.job j
    let s := s.setJob j { y with reload := none, state := if y.state = .reloading then .active else y.state
                                 reserve := y.reserve.take (4 * n) }
    s.reply r.call 0x0302 0x0208

/-! ### Start (R132, R233–R237) -/

/-- The power estimate of R235 in µW for `n` segments at CLK_STEP.n = `k`. -/
def powerEstimate (n k : Nat) : Nat := 210000000 + n * (7168 * k + 2828125)

/-- A start is refused with POWER_BUDGET (R34, R235, R421). -/
def State.overBudget (s : State) (j : Nat) : Bool :=
  let held := (s.jobs.filter (fun e => e.2.live || e.1 == j)).foldl (fun a e => a + (segsOf e.2.mask).length) 0
  s.theham.high || decide (850000000 < powerEstimate held (s.fld (PageKind.clk.at 0x40) 9 0))

/-- The code of a declared lane in phase 3 (R132): LANE_LAT_MISMATCH, or LANE_DOWN of a lane that is not in its operating state. A
lane in fallback coding above 625 MHz counts as not in it (R296), and so does one with len_mismatch set (R299) or with a new
partner (R307). -/
def State.laneCode (s : State) (l : Nat × Nat) : Option Nat :=
  let n := l.1
  if s.lambda n ≠ l.2 then some 0x0330
  else if !s.carriesDesign n || s.flag (laneAt n 0x44) 4 || (s.lane n).changed then some 0x0331
  else none

/-- The one record of a fault in phase 3 (R132, R218, R219): it names the lane and the LANES block. -/
def State.phase3 (s : State) (j : Nat) (im : Image) : Option FaultRec :=
  im.lanes.findSome? (fun l => (s.laneCode l).map (fun code =>
    { code := code, phase := 3, cls := 0, job := j, seg := l.1, unit := 8, sub := l.1
      blk := ((findBlock im.blocks 0x09 0 0xFF).map (·.index)).getD 0 }))

/-- The refusal of a start for the lanes that the image declares (R132, R299, R328). -/
def State.laneFault (s : State) (j : Nat) (im : Image) : Option Nat :=
  im.lanes.findSome? (fun l =>
    let prog := s.lambda l.1
    match s.laneCode l with
    | some code => some code
    | none =>
      if !s.external j l.1 && !(decide (s.fld (laneAt l.1 0x48) 25 16 + 16 ≤ prog) && decide (prog ≤ 496)) then some 0x0903
      else none)

/-- The lanes of an image bound to its job (R299). -/
def State.bind (s : State) (j : Nat) (im : Image) : State :=
  im.lanes.foldl (fun s l =>
    let n := l.1
    let x := s.lane n
    ((s.setReg (laneAt n 0x50) (BitVec.ofNat 32 (im.jobLen + j * 2 ^ 15 + 2 ^ 31))).setFlag (laneAt n 0x44) 4 false).setLane n
      { x with words := [], elastic := [], latest := none, hudGot := false, huddle := {}, partner := s.lanePartner n
               episode := none, wordsLost := false, markerSeen := none, marker := none, rxOther := false
               line := { x.line with held := none } }) s

/-- A start that passed its checks (R233, R235, R237, R331): STARTING, with the bulk clear or the restraints. -/
def State.startJob (s : State) (j : Nat) (im : Image) (d1 d2 d3 lag ckLead : Nat) (pinGate : Bool) : State :=
  let x := s.job j
  let s := s.setJob j { x with state := .starting, d1 := d1, d2 := d2, d3 := d3, m := 0, e := 0, held := false, stHeld := false
                               stage := if x.bulk then 3 else 0, holdAt := none, nextHold := none, ue := false, lines := 0
                               block := 0, blocks := 0, lastBlk := false, timeoutUp := false, untilM := none, haltedBy := none
                               haltReq := none, laneDown := [], sweepM := [], outSig := 0, sigs := [], cmpDue := none
                               prot := { x.prot with requested := x.prot.requested.map (fun _ => 1) } }
  let s := s.setFld (hudAt j 0) 11 0 (lag + ckLead * 2 ^ 4 + boolNat pinGate * 2 ^ 11)
  let s := s.bind j im
  let s := s.setReg (hudAt j 4) (if (s.peerLanes j).isEmpty && !pinGate then 0 else 1)
  if x.bulk then { s with fab := { s.fab with clearing := s.fab.clearing ||| x.mask } } else s

/-- The code with which a start is refused (R235, R299). -/
def State.startFault (s : State) (j d1 d2 d3 : Nat) : Option Nat :=
  let x := s.job j
  match x.image with
  | some im =>
    if x.state ≠ .loaded then some 0x0203
    else if !x.bulk && (d1 == 0 || d2 == 0 || d3 == 0) then some 0x020A
    else if s.overBudget j then some 0x0209
    else s.laneFault j im
  | none => some 0x0203

/-- The fields of a start are in range (R448). -/
def runFields (d1 d2 d3 lag ckLead : Nat) : Bool :=
  decide (1 ≤ lag) && decide (lag < 16) && decide (2 ≤ ckLead) && decide (ckLead < 128) && decide (d1 < 65536) &&
    decide (d2 < 65536) && decide (d3 < 65536)

/-- A start refused: the command's status, and of a fault in phase 3 its one record, as a load returns its first (R218, R447;
DEDUCED, assumption 75). -/
def State.refuseStart (s : State) (c : Call) (j code : Nat) : State :=
  let found := (s.job j).image.bind (s.phase3 j)
  match found.filter (fun f => f.code == code) with
  | some f => s.complete c 0x0401 code 1 (recordBytes [f])
  | none => s.reply c 0x0401 code

/-- RUN_START (R235, R448). -/
def execRunStart (c : Call) (job d1 d2 d3 lag ckLead : Nat) (pinGate : Bool) (s : State) : Host.Outcome State Fault Refusal :=
  .next (s.jobGate c 0x0401 job (runFields d1 d2 d3 lag ckLead) (fun s =>
    match s.startFault job d1 d2 d3, (s.job job).image with
    | none, some im => (s.startJob job im d1 d2 d3 lag ckLead pinGate).await { call := c, op := 0x0401, job := job }
    | code, _ => s.refuseStart c job (code.getD 0x0203)))

/-- BULK_CLEAR_DONE (R233): the 2,048 steps of a bulk clear are over. -/
def execBulkClearDone (job : Nat) (s : State) : Host.Outcome State Fault Refusal :=
  let x := s.job job
  if x.state = .starting ∧ s.fab.clearing &&& x.mask ≠ 0 then
    let s := (s.clearSegs (segsOf x.mask))
    .next { s with fab := { s.fab with clearing := s.fab.clearing &&& ~~~x.mask } }
  else .next s

/-- A start whose preload fails its digest (R234, R244): the job is LOADED again, its restraints removed. -/
def State.startFails (s : State) (j : Nat) : State :=
  let s := s.unbind j
  let s := s.setJob j { s.job j with state := .loaded, haltReq := none }
  let s := s.finishJob j 0x0401 0x0303 []
  s.finishJob j 0x0402 0 (s.haltResult j)

/-- In compare mode, the contents of the job's units in octants 0–3 copied to the same offsets in octants 4–7 (R276). A unit whose place
there another job or firmware holds is not copied, which the spec does not say (DESIGN CHOICE, assumption 118). -/
def State.copyWindows (s : State) (j : Nat) : State :=
  let us := (s.job j).units
  let copied := us.filter (fun u => decide (u.1 < 4) && (us.contains (u.1 + 4, u.2) || s.unitFree (u.1 + 4) u.2))
  let keep := s.hbm.filter (fun e => !(decide (4 ≤ pcOf e.1 % 8) && copied.contains (pcOf e.1 % 8 - 4, e.1 / unitBytes)))
  let new := s.hbm.filter (fun e => copied.contains (pcOf e.1 % 8, e.1 / unitBytes))
  { s with hbm := new.foldl (fun m e => Sparse.set 0 m (e.1 + 2048) e.2) keep }

/-- Position 0 of the job's present design cycle comes (R109, R235, R261): it executes next, or hold blocks stand before it
until the huddle releases it. A RUN_UNTIL target has the job stand before it as in a pause (R449). Hold steps before position 0 when
the boundary is made already belong to the design cycle about to run, so that ST_HELD is 1 in the one after it: R104 speaks of
those that come before the boundary (DESIGN CHOICE, assumption 73). The ports whose doorbell is 0 take their ANN, which no pause lets
be written (R384, R398). -/
def State.enterZero (s : State) (j : Nat) : State :=
  let x := s.job j
  let s :=
    if x.untilM = some x.m then s.reachTarget j (fun _ => .pause)
    else
      let s := s.setActive j Seq.going
      if s.released j x.m then s.hudRelease j
      else
        let s := (s.enterHold j).hudWait j
        s.setJob j { s.job j with hudHold := true, waitSegs := [] }
  s.xpAnn j

/-- A halt asked for before the job ran stands before position 0 (R442). -/
def State.haltAtZero (s : State) (j : Nat) : State :=
  match (s.job j).haltReq with
  | none => s
  | some why =>
    let s := s.mapSeqs j (fun q => { q with before := q.state, state := .halted })
    let s := s.setJob j { s.job j with haltReq := none, haltedBy := some why, block := 0, lastBlk := false }
    s.finishJob j 0x0402 0 (s.haltResult j)

/-- The design-port bits and clocks of a job drive no source yet (R497). -/
def State.restPorts (s : State) (j : Nat) : State :=
  let mine := (List.range 64).foldl (fun (a : Nat) q =>
    a + boolNat (s.fld (gpioAt (0x100 + 4 * (q / 4))) 5 0 == j) * 2 ^ q) 0
  let clks := (List.range 4).foldl (fun (a : Nat) c => a + boolNat (s.fld (gpioAt (0x300 + 4 * c)) 5 0 == j) * 2 ^ c) 0
  let off := ~~~(BitVec.ofNat 64 mine)
  { s with pins := { s.pins with driven := s.pins.driven &&& off, beforeOk := s.pins.beforeOk &&& off
                                 dpClk := s.pins.dpClk &&& ~~~(BitVec.ofNat 4 clks) } }

/-- Steps 3 to 6 of a start (R234, R235): preload, initial values, sequencers running at m = 0, ACTIVE. -/
def State.enterRun (s : State) (j : Nat) (im : Image) : State :=
  let x := s.job j
  let segs := segsOf x.mask
  let s := s.clearUnits segs
  let s := s.applyPreloads im.preloads x.compare
  let s := if x.compare then s.copyWindows j else s
  let s := (im.lines.zipIdx).foldl (fun s l =>
    (s.setReg (fabsAt x.lead (0x100 + 8 * l.2)) (BitVec.ofNat 32 l.1.1)).setReg (fabsAt x.lead (0x104 + 8 * l.2))
      (BitVec.ofNat 32 l.1.2)) s
  let s := (s.xpStart j).restPorts j
  let s := segs.foldl (fun s g =>
    s.setSeq g { (s.seq g).restart with holdCount := 0, holdE := 0, holdCause := 0, holdBlocks := 0, region := false, state := .run }) s
  let s := s.setJob j { s.job j with state := .active }
  let s := (((s.updateLines j).hudWait j).enterZero j).haltAtZero j
  s.finishJob j 0x0401 0 [BitVec.ofNat 8 (boolNat x.bulk)]

/-- PRELOAD_COMPLETE (R234, R235, R244): the start's preload is read; it is applied and the job runs, or its digest fails. -/
def execPreloadComplete (job : Nat) (s : State) : Host.Outcome State Fault Refusal :=
  if !s.fwUp then .next s else
  let x := s.job job
  match x.image with
  | some im =>
    if x.state ≠ .starting ∨ s.fab.clearing &&& x.mask ≠ 0 then .next s
    else if s.preloadBad im then .next (s.startFails job)
    else .next (s.enterRun job im)
  | none => .next s

end Sys2Proof.Machine
end

