-- ==== Sys2Proof/Machine/Ckpt.lean ====
section
/-! DEFINITION. Checkpoints (R259–R264), the replay log's fill (R267), faults and their repair (R222, R251–R254), rollback and
restore (R270–R275), compare (R278, R279), and the checkpoint commands (R451, R452). -/

namespace Sys2Proof.Machine

/-! ### Retained checkpoints (R263, R264) -/

/-- KiB of run state in a segment: data stores and OR0–OR7, and the banks (R31, R261). -/
def segmentKib : Nat := 1028 + 8192

/-- The retained checkpoints' oldest design cycle. -/
def Prot.oldest (p : Prot) : Option Nat := (p.retained.head?).map (fun (c : CkptRec) => c.m)

/-- KiB that the store holds: a full copy at the oldest checkpoint, the later ones' blocks, and the undo records (R262, R263). -/
def Prot.used (p : Prot) (segs : Nat) : Nat :=
  let undo := (p.retained.map (fun (c : CkptRec) => c.undo.length)).sum
  let later := ((p.retained.drop 1).map (fun (c : CkptRec) => c.kib)).sum
  (if p.retained = [] then 0 else segs * segmentKib) + later + (undo + 1) / 2

/-- Records that no retained checkpoint needs leave the log; a line's last change stays (R265). -/
def Prot.trim (p : Prot) : Prot :=
  match p.oldest with
  | none => p
  | some m0 => { p with log := p.log.filter (fun i => match i with
      | .laneIn m _ _ _ _ => decide (m0 ≤ m)
      | .txn m _ _ _ => decide (m0 ≤ m)
      | .doorbell m _ _ => decide (m0 ≤ m)
      | .hold m _ _ => decide (m0 ≤ m)
      | .sig m _ => decide (m0 ≤ m)
      | .line _ _ _ => true) }

/-- The oldest retained checkpoints retired until the store has room for `kib` more: what is kept. -/
def Prot.makeRoom (p : Prot) (segs kib : Nat) : Nat → Prot
  | 0 => p
  | n + 1 =>
    if p.retained ≠ [] ∧ p.storeKib < p.used segs + kib then
      Prot.makeRoom { p with retained := p.retained.drop 1 } segs kib n
    else p

/-- The part of a table of `n` keys a segment that a job's segments hold. -/
def Job.part {α : Type} (x : Job) (m : Sparse α) (n : Nat) : Sparse α :=
  (segsOf x.mask).flatMap (fun g => Sparse.range m (g * n) ((g + 1) * n))

/-- A checkpoint of a job as it stands (R261, R265): run state, of which the banks' words are those that the engine has, lines, ST_HELD
and the words for design cycle m or later in its lanes' elastic buffers. -/
def State.snapshot (s : State) (j kib : Nat) (usable : Bool) (mb : Sparse StoredWord) : CkptRec :=
  let x := s.job j
  { m := x.m, ds := x.part s.fab.ds 8388608, ors := x.part s.fab.ors 512, mb := mb
    lines := x.lines, stHeld := x.stHeld
    carry := ((List.range 64).filter (fun n => s.laneBound n j)).map (fun n =>
      (n, (s.lane n).elastic.filter (fun w => decide (x.m * x.len ≤ w.due))))
    usable := usable, ns := s.flat, kib := kib, undo := [] }

/-- The engine copies a job's banks whole: the first checkpoint, and one with no retained checkpoint before it (R259, R263). -/
def Prot.full (p : Prot) : Bool := p.first || p.retained.isEmpty

/-- A bank word of a job lies in a 1 KiB block that the engine copies (R168, R261). -/
def State.copied (s : State) (j bank w : Nat) : Bool :=
  (s.job j).prot.full || (Sparse.get 0 s.fab.dirty bank).getLsbD (w / 128)

/-- The words of a bank that the engine's read of its copied blocks can find other than an error-free 0: those listed, and the one that
an injection is armed for (R167). -/
def State.engineWords (s : State) (j bank : Nat) : List Nat :=
  let listed := Sparse.range s.fab.mb (bank * 4096) (bank * 4096 + 4096)
  let r := (s.reg (fabcAt (bank / 4) 0x194)).toNat
  let i := bank * 4096 + natBits r 11 0
  let at_ := if natBit r 31 && natBits r 13 12 == bank % 4 then Sparse.insert listed i (Sparse.get 0 listed i) else listed
  (at_.map (fun e => e.1 % 4096)).filter (s.copied j bank)

/-- The requests and write-backs that wait at a job's banks go first (R160). -/
def State.settleBanks (s : State) (j : Nat) : State :=
  let mine := fun (bank : Nat) => (s.job j).mask.getLsbD (bank / 256)
  let s := s.dynDrain mine
  (s.fab.mbWb.filter (fun x => mine x.bank)).foldl State.mbWriteback s

/-- The engine reads the copied blocks of a job's banks through their dynamic ports (R154, R165, R261): the banks' words as the
checkpoint holds them, those of other blocks as the checkpoint before it does, and the state with what the reads found. A word that ends
in MB_UE is held as 0, the data of such a read (R163). The engine reads at the end of the copy (DESIGN CHOICE, assumption 81). -/
def State.engineCopy (s : State) (j : Nat) : Sparse StoredWord × State :=
  let x := s.job j
  let old := (((x.prot.retained.getLast?).map (fun (c : CkptRec) => c.mb)).getD []).filter (fun e =>
    !s.copied j (e.1 / 4096) (e.1 % 4096))
  let reads := (segsOf x.mask).flatMap (fun g => (List.range 256).flatMap (fun i =>
    (s.engineWords j (g * 256 + i)).map (fun w => (g * 256 + i, w))))
  reads.foldl (fun a r =>
    let f := a.2.dynFetch r.1 r.2
    (Sparse.set 0 a.1 (r.1 * 4096 + r.2) (secded72 f.1), f.2.2)) (old, s)

/-- 1 KiB blocks of a job's banks whose dirty bit is set (R168). -/
def State.dirtyBlocks (s : State) (j : Nat) : Nat :=
  (((segsOf (s.job j).mask).flatMap (fun g => Sparse.range s.fab.dirty (g * 256) ((g + 1) * 256))).map
    (fun e => (List.range 32).countP (fun i => e.2.getLsbD i))).sum

/-- The unlogged writes whose checkpoint is that of design cycle `m` are served: older checkpoints are retired (R268). -/
def Prot.dropBefore (p : Prot) (m : Nat) : Prot :=
  if p.dropAt.any (fun t => decide (t ≤ m)) then
    { p with retained := [], dropAt := p.dropAt.filter (fun t => decide (m < t)) }
  else p

/-- CKPT_COPY_COMPLETE (R261–R264, R268, R275): the copy is retained, the pause ends, and position 0 comes. A class 1 fault found in the
pause has it discarded: the job stands halted until its rollback (R264, R275). The announcement of a huddle's checkpoint stays in its
copies until the design cycle before it is the last completed no more (R329). A pause whose protection a reset has switched off ends
with nothing retained. -/
def execCkptCopyComplete (job : Nat) (pauseNs : BitVec 32) (s : State) : Host.Outcome State Fault Refusal :=
  let x := s.job job
  let onward := fun (s : State) => (s.mapSeqs job (fun q => if q.state = .pause then { q with state := .run } else q)).enterZero job
  if (s.seq x.lead).state ≠ .pause then .next s
  else if x.prot.state = .off then .next (onward s)
  else if x.prot.state ≠ .copying then .next s
  else if x.ue then .next (s.haltNow job .fault)
  else
    let s := s.settleBanks job
    let x := s.job job
    let p := x.prot
    let segs := segsOf x.mask
    let n := segs.length
    let kib := n * 1028 + (if p.full then n * 8192 else s.dirtyBlocks job)
    let pending := x.compare && x.cmpDue.isSome
    let copy := s.engineCopy job
    let rec_ := copy.2.snapshot job kib (!pending) copy.1
    let s := copy.2
    let s := { s with fab := { s.fab with
      dirty := segs.foldl (fun m g => Sparse.clearRange m (g * 256) ((g + 1) * 256)) s.fab.dirty } }
    let p := p.dropBefore x.m
    let q := p.makeRoom n kib p.retained.length
    let pressed := decide (q.retained.length < p.retained.length)
    let q := Prot.trim { q with retained := q.retained ++ [rec_], state := .armed, first := false, winDirty := []
                                requested := q.requested.filter (fun t => decide (x.m < t)) }
    let s := s.setJob job { s.job job with prot := q }
    let s := (s.setReg (ckptAt job 0x28) (BitVec.ofNat 32 kib)).setReg (ckptAt job 0x2C) pauseNs
    let s := if pressed then s.event job 0x0607 job [] else s
    let s := if pending then s else s.ckptServed job x.m
    .next (onward s)

/-- CKPT_RETIRE_AGE (R263): every checkpoint older than one that is more than 4,096 ms old is retired. -/
def execCkptRetireAge (job : Nat) (s : State) : Host.Outcome State Fault Refusal :=
  let x := s.job job
  let now := s.flat
  if !s.fwUp then .next s else
  let aged := fun (c : CkptRec) => decide (4096000000 < signedOf 64 (unsignedOf 64 ((now : Int) - c.ns)))
  let rec_ := x.prot.retained
  let keep := rec_.zipIdx.filter (fun c => !(rec_.drop (c.2 + 1)).any aged)
  .next (s.setJob job { x with prot := Prot.trim { x.prot with retained := keep.map (·.1) } })

/-- REPLAY_LOG_THRESHOLD (R267): the log's fill is shown; from 75 % a checkpoint is requested, and when the log is full the
oldest retained checkpoint is retired. -/
def execReplayLogThreshold (job fill : Nat) (s : State) : Host.Outcome State Fault Refusal :=
  if !s.fwUp then .next s else
  let x := s.job job
  if [ProtState.off, .failed].contains x.prot.state then .next s
  else
    let s := s.setFld (ckptAt job 4) 22 16 (min 100 fill)
    let s := if 75 ≤ fill then s.requestCkpt job else s
    if 100 ≤ fill ∧ x.prot.retained ≠ [] then
      let x := s.job job
      let s := s.setJob job { x with prot := Prot.trim { x.prot with retained := x.prot.retained.drop 1 } }
      .next (s.event job 0x0607 job [])
    else .next s

/-- CK_ANNOUNCE (R329): firmware of a job with peer lanes announces a requested checkpoint. -/
def execCkAnnounce (job : Nat) (s : State) : Host.Outcome State Fault Refusal :=
  if !s.fwUp then .next s else
  if [ProtState.off, .failed].contains (s.job job).prot.state ∨ s.peerLanes job = [] then .next s
  else .next (s.requestCkpt job)

/-- The checkpoint of the design cycle that an 8-bit `late` names, one that came too late somewhere, is discarded as partial (R264, R329),
also where its announcement has left the huddle copies: the copy in progress, the retained checkpoint, or the request that has not
been reached; the next is a requested one. Where none of them is of that design cycle nothing is discarded. -/
def State.discardCkpt (s : State) (j late : Nat) : State :=
  let x := s.job j
  let hit := fun (m : Nat) => m % 256 == late % 256 && decide (x.m ≤ m + 128)
  let s := if s.fld (hudAt j 4) 15 8 = late % 256 then s.setFlag (hudAt j 4) 6 false else s
  if x.prot.state = .copying ∧ hit x.m then
    let s := s.setJob j { x with prot := { x.prot with state := .armed, requested := none } }
    let s := s.mapSeqs j (fun q => if q.state = .pause then { q with state := .run } else q)
    (s.requestCkpt j).enterZero j
  else if x.prot.retained.any (fun c => hit c.m) || x.prot.requested.any hit then
    (s.setJob j { x with prot := { x.prot with retained := x.prot.retained.filter (fun c => !hit c.m)
                                               requested := x.prot.requested.filter (fun m => !hit m) } }).requestCkpt j
  else s

/-- What a firmware-to-firmware frame means is firmware's own encoding (R297): for a lane of the captured job a remote trigger of
some design cycle (R345), or word of a CK_LATE, on which the checkpoint of the design cycle it names is given up (R329): a free
choice. -/
def State.fwFrame (s : State) (n : Nat) : State :=
  let k := s.free
  let s := { s with free := k + 1 }
  match s.laneJob n with
  | some j =>
    if Config.freeBit k && s.cap.job == some j then { s with cap := { s.cap with remote := s.cap.remote ++ [Config.freeNat k] } }
    else if !Config.freeBit k && (s.job j).live && !s.external j n then s.discardCkpt j (Config.freeNat k)
    else s
  | none => s

/-- A control frame's kind and body length (R297). -/
def RxControl.kind (f : RxControl) : Nat := (f.bytes.getD 0 0).toNat

/-- A control frame's body length (R297). -/
def RxControl.length (f : RxControl) : Nat := leNat ((f.bytes.drop 2).take 2)

/-- A control frame is whole: no block was lost, its kind is known, and its blocks are those of its length (R297). -/
def RxControl.whole (f : RxControl) : Bool :=
  !f.lost && (f.kind == 1 || f.kind == 2) && decide (1 ≤ f.length) && decide (f.length ≤ 504) &&
    f.bytes.length == (f.length + 39) / 32 * 32

/-- CONTROL_FRAME_RX (R297, R322, R323): the control frame at place `frame` among those received reaches firmware with its receive
timestamp, or waits while firmware is in reset (R26); one with a lost block, a reserved kind or a bad length is discarded and
counted. -/
def execControlFrameRx (lane frame : Nat) (s : State) : Host.Outcome State Fault Refusal :=
  let l := s.lane lane
  match l.line.ctlIn[frame]? with
  | none => .next s
  | some f =>
    if f.whole && !s.fwUp then .next s
    else
    let s := s.setLane lane { l with line := { l.line with ctlIn := l.line.ctlIn.eraseIdx frame } }
    if !f.whole then .next (s.bump (laneAt lane 0x6C) 31 16 1)
    else .next (if f.kind = 2 then s.fwFrame lane else s.ptpReceive lane ((f.bytes.drop 8).take f.length) f.stamp)

/-! ### FAILED (R245, R275) -/

/-- The job's run ends as failed (R245): the commands that wait complete, the sequencers stand. CKPT_OFF is reported as an event (R281);
the other codes are where they are found. -/
def State.jobFails (s : State) (j code : Nat) : State :=
  let s := s.setJob j { s.job j with failed := true, untilM := none }
  let s := if code = 0x0601 then s.event j code j [] else s
  let s := s.finishJob j 0x0605 code []
  s.finish (fun w => w.job == j && [0x0603, 0x0405].contains w.op) 0x0016 0 (fun _ => [])

/-- Protection enters FAILED with a code (R245, R273, R275): a region in reload first returns, the job stands HALTED. -/
def State.protFails (s : State) (j code : Nat) : State :=
  let s := s.abortReload j
  let x := s.job j
  let s := s.setJob j { x with prot := { x.prot with state := .failed, copying := none, replay := none } }
  let s :=
    if s.stopped j then
      let s := s.mapSeqs j (fun q => if q.state = .stopped then { q with state := .halted } else q)
      s.setJob j { s.job j with haltedBy := mergeHalt (s.job j).haltedBy .fault }
    else s.requestHalt j .fault
  (s.event j code j []).jobFails j code

/-! ### Repair (R222, R253, R254) -/

/-- The store that a block type fills, coded as SCRUB_POS.store (R282). -/
def storeOfType (type : Nat) : Option Nat := if 1 ≤ type ∧ type ≤ 4 then some (type - 1) else none

/-- Bytes of a cluster's store rewritten from the verified copy (R214, R253). -/
def State.repairBytes (s : State) (lo n : Nat) : State :=
  { s with fab := { s.fab with cfg := Sparse.putBytes s.fab.cfg lo (Sparse.bytes s.fab.copy lo n) } }

/-- The piece that a SIG_MISMATCH names: its cluster, store, first byte and length. After a region reload the block table holds the
indices of two images, so the block is the one of its index in the cluster that the record names (R222, R224). -/
def State.pieceOf (s : State) (j : Nat) (f : FaultRec) : Option (Nat × Nat × Nat × Nat) :=
  match (s.job j).image with
  | some im =>
    let seg := if (s.job j).compare then f.seg % 32 else f.seg
    match im.blocks.find? (fun b => b.index == f.blk && b.seg == seg && b.cl == f.cl) with
    | some b => (storeOfType b.type).map (fun st => (f.seg * 64 + f.cl, st, f.w6, min 1024 (storeLen st - f.w6)))
    | none => none
  | none => none

/-- Firmware rewrites the store that a fault names from the verified copy (R222, R253). -/
def State.repair (s : State) (j : Nat) (f : FaultRec) : State :=
  let cl := f.seg * 64 + f.cl
  let entry := fun (p : Nat × Nat) (n : Nat) => (s.repairBytes p.1 n).repairBytes p.2 1
  match f.code with
  | 0x380 => entry (istoreAt cl f.bp f.k) 12
  | 0x381 => entry (cstoreAt cl f.k) 8
  | 0x382 => entry (Sys2Proof.Machine.slotAt cl f.k f.sub) 8
  | 0x387 =>
    match s.pieceOf j f with
    | some (c, st, off, n) => s.repairBytes (cfgBase c + storeBase st + off) n
    | none => s
  | _ => s

/-- The entry of a store that a byte of its body belongs to (R211). -/
def entryOf (store off : Nat) : Nat :=
  match store with
  | 0 => let r := off % 13312; if r < 12288 then r / 12 else r - 12288
  | 1 => if off < 8192 then off / 8 else off - 8192
  | 2 => 16 + off / 8
  | _ => if off < 131072 then off / 128 else (off - 131072) / 16

/-- An executed instruction of a cluster names a function-library entry (R63, R254). -/
def State.namesFn (s : State) (cl fn : Nat) : Bool :=
  (List.range 64).any (fun bp => (List.range (s.seq (cl / 64)).cycLen).any (fun k =>
    let w := iword (Sparse.num s.fab.copy (istoreAt cl bp k).1 12)
    (w.opc == 1 || w.opc == 2) && w.fn == fn))

/-- A SIG_MISMATCH asks for a rollback (R254): the corrected read did not match, and some byte that differs lies in an entry that
the job executes or names. -/
def State.needsRollback (s : State) (j : Nat) (f : FaultRec) : Bool :=
  match s.pieceOf j f with
  | some (cl, st, off, n) =>
    let lo := cfgBase cl + storeBase st
    let bad := (List.range n).filter (fun i =>
      Sparse.get 0 s.fab.cfg (lo + off + i) != Sparse.get 0 s.fab.copy (lo + off + i))
    let harmless := fun (i : Nat) =>
      let e := entryOf st (off + i)
      if st = 2 then !s.namesFn cl e else decide ((s.seq f.seg).cycLen ≤ e)
    !f.w7.testBit 0 && !(bad.all harmless)
  | none => false

/-! ### Rollback (R270–R273) -/

/-- The newest retained usable checkpoint no later than a design cycle (R254, R264, R270); none after an unlogged write (R268). -/
def Job.target (x : Job) (limit : Nat) : Option Nat :=
  if x.prot.unlogged then none
  else ((x.prot.retained.filter (fun c => c.usable && decide (c.m ≤ limit))).getLast?).map (·.m)

/-- Two faults lie at the same store location, pseudo-channel or link, or are compares of the same design cycle (R273, R279). -/
def FaultRec.samePlace (a b : FaultRec) : Bool :=
  let store := a.seg == b.seg && a.cl == b.cl && a.bp == b.bp && a.unit == b.unit && a.sub == b.sub
  a.code == b.code && match a.code with
    | 0x385 => a.extra == b.extra
    | 0x386 | 0x389 | 0x905 => a.sub == b.sub
    | 0x387 => store && a.blk == b.blk && a.w6 == b.w6
    | 0x388 => a.m == b.m
    | 0x383 | 0x384 => store && a.place == b.place
    | _ => store && a.k == b.k

/-- An external lane of the job carried design payload in a design cycle (R271). -/
def State.exposed (s : State) (j m : Nat) : Bool :=
  (segsOf (s.job j).mask).any (fun n => s.laneBound n j && s.external j n && match (s.lane n).paid with
    | some p => decide (p.1 ≤ m) && decide (m ≤ p.2)
    | none => false)

/-- A rollback of a job begins, joins one that has not begun to restore, or starts anew (R270, R273): `t` is its target, `mF` the
design cycle of the fault. With no target the protection fails with REPLAY_LOST; with too many attempts at one place, with
REPLAY_EXHAUSTED. -/
def State.beginRollback (s : State) (j : Nat) (f : FaultRec) (mF : Nat) (t : Option Nat) (asked : Bool) : State :=
  let x := s.job j
  let p := x.prot
  match p.state with
  | .off => s
  | .failed => s
  | _ =>
    match t with
    | none => s.protFails j 0x0604
    | some mC =>
      let limit := s.fld (ckptAt j 0) 10 8
      let stands := x.ue && (s.seq x.lead).state != .pause
      match p.replay with
      | some r =>
        let far := { r with mC := min r.mC mC, mF := max r.mF mF, extExposed := r.extExposed || s.exposed j (max r.mF mF) }
        if p.state = .rollback ∧ ¬ r.restored then s.setJob j { x with prot := { p with replay := some far } }
        else
          let n := p.attempts + 1
          if f.samePlace r.fault ∧ limit < n then s.protFails j 0x0603
          else
            let s := s.setJob j { x with prot := { p with
              state := .rollback, attempts := n, replay := some { far with fault := f, restored := false } } }
            if stands then s else s.requestHalt j .fault
      | none =>
        let before := match p.recent with
          | some g => if f.samePlace g.1 then g.2 else 0
          | none => 0
        if before ≠ 0 ∧ limit < before + 1 then s.protFails j 0x0603
        else
          let asks := if p.state = .copying then some (match p.requested with
              | some a => min a x.m
              | none => x.m)
            else p.requested
          let r : Replay := { mC := mC, mF := mF, fault := f, asked := asked, restored := false, extExposed := s.exposed j mF }
          let s := s.setJob j { x with prot := { p with state := .rollback, copying := none, requested := asks
                                                        attempts := before + 1, replay := some r } }
          if stands then s else s.requestHalt j .fault

/-- Firmware rewrites a mismatching piece and reads it back, at most three times (R253): whether a rewrite held, which only the store
tells (free bits, assumption 85), and the state. -/
def State.rewritePiece (s : State) (j : Nat) (f : FaultRec) : Bool × State :=
  let k := s.free
  let s := { s with free := k + 3 }
  if Config.freeBit k || Config.freeBit (k + 1) || Config.freeBit (k + 2) then (true, s.repair j f) else (false, s)

/-- One fault of a job handled (R222, R241, R251, R254, R280): whether it stays pending, and the state. A class 1 fault aborts a reload
once its region is parked, in RELOADING. A piece that no rewrite mends is a hard fault (R253, R273). -/
def State.handleFault (s : State) (j : Nat) (f : FaultRec) : Bool × State :=
  let x := s.job j
  match f.cls with
  | 1 =>
    let s := s.repair j f
    let s := if x.state = .reloading then s.abortReload j else s
    let x := s.job j
    if !x.live then (false, s)
    else if x.prot.state = .off then (false, s.jobFails j 0x0601)
    else (false, s.beginRollback j f f.m (x.target f.m) false)
  | 2 =>
    let roll := s.needsRollback j f
    let r := s.rewritePiece j f
    let s := r.2
    if !r.1 then (false, if !x.live || [ProtState.off, .failed].contains x.prot.state then s else s.protFails j 0x0603)
    else if roll && x.live then (false, s.beginRollback j f x.m (x.target f.since) false) else (false, s)
  | 3 =>
    if f.code = 0x389 then
      let s := if x.laneDown.contains f.sub then s
        else (s.setJob j { x with laneDown := x.laneDown ++ [f.sub] }).requestHalt j .fault
      if (s.lane f.sub).state = .operational then
        let x := s.job j
        (false, if x.prot.state = .off then s else s.beginRollback j f f.m (x.target f.m) false)
      else (true, s)
    else (false, s)
  | _ => (false, s)

/-- FAULT_HANDLING_START (R222, R251): firmware handles the job's faults: stores are repaired from the verified copy, and a
rollback begins, joins one, or is impossible. A LAT_OVER waits until its lane operates again (R280). -/
def execFaultHandlingStart (job : Nat) (s : State) : Host.Outcome State Fault Refusal :=
  if !s.fwUp then .next s else
  let fs := (s.job job).faults
  let s := s.setJob job { s.job job with faults := [] }
  .next (fs.foldl (fun s f =>
    let r := s.handleFault job f
    let s := r.2
    if r.1 then s.setJob job { s.job job with faults := (s.job job).faults ++ [f] } else s) s)

/-- The STEPCLK PLLs of a job's dies are locked (R26, R504). -/
def State.stepLocked (s : State) (j : Nat) : Bool :=
  (segsOf (s.job j).mask).all (fun g => s.flag (PageKind.clk.at 0x44) (dieOf g))

/-- Checkpoints newer than a target are retired, their undo records joined to the target's (R262, R270). -/
def Prot.retireNewer (p : Prot) (mC : Nat) : Prot :=
  let newer := p.retained.filter (fun c => decide (mC < c.m))
  let undo := newer.reverse.flatMap (fun (c : CkptRec) => c.undo)
  let keep := p.retained.filter (fun c => decide (c.m ≤ mC))
  { p with retained := keep.map (fun c => if c.m = mC then { c with undo := undo ++ c.undo } else c) }

/-- The replay marker asked for on every peer lane (R272, R298): three consecutive frames. -/
def State.sendMarkers (s : State) (j mC attempts : Nat) : State :=
  (s.peerLanes j).foldl (fun s n => s.setLane n { s.lane n with marker := some (mC, attempts, 3) }) s

/-- ROLLBACK_START (R270, R272, R330): the restore starts. Firmware has handled the faults found so far, and the job stands with its
PLLs locked. -/
def execRollbackStart (job : Nat) (s : State) : Host.Outcome State Fault Refusal :=
  if !s.fwUp then .next s else
  let x := s.job job
  match x.prot.replay with
  | none => .next s
  | some r =>
    if x.prot.state ≠ .rollback ∨ r.restored ∨ ¬ s.standing job ∨ ¬ s.stepLocked job ∨ x.faults.any (fun f => f.cls ≤ 2) then .next s
    else
      let p := Prot.retireNewer { x.prot with replay := some { r with restored := true } } r.mC
      let s := s.setJob job { x with prot := p }
      let h := hudAt job 4
      let s := if s.fld h 2 0 = 0 then s else (s.setFld h 5 3 (s.epoch job + 1)).setFld h 2 0 2
      .next (if r.fault.code ≠ 0 ∨ r.asked then s.sendMarkers job r.mC p.attempts else s)

/-- The run state of a checkpoint written back (R270): data stores, operand registers, banks, and the HBM runs of the undo log,
newest first. The engine writes the banks through their dynamic ports, whose requests and write-backs have gone before
(`State.settleBanks`; R154, R160); its writes set no dirty bit (R168). -/
def State.restoreState (s : State) (segs : List Nat) (c : CkptRec) : State :=
  let put := fun {α : Type} [DecidableEq α] (d : α) (m part : Sparse α) (n : Nat) =>
    (part.filter (fun e => segs.contains (e.1 / n))).foldl (fun m (e : Nat × α) => Sparse.set d m e.1 e.2)
      (segs.foldl (fun m g => Sparse.clearRange m (g * n) ((g + 1) * n)) m)
  { s with
    fab := { s.fab with ds := put false s.fab.ds c.ds 8388608, ors := put 0 s.fab.ors c.ors 512
                        mb := put 0 s.fab.mb c.mb 1048576 }
    hbm := c.undo.foldl (fun (m : Sparse Byte) (u : Nat × List Byte) => m.putBytes u.1 u.2) s.hbm }

/-- The words of an external lane in a replay log from a design cycle on (R265, R270). -/
def loggedWords (log : List LogItem) (n len mC : Nat) : List ElWord :=
  log.filterMap (fun i => match i with
    | .laneIn m lane e w p => if lane = n ∧ mC ≤ m then some ⟨m * len + e, w, p⟩ else none
    | _ => none)

/-- The elastic buffers at the start of a re-execution (R265, R270): an external lane's words come from the log, a peer lane's from
the carry-over. -/
def State.restoreLanes (s : State) (j : Nat) (c : CkptRec) : State :=
  let x := s.job j
  ((List.range 64).filter (fun n => s.laneBound n j)).foldl (fun s n =>
    let l := s.lane n
    let l := { l with episode := none, wordsLost := false }
    if s.external j n then
      let old := loggedWords x.prot.log n x.len c.m
      s.setLane n { l with elastic := old ++ l.elastic.filter (fun w => !old.any (fun o => o.due == w.due)) }
    else
      let ws := ((c.carry.find? (fun k => k.1 == n)).map (·.2)).getD []
      let last := ws.foldl (fun (a : Option Nat) (w : ElWord) => match a with
        | some v => some (max v w.due)
        | none => some w.due) none
      s.setLane n { l with words := [], elastic := ws, latest := last, hudGot := false }) s

/-- The segments of a job's region that is parked between B1 and B2 (R240). -/
def Job.parkedMask (x : Job) : BitVec 64 :=
  match x.reload with
  | some r => if r.parked then r.mask else 0
  | none => 0

/-- A job restored to a checkpoint begins its re-execution (R109, R270, R274, R330, R331): position 0 of m_c comes, or the job stands
before it where run control, the whistle, a package halt or a requested replay in mode 1 has it stand, and goes on as from a pause. A
region under reload stays parked and as it is (R240). The design ports of a compare job hold the values of m_f − 1 (R270,
R278). -/
def State.reexecute (s : State) (j : Nat) (c : CkptRec) (r : Replay) : State :=
  let x := s.job j
  let segs := segsOf (x.mask &&& ~~~x.parkedMask)
  let taps := s.fab.taps
  let s := ((s.settleBanks j).restoreState segs c).clearUnits segs
  let s := { s with fab := { s.fab with taps := taps, staged := s.fab.staged.filter (fun u => !x.hasCluster (u.1 / 128)) } }
  let s := (s.restoreLanes j c).xpRewind j r.mF
  let p := s.pins
  let s := if x.compare && decide (r.mF < x.m) then { s with pins := { p with before := p.samples, beforeOk := p.driven } } else s
  let s := segs.foldl (fun s g => s.setSeq g { (s.seq g).restart with state := .run, before := .run }) s
  let log := x.prot.log.filter (fun i => match i with
    | .hold m _ _ => decide (m < r.mF)
    | _ => true)
  let s := s.setJob j { s.job j with
    m := c.m, e := 0, lines := c.lines, stHeld := c.stHeld, held := false, stage := x.stageAt c.m, ue := false, holdAt := none
    nextHold := none, block := 0, blocks := 0, lastBlk := false, waitSegs := [], hudHold := false, gate := false, timeoutUp := false
    outSig := 0, sigs := [], cmpDue := none, laneDown := []
    prot := { x.prot with state := .reexec, winDirty := [], log := log
                          retained := x.prot.retained.map (fun k => if k.m = c.m then { k with undo := [] } else k) } }
  let examine := s.theham.waiting.any (fun w => w.job == j && w.op == 0x0605 && w.arg == 1)
  let x := s.job j
  let why := (match x.haltReq with
    | some w => mergeHalt x.haltedBy w
    | none => x.haltedBy).filter (fun h => h != HaltWhy.fault)
  let why := if examine && why.isNone then some .command else why
  let why := if s.pkgHalt && why.isNone then some .pkg else why
  match why with
  | none => (s.setJob j { x with haltReq := none, haltedBy := none }).enterZero j
  | some w =>
    let s := s.setActive j (fun q => { q with before := .pause, state := .halted })
    let s := s.setJob j { x with haltReq := none, haltedBy := some w }
    let s := s.finishJob j 0x0402 0 (s.haltResult j)
    if examine then s.finish (fun w => w.job == j && w.op == 0x0605 && w.arg == 1) 0 0 (fun _ => leBytes 8 r.mF) else s

/-- RESTORE_COMPLETE (R270, R273): the run state of m_c is back and re-execution starts; a corrupt block makes the next older
checkpoint the target, and a segment or pseudo-channel out of service ends the protection. -/
def execRestoreComplete (job : Nat) (corrupt : Bool) (s : State) : Host.Outcome State Fault Refusal :=
  if !s.fwUp then .next s else
  let x := s.job job
  match x.prot.replay with
  | none => .next s
  | some r =>
    if x.prot.state ≠ .rollback ∨ ¬ r.restored then .next s
    else if (segsOf x.mask).any s.segDown then .next (s.protFails job 0x0205)
    else if x.windows.any (fun w => !s.octantOk w.1) then .next (s.protFails job 0x032D)
    else match x.prot.retained.find? (fun c => c.m == r.mC) with
      | none => .next (s.protFails job 0x0604)
      | some c =>
        if corrupt then
          let s := s.event job 0x0606 job []
          let older := x.prot.retained.filter (fun k => decide (k.m < c.m))
          match older.getLast? with
          | none => .next (s.protFails job 0x0604)
          | some o =>
            let kept := older.map (fun k => if k.m = o.m then { k with undo := c.undo ++ k.undo } else k)
            let s := s.setJob job { x with prot := { x.prot with retained := kept, replay := some { r with mC := o.m } } }
            .next (if r.fault.code ≠ 0 ∨ r.asked then s.sendMarkers job o.m x.prot.attempts else s)
        else .next (s.reexecute job c r)

/-- REPLAY_MARKER_RX (R272, R298): the first copy of a marker on a peer lane rolls the job back to the m_c it names. -/
def execReplayMarkerRx (lane : Nat) (m : BitVec 64) (attempt : BitVec 8) (s : State) : Host.Outcome State Fault Refusal :=
  match s.laneJob lane with
  | none => .next s
  | some j =>
    let x := s.job j
    let peers := s.peerLanes j
    let key := (m.toNat, attempt.toNat)
    if !peers.contains lane || !x.live || (s.lane lane).state != .operational ||
        peers.any (fun n => (s.lane n).markerSeen == some key) then .next s
    else
      let s := s.setLane lane { s.lane lane with markerSeen := some key }
      let t := if x.prot.unlogged then none
        else (x.prot.retained.find? (fun c => c.m == m.toNat)).map (fun (c : CkptRec) => c.m)
      .next (s.beginRollback j { code := 0, phase := 4, cls := 0, job := j, m := x.m, ns := s.flat } x.m t false)

/-! ### Compare (R278, R279) -/

/-- COMPARE_SIGNATURES (R264, R278, R279): the compare that is due is made. -/
def execCompareSignatures (job : Nat) (s : State) : Host.Outcome State Fault Refusal := .next (s.compareNow job)

/-! ### Commands (R451, R452) -/

/-- GiB. -/
def gib : Nat := 1073741824

/-- The store's GiB: as asked for, or four times the job's run state, twice that in compare mode, rounded up (R451). -/
def Job.storeGib (x : Job) (gibs : Nat) : Nat :=
  if gibs = 0 then
    let kib := 4 * (segsOf x.mask).length * segmentKib * (if x.compare then 2 else 1)
    (kib + 1048575) / 1048576
  else gibs

/-- Protection switched on for a job (R259, R275): the store and the log allocated; `none` where HBM has no space. -/
def State.protOn (s : State) (j logGib storeGib : Nat) : Option State :=
  let x := s.job j
  let n := x.storeGib storeGib
  match s.allocHbm ((logGib + n) * gib) (ckptUser j) with
  | none => none
  | some (_, s) => some ((s.setJob j { x with prot := { state := .armed, storeKib := n * 1048576 } }).setFlag (ckptAt j 0) 0 true)

/-- CKPT_ENABLE (R259, R269, R451). -/
def execCkptEnable (c : Call) (job intervalLog2 replayLimit logGib storeGib : Nat) (ext : BitVec 64) (s : State) :
    Host.Outcome State Fault Refusal :=
  let fields := decide (10 ≤ intervalLog2) && decide (intervalLog2 ≤ 32) && decide (1 ≤ replayLimit) && decide (replayLimit ≤ 7) &&
    decide (1 ≤ logGib) && decide (logGib ≤ 64) && decide (storeGib ≤ 64)
  .next (s.jobGate c 0x0601 job fields (fun s =>
    let x := s.job job
    if ! [JobState.loaded, .starting, .active].contains x.state then s.reply c 0x0601 0x0203
    else if x.prot.state ≠ .off then s.reply c 0x0601 0x0015
    else match s.protOn job logGib storeGib with
      | none => s.reply c 0x0601 0x0206
      | some s =>
        let s := s.setFld (ckptAt job 0) 6 1 intervalLog2
        let s := (s.setFld (ckptAt job 0) 10 8 replayLimit).setFld (ckptAt job 0) 22 16 logGib
        let s := s.setReg64 (ckptAt job 0x20) ext.toNat
        s.complete c 0x0601 0 0 (leBytes 4 (x.storeGib storeGib * 1024))))

/-- Protection switched off by command (R245, R275): a pause ends, a rollback that has not restored leaves the job failed, the
commands that wait for protection are aborted. -/
def State.protDisable (s : State) (j : Nat) : State :=
  let x := s.job j
  let lost := x.prot.state == .rollback && x.ue
  let s := s.protOff j
  let s := s.finish (fun w => w.job == j && [0x0603, 0x0605].contains w.op) 0x0016 0 (fun _ => [])
  let s := if lost then s.jobFails j 0x0016 else s
  if (s.seq x.lead).state = .pause then
    (s.mapSeqs j (fun q => if q.state = .pause then { q with state := .run } else q)).enterZero j
  else s

/-- CKPT_DISABLE (R275, R451). -/
def execCkptDisable (c : Call) (job : Nat) (s : State) : Host.Outcome State Fault Refusal :=
  .next (s.jobGate c 0x0602 job true (fun s =>
    if (s.job job).prot.state = .off then s.reply c 0x0602 0 else (s.protDisable job).reply c 0x0602 0))

/-- A command of the checkpoint group refused with one of the codes that are reported as events too (R281). -/
def State.refuseCkpt (s : State) (c : Call) (op job code : Nat) : State := (s.event job code job []).reply c op code

/-- CKPT_REQUEST (R260, R442, R451): it completes when the checkpoint is usable, with that of an earlier request that waits. -/
def execCkptRequest (c : Call) (job : Nat) (s : State) : Host.Outcome State Fault Refusal :=
  .next (s.jobGate c 0x0603 job true (fun s =>
    let x := s.job job
    if x.prot.state = .off then s.refuseCkpt c 0x0603 job 0x0601
    else if x.failed ∨ x.prot.state = .failed then s.reply c 0x0603 0x0015
    else match s.theham.waiting.find? (fun w => w.op == 0x0603 && w.job == job) with
      | some w => s.await { call := c, op := 0x0603, job := job, arg := w.arg }
      | none => (s.requestCkpt job).await { call := c, op := 0x0603, job := job, arg := if x.live then x.m else 0 }))

/-- CKPT_LIST (R451). -/
def execCkptList (c : Call) (job : Nat) (buffer : BitVec 64) (capacity : Nat) (s : State) : Host.Outcome State Fault Refusal :=
  .next (s.jobGate c 0x0604 job (aligned64 buffer.toNat) (fun s =>
    let x := s.job job
    if x.prot.state = .off then s.refuseCkpt c 0x0604 job 0x0601
    else if !bufFits c.ring buffer.toNat (8 * capacity) then s.reply c 0x0604 0x0017
    else
      let ms := x.prot.retained.map (fun (k : CkptRec) => k.m)
      s.answer c 0x0604 buffer.toNat ((ms.take capacity).flatMap (leBytes 8)) ms.length []))

/-- CKPT_REPLAY (R452): a rollback requested by host software. In mode 0 the job re-executes at once, whatever had halted it, unless the
package halt, the whistle or a STEPCLK PLL out of lock still has it stand (R444, R467). -/
def execCkptReplay (c : Call) (job mode : Nat) (target : BitVec 64) (s : State) : Host.Outcome State Fault Refusal :=
  .next (s.jobGate c 0x0605 job (decide (mode < 2)) (fun s =>
    let x := s.job job
    let halted := x.haltedBy.isSome && (s.seq x.lead).state == .halted
    if x.prot.state = .off then s.refuseCkpt c 0x0605 job 0x0601
    else if x.failed ∨ x.prot.state ≠ .armed ∨ ¬ halted then s.reply c 0x0605 0x0015
    else if x.prot.unlogged ∨ ¬ x.prot.retained.any (fun k => k.usable && k.m == target.toNat) then s.refuseCkpt c 0x0605 job 0x0604
    else
      let blocked := s.pkgHalt || s.flag whistleReg 0 || s.fld (PageKind.clk.at 0x44) 3 0 != 15
      let s := s.await { call := c, op := 0x0605, job := job, arg := mode }
      let s := s.setJob job { x with haltedBy := if blocked then x.haltedBy else some .fault }
      s.beginRollback job { code := 0, phase := 4, cls := 0, job := job, m := x.m, ns := s.flat } x.m (some target.toNat) true))

end Sys2Proof.Machine
end

