-- ==== Sys2Proof/Machine/Scrub.lean ====
section
/-! DEFINITION. The scrubber (R252–R258), the patrol of model memory (R166, R255) and the poll of the error counters (R250). -/

namespace Sys2Proof.Machine

/-- BAR0 offset of a SCRUB register. -/
def scrubAt (off : Nat) : Nat := PageKind.scrub.at off

/-- The scrubber works: its page is enabled, its domain on, it has not stopped and is not frozen (R36, R257, R469). -/
def State.scrubs (s : State) : Bool :=
  s.pgEnabled 0x130 && s.domainOn 76 && !s.flag (scrubAt 0x44) 2 && !(s.page 0x130).frozen

/-! ### The sweep (R252, R256) -/

/-- A segment's stores are swept: its job is LOADED, STARTING, ACTIVE or RELOADING, it lies in no region between B1 and B2, and it
does not wait for the next sweep (R256). -/
def State.swept (s : State) (g : Nat) : Bool :=
  match s.jobOfSeg g with
  | some j => [JobState.loaded, .starting, .active, .reloading].contains (s.job j).state && !(s.seq g).region &&
      !s.scrub.skip.getLsbD g
  | none => false

/-- The first piece of the first swept segment from `g` on, as SCRUB_POS. -/
def State.sweepFrom (s : State) (g : Nat) : Option Nat := (List.range 64).find? (fun i => decide (g ≤ i) && s.swept i)

/-- SCRUB_POS of a piece (R282). -/
def scrubPos (g cl store piece : Nat) : Nat := g + cl * 2 ^ 6 + store * 2 ^ 12 + piece * 2 ^ 14

/-- The 1 KiB pieces of a store's body (R214). -/
def piecesOf (store : Nat) : Nat := (storeLen store + 1023) / 1024

/-- A sweep starts (R252, R254, R282): staged fields apply, each job's m is recorded, and the position is the first piece. A sweep
with nothing to read completes at once. -/
def State.sweepStart (s : State) : State :=
  let fresh := (s.page 0x130).shadow != []
  let s := s.applyShadow 0x130
  let s := s.jobs.foldl (fun s e =>
    let x := s.job e.1
    s.setJob e.1 { x with sweepM := (x.m :: x.sweepM).take 2 }) s
  let damage := if fresh then Sparse.clearRange s.scrub.damage 0 4 else s.scrub.damage
  let s := { s with scrub := { due := false, moved := true, skip := 0, damage := damage } }
  match s.sweepFrom 0 with
  | some g => (s.setReg (scrubAt 0x4C) (BitVec.ofNat 32 (scrubPos g 0 0 0))).setFld (scrubAt 0x44) 1 0 1
  | none => (s.setFld (scrubAt 0x44) 1 0 0).setReg (scrubAt 0x48) (s.reg (scrubAt 0x48) + 1)

/-- A sweep ends; one that fell due meanwhile starts (R258). -/
def State.sweepEnd (s : State) : State :=
  let s := (s.setFld (scrubAt 0x44) 1 0 0).setReg (scrubAt 0x48) (s.reg (scrubAt 0x48) + 1)
  if s.scrub.due then s.sweepStart else s

/-- A code of the scrubber reported (R281, R425): at the source of the job being swept; where no job holds that segment, at Theham's
(DESIGN CHOICE, assumption 86). -/
def State.scrubEvent (s : State) (code : Nat) (detail : List Word) : State :=
  match s.jobOfSeg (s.fld (scrubAt 0x4C) 5 0) with
  | some j => s.event j code j detail
  | none => s.event (thehamSource code) code 0xFF detail

/-- SCRUB_SWEEP_START (R252, R258): a sweep falls due: it starts, or waits for the late one, which is reported. -/
def execScrubSweepStart (s : State) : Host.Outcome State Fault Refusal :=
  if !s.scrubs then .next s
  else if s.flag (scrubAt 0x44) 0 then
    let s := { s with scrub := { s.scrub with due := true } }
    if s.flag (scrubAt 0x44) 1 then .next s
    else
      let s := (s.setFlag (scrubAt 0x44) 1 true).raiseIrq 0x130 5
      .next (s.scrubEvent 0x0612 [])
  else .next s.sweepStart

/-- The next piece after the present one: the next in the store, the next store, cluster or swept segment, or the end. -/
def State.nextPiece (s : State) (g cl store piece : Nat) : Option Nat :=
  if piece + 1 < piecesOf store then some (scrubPos g cl store (piece + 1))
  else if store < 3 then some (scrubPos g cl (store + 1) 0)
  else if cl < 63 then some (scrubPos g (cl + 1) 0 0)
  else (s.sweepFrom (g + 1)).map (fun g => scrubPos g 0 0 0)

/-! ### A piece (R82, R214, R253) -/

/-- Byte `off` of a cluster's store as a maintenance-port read with correction delivers it. -/
def State.correctedByte (s : State) (cl store off : Nat) : Byte :=
  let word := fun (k : Nat) (p : Nat × Nat) (n i : Nat) =>
    let r := secdedRead k (Sparse.num s.fab.cfg p.1 n) (Sparse.num s.fab.cfg p.2 1)
    let d := if r.ue then Sparse.num s.fab.cfg p.1 n else r.data
    if i < n then BitVec.ofNat 8 (d / 256 ^ i)
    else if r.ue then Sparse.get 0 s.fab.cfg p.2 else BitVec.ofNat 8 (secdedCheck k d)
  match store with
  | 0 =>
    let r := off % 13312
    if r < 12288 then word 96 (istoreAt cl (off / 13312) (r / 12)) 12 (r % 12)
    else word 96 (istoreAt cl (off / 13312) (r - 12288)) 12 12
  | 1 => if off < 8192 then word 64 (cstoreAt cl (off / 8)) 8 (off % 8) else word 64 (cstoreAt cl (off - 8192)) 8 8
  | 2 => Sparse.get 0 s.fab.cfg (cfgBase cl + storeBase 2 + off)
  | _ =>
    if off < 131072 then word 64 (Sys2Proof.Machine.slotAt cl (off / 128) (off % 128 / 8)) 8 (off % 8)
    else word 64 (Sys2Proof.Machine.slotAt cl ((off - 131072) / 16) ((off - 131072) % 16)) 8 8

/-- A piece's CRC agrees with its golden signature, that of the verified copy (R214). -/
def pieceOk (a gold : List Byte) : Bool := a == gold || crc64 a == crc64 gold

/-- A piece of a segment's store is read and compared (R252, R253): a mismatch is counted and SIG_MISMATCH raised, with whether the
corrected read matched in W7. -/
def State.scanPiece (s : State) (g cl store piece : Nat) : State :=
  match s.jobOfSeg g with
  | none => s
  | some j =>
    let c := g * 64 + cl
    let off := piece * 1024
    let n := min 1024 (storeLen store - off)
    let lo := cfgBase c + storeBase store + off
    let gold := Sparse.bytes s.fab.copy lo n
    if pieceOk (Sparse.bytes s.fab.cfg lo n) gold then s
    else
      let x := s.job j
      let fixed := pieceOk ((List.range n).map (fun i => s.correctedByte c store (off + i))) gold
      let s := (s.bump (scrubAt 0x50) 15 0 1).raiseIrq 0x130 6
      s.raiseFault j { code := 0x0387, phase := 4, cls := 2, job := j, seg := g, cl := cl, m := x.m
                       blk := blockIndex x (store + 1) g cl, w6 := off, w7 := boolNat fixed
                       since := (x.sweepM.drop 1).headD 0 }

/-- SCRUB_PIECE (R252, R256): the piece at SCRUB_POS, and the position moves on. -/
def execScrubPiece (s : State) : Host.Outcome State Fault Refusal :=
  if !s.scrubs || !s.flag (scrubAt 0x44) 0 then .next s
  else
    let pos := (s.reg (scrubAt 0x4C)).toNat
    let g := natBits pos 5 0
    let cl := natBits pos 11 6
    let store := natBits pos 13 12
    let piece := natBits pos 23 14
    let s := { s with scrub := { s.scrub with moved := true } }
    let s := if s.swept g then s.scanPiece g cl store piece else s
    let next := if s.swept g then s.nextPiece g cl store piece else (s.sweepFrom (g + 1)).map (fun g => scrubPos g 0 0 0)
    match next with
    | some p => .next (s.setReg (scrubAt 0x4C) (BitVec.ofNat 32 p))
    | none => .next s.sweepEnd

/-! ### The patrol (R166, R255) -/

/-- The next word of the patrol: banks of powered segments that are not in retention, in order, wrapping. -/
def State.nextPatrol (s : State) (bank word : Nat) : Nat :=
  if word < 4095 then bank + (word + 1) * 2 ^ 14
  else
    let ok := fun (g : Nat) => s.domainOn g && !s.fab.retained.getLsbD g
    if (bank + 1) % 256 ≠ 0 then bank + 1
    else
      let g := bank / 256
      match (List.range 64).find? (fun i => ok ((g + 1 + i) % 64)) with
      | some i => ((g + 1 + i) % 64) * 256
      | none => bank

/-- SCRUB_PATROL_READ (R153, R160, R161, R166, R255): the word at SCRUB_PATROL is read through the dynamic port in its turn; the patrol
waits for a bank in clear mode, for the requests before it and for the fabric. An uncorrectable error under a running job is a class 1
fault. -/
def execScrubPatrolRead (s : State) : Host.Outcome State Fault Refusal :=
  if !s.scrubs then .next s
  else
    let v := (s.reg (scrubAt 0x60)).toNat
    let bank := natBits v 13 0
    let word := natBits v 25 14
    let turn := if s.bankStatus bank = .ok then s.portTurn bank [word] else (true, s)
    let s := turn.2
    if !turn.1 then .next s
    else
    let s := s.setReg (scrubAt 0x60) (BitVec.ofNat 32 (s.nextPatrol bank word))
    if s.bankStatus bank ≠ .ok then .next s
    else
      let r := (s.flushBank bank).dynFetch bank word
      let s := r.2.2
      if !r.2.1 then .next s
      else match s.jobOfSeg (bank / 256) with
        | some j =>
          if (s.job j).state = .active ∨ (s.job j).state = .reloading then
            .next (s.stopFor j { s.classOneRec j 0x0383 (bank / 256) (bank / 4) 0 5 (bank % 4) 0 with place := word })
          else .next s
        | none => .next s

/-! ### The scrubber's own configuration (R257, R258) -/

/-- The bits in which the three copies of a configuration word differ from what was written. -/
def Scrub.copies (q : Scrub) (word : Nat) : List Word := (List.range 3).map (fun c => Sparse.get 0 q.damage (word * 4 + c))

/-- The bitwise majority of three copies (R257). -/
def majority3 (v : List Word) : Word :=
  let a := v.getD 0 0
  let b := v.getD 1 0
  let c := v.getD 2 0
  (a &&& b) ||| (a &&& c) ||| (b &&& c)

/-- The scrubber's configuration as written: SCRUB_CFG, then the schedule and the table (R257). -/
def State.scrubConfig (s : State) : List Word :=
  let jobs := (s.jobs.filter (fun e => e.2.image.isSome)).map (fun e => (e.1, e.2.mask.toNat))
  s.reg (scrubAt 0x40) :: (List.range Config.scrubWords).map (fun i => Config.scrubWord i jobs)

/-- The configuration as the vote reads it (R257). -/
def State.scrubVoted (s : State) : List Word := s.scrubConfig.zipIdx.map (fun w => w.1 ^^^ majority3 (s.scrub.copies w.2))

/-- SCRUB_SIG (R258): the CRC-64 of configuration words, each least significant byte first. -/
def scrubSig (ws : List Word) : BitVec 64 := crc64 (ws.flatMap (fun w => leBytes 4 w.toNat))

/-- The scrubber stops: the vote can no longer be trusted (R257). -/
def State.scrubStop (s : State) (word : Nat) : State :=
  ((s.raiseIrq 0x130 4).setFlag (scrubAt 0x44) 2 true).scrubEvent 0x0611 [BitVec.ofNat 32 word]

/-- SCRUB_TMR_FIX (R257): the three copies of a word are compared. One odd copy is rewritten from the majority; where the rewrite does
not hold, or two copies are odd, the vote can no longer be trusted and the scrubber stops. -/
def execScrubTmrFix (vote : TmrVote) (rewriteHolds : Bool) (s : State) : Host.Outcome State Fault Refusal :=
  if !s.domainOn 76 || s.flag (scrubAt 0x44) 2 then .next s
  else
    let word := vote.word
    let old := s.scrub.copies word
    let new := [old.getD 0 0 ^^^ vote.bits0, old.getD 1 0 ^^^ vote.bits1, old.getD 2 0 ^^^ vote.bits2]
    let v := majority3 new
    let odd := new.countP (fun c => c != v)
    let write := fun (q : Scrub) (cs : List Word) =>
      { q with damage := cs.zipIdx.foldl (fun d c => Sparse.set 0 d (word * 4 + c.2) c.1) q.damage }
    if odd = 0 then .next { s with scrub := write s.scrub new }
    else if odd = 1 ∧ rewriteHolds then
      let s := { s with scrub := write s.scrub [v, v, v] }
      .next (((s.bump (scrubAt 0x54) 15 0 1).raiseIrq 0x130 3).scrubEvent 0x0610 [BitVec.ofNat 32 word])
    else .next ({ s with scrub := write s.scrub new }.scrubStop word)

/-- SCRUB_SIG_CHECK (R258): firmware's check. A signature that is not that of the configuration as written, a stopped scrubber, or a
sweep that has not moved since the last check fails it: the scrubber is reset, all three copies of its configuration are rewritten, and
the sweep starts again from its first piece. -/
def execScrubSigCheck (s : State) : Host.Outcome State Fault Refusal :=
  if !s.fwUp then .next s else
  let sweeping := s.flag (scrubAt 0x44) 0
  if (s.page 0x130).frozen then .next s
  else if s.flag (scrubAt 0x44) 2 || (sweeping && !s.scrub.moved) ||
      (s.scrub.damage != [] && scrubSig s.scrubVoted != scrubSig s.scrubConfig) then
    let cfg := s.reg (scrubAt 0x40)
    let head := s.reg (hdr 0x130 0x14)
    let s := ((s.resetPage 0x130).setReg (scrubAt 0x40) cfg).setReg (hdr 0x130 0x14) head
    let s := if sweeping then
        match s.sweepFrom 0 with
        | some g => (s.setReg (scrubAt 0x4C) (BitVec.ofNat 32 (scrubPos g 0 0 0))).setFld (scrubAt 0x44) 1 0 1
        | none => s
      else s
    .next (s.scrubEvent 0x0613 [])
  else .next { s with scrub := { s.scrub with moved := false } }

/-! ### The error counters (R250) -/

/-- The RC error counters of a cluster page: page offset, and the class of the scoreboard's totals, 4 for none (R424). -/
def eccCounters : List (Nat × Nat) :=
  [(0x40, 0), (0x80, 1), (0x100, 2), (0x180, 3), (0x184, 3), (0x188, 3), (0x18C, 3), (0x280, 4)]

/-- ECC_COUNTER_POLL (R250, R424): every error counter of every powered segment is read and cleared, and added to the segment's
totals and its hour's sum. -/
def execEccCounterPoll (s : State) : Host.Outcome State Fault Refusal :=
  if !s.fwUp then .next s else
  let segs := (List.range 64).filter s.domainOn
  .next (segs.foldl (fun s g => (clustersOf g).foldl (fun s cl => eccCounters.foldl (fun s r =>
    let n := s.fld (fabcAt cl r.1) 15 0
    if n = 0 then s
    else
      let s := s.setFld (fabcAt cl r.1) 15 0 0
      let t := s.theham
      let s := { s with theham := { t with eccHour := Sparse.set 0 t.eccHour g (Sparse.get 0 t.eccHour g + n) } }
      if r.2 < 4 then s.scoreAdd (3616 + g * 4 + r.2) n else s) s) s) s)

end Sys2Proof.Machine
end

