-- ==== Sys2Proof/Machine/Run.lean ====
section
/-! DEFINITION. Run control and the state commands (R242, R448–R450), and the resume of halted jobs. -/

namespace Sys2Proof.Machine

/-! ### Standing jobs -/

/-- A job of a run in progress stands: HALTED, or STOPPED before its boundary (R245, R448). -/
def State.stands (s : State) (j : Nat) : Bool :=
  ((s.job j).state == .active || (s.job j).state == .reloading) && s.standing j

/-- A job stands after a boundary and before the position 0 that it begins (R448, R450). -/
def State.atBoundary (s : State) (j : Nat) : Bool :=
  s.stands j && (s.job j).e == 0 && !s.stopped j

/-! ### Resume (R109, R327, R444, R467) -/

/-- A lane whose fault halted the job stands in the way of its resume: it is not OPERATIONAL, or a peer lane has another partner than
at the job's start (R327, R444). -/
def State.laneBlocks (s : State) (j n : Nat) : Bool :=
  (s.lane n).state != .operational || (!s.external j n && s.lanePartner n != (s.lane n).partner)

/-- A resume of a job is refused with RUN_BLOCKED (R444, R467): the whistle is active, a STEPCLK PLL is out of lock, or a lane that
halted the job does not operate as it did. -/
def State.runBlocked (s : State) (j : Nat) : Bool :=
  s.flag whistleReg 0 || s.fld (PageKind.clk.at 0x44) 3 0 != 15 || (s.job j).laneDown.any (s.laneBlocks j)

/-- A halted job continues (R109): each sequencer goes back to its state before the halt, a hold with a new block; after a halt in PAUSE
position 0 comes. Where a rollback has not restored the job yet, it will run once restored (R274). -/
def State.continueJob (s : State) (j : Nat) : State :=
  let x := s.job j
  let s := s.setJob j { x with haltedBy := none, haltReq := none, laneDown := [], block := 0 }
  if x.prot.state = .rollback then s
  else
    let paused := (s.seq x.lead).before == .pause
    let s := s.mapSeqs j (fun q => if q.state = .halted then { q with state := if q.before = .pause then .run else q.before } else q)
    if paused then s.enterZero j else s

/-- The lanes whose loss halted a job and that lost words (R327). -/
def State.lostLanes (s : State) (j : Nat) : List Nat := (s.job j).laneDown.filter (fun n => (s.lane n).wordsLost)

/-- The resume of a halted job, rolled back where a lane lost words and protection is on (R280, R327). -/
def State.resumeJob (s : State) (j : Nat) : State :=
  let x := s.job j
  let lost := s.lostLanes j
  if lost = [] ∨ x.prot.state = .off ∨ x.prot.state = .failed then s.continueJob j
  else
    let mine := x.faults.filter (fun f => f.code == 0x389 && lost.contains f.sub)
    let f : FaultRec := mine.headD { code := 0x0905, phase := 4, cls := 3, job := j, seg := lost.headD 0, unit := 8
                                     sub := lost.headD 0, e := x.recPos, m := x.m, ns := s.flat }
    let mF := mine.foldl (fun a g => min a g.m) x.m
    let s := s.setJob j { x with faults := x.faults.filter (fun g => !mine.contains g), haltedBy := some .fault, laneDown := [] }
    s.beginRollback j f mF ((s.job j).target mF) false

/-! ### Run control (R448, R449) -/

/-- A RUN_UNTIL that waits is aborted (R442). -/
def State.abortUntil (s : State) (j : Nat) : State :=
  (s.setJob j { s.job j with untilM := none }).finishJob j 0x0405 0x0016 []

/-- RUN_HALT (R448). -/
def execRunHalt (c : Call) (job : Nat) (s : State) : Host.Outcome State Fault Refusal :=
  .next (s.jobGate c 0x0402 job true (fun s =>
    if !(s.job job).live then s.reply c 0x0402 0x0203
    else
      let s := (s.abortUntil job).requestHalt job .command
      if s.stands job then s.complete c 0x0402 0 0 (s.haltResult job)
      else s.await { call := c, op := 0x0402, job := job }))

/-- RUN_RESUME (R245, R444, R448, R467). -/
def execRunResume (c : Call) (job : Nat) (s : State) : Host.Outcome State Fault Refusal :=
  .next (s.jobGate c 0x0403 job true (fun s =>
    let x := s.job job
    if x.failed then s.reply c 0x0403 0x0015
    else if s.pkgHalt then s.reply c 0x0403 0x0402
    else if x.haltedBy.isNone then s.reply c 0x0403 0
    else if s.runBlocked job then s.reply c 0x0403 0x0402
    else (s.resumeJob job).reply c 0x0403 0))

/-- RUN_STOP (R242, R442, R448): a job that stands is stopped at once. -/
def execRunStop (c : Call) (job : Nat) (s : State) : Host.Outcome State Fault Refusal :=
  .next (s.jobGate c 0x0404 job true (fun s =>
    let x := s.job job
    if x.state ≠ .active ∨ x.reload.isSome then s.reply c 0x0404 0x0203
    else
      let s := (s.abortUntil job).await { call := c, op := 0x0404, job := job }
      if s.stands job then s.stopJob job .loaded else s.requestHalt job .stop))

/-- RUN_UNTIL (R245, R442, R449): the job runs on, or is resumed, and halts at the boundary that begins the target. -/
def execRunUntil (c : Call) (job : Nat) (target : BitVec 64) (s : State) : Host.Outcome State Fault Refusal :=
  .next (s.jobGate c 0x0405 job true (fun s =>
    let x := s.job job
    if x.failed then s.reply c 0x0405 0x0015
    else if !x.live then s.reply c 0x0405 0x0203
    else if target.toNat ≤ x.m then s.reply c 0x0405 0x0401
    else if x.haltedBy.isSome && (s.pkgHalt || s.runBlocked job) then s.reply c 0x0405 0x0402
    else
      let s := (s.abortUntil job).await { call := c, op := 0x0405, job := job }
      let s := s.setJob job { s.job job with untilM := some target.toNat }
      if x.haltedBy.isSome then s.resumeJob job else s))

/-! ### State read and write (R450) -/

/-- The clusters of a range all belong to the job. -/
def State.rangeInJob (s : State) (j first count : Nat) : Bool :=
  decide (first + count ≤ 4096) && (List.range count).all (fun i => (s.job j).hasCluster (first + i))

/-- Bytes that a cluster takes in a STATE_READ or STATE_WRITE buffer (R450). -/
def stateBytes : Nat := 16448

/-- STATE_READ (R448, R450). -/
def execStateRead (c : Call) (job first count : Nat) (buffer : BitVec 64) (s : State) : Host.Outcome State Fault Refusal :=
  let fields := decide (1 ≤ count) && decide (count ≤ 4096) && aligned64 buffer.toNat
  .next (s.jobGate c 0x0501 job fields (fun s =>
    if !(s.stands job || (s.job job).state == .loaded) then s.reply c 0x0501 0x0501
    else if !s.rangeInJob job first count then s.reply c 0x0501 0x0503
    else if !bufFits c.ring buffer.toNat (count * stateBytes) then s.reply c 0x0501 0x0017
    else s.answer c 0x0501 buffer.toNat ((List.range count).flatMap (fun i => s.getState (first + i))) 0 []))

/-- STATE_WRITE (R268, R450). -/
def execStateWrite (c : Call) (job first count : Nat) (buffer : BitVec 64) (s : State) : Host.Outcome State Fault Refusal :=
  let fields := decide (1 ≤ count) && decide (count ≤ 4096) && aligned64 buffer.toNat
  .next (s.jobGate c 0x0502 job fields (fun s =>
    let x := s.job job
    if x.replaying then s.reply c 0x0502 0x0015
    else if !(s.stands job || x.state == .loaded) then s.reply c 0x0502 0x0501
    else if x.state ≠ .loaded ∧ ¬ s.atBoundary job then s.reply c 0x0502 0x0502
    else if !s.rangeInJob job first count then s.reply c 0x0502 0x0503
    else if !bufFits c.ring buffer.toNat (count * stateBytes) then s.reply c 0x0502 0x0017
    else if !c.dmaOk then s.reply c 0x0502 0x0014
    else
      let s := (List.range count).foldl (fun s i =>
        s.putState (first + i) (s.bufRead c.ring (buffer.toNat + i * stateBytes) stateBytes)) s
      (s.unloggedWrite job).reply c 0x0502 0))

end Sys2Proof.Machine
end

