-- ==== Sys2Proof/Machine/Theham.lean ====
section
/-! DEFINITION. Theham: warm boots and lockstep faults (R406), the watchdogs (R475, R476), the user core's faults (R407), the sensors
(R421, R422), raises (R426), the event log's flush (R423) and the scoreboard (R424). -/

namespace Sys2Proof.Machine

/-- BAR0 offset of a WDT register. -/
def wdtAt (off : Nat) : Nat := PageKind.wdt.at off

/-- BAR0 offset of a SENS register. -/
def sensAt (off : Nat) : Nat := PageKind.sens.at off

/-- A Theham event, with a source of the range 448–479 (R425). -/
def State.thehamEvent (s : State) (code : Nat) (detail : List Word) : State := s.event (thehamSource code) code 0xFF detail

/-! ### Flash (R409) -/

/-- Offset and size in flash of the partition of a package type, of slot A or B where it has two (R409). Type 5 is the auto-load image. -/
def flashPartition (kind : Nat) (slotB : Bool) : Nat × Nat :=
  let two := fun (at_ size : Nat) => (if slotB then at_ + size else at_, size)
  match kind with
  | 0 => two 0x0000000 0x40000
  | 1 => two 0x0100000 0x100000
  | 2 => two 0x0300000 0x100000
  | 3 => two 0x0500000 0x100000
  | 4 => (0x0700000, 0x100000)
  | _ => (0x3900000, 0xC700000)

/-- Offset and size in flash of the trim partition, the key store, the event log and the scoreboard (R409). -/
def flashOther : List (Nat × Nat) := [(0x0080000, 0x80000), (0x0800000, 0x100000), (0x0900000, 0x2000000), (0x2900000, 0x1000000)]

/-- The contents of the partition of a package type, 6 the trim partition, in slot A or B where it has two (R409). -/
def Theham.part (t : Theham) (kind : Nat) (slotB : Bool) : List Byte :=
  let key := kind * 2 + boolNat (slotB && decide (kind < 4))
  (Sparse.get none t.parts key).getD (Config.production key)

/-- That partition written. -/
def Theham.setPart (t : Theham) (kind : Nat) (slotB : Bool) (bs : List Byte) : Theham :=
  { t with parts := Sparse.set none t.parts (kind * 2 + boolNat (slotB && decide (kind < 4))) (some bs) }

/-- The slot in use of a type, and whether an update set it (R409, R420). -/
def Theham.setSlot (t : Theham) (kind : Nat) (slotB moved : Bool) : Theham :=
  { t with slotsUsed := natPut t.slotsUsed kind kind (boolNat slotB), moved := natPut t.moved kind kind (boolNat moved) }

/-- The device's identity public key (R413). -/
def identityKey : List Byte := (List.range 64).map Config.deviceKey

/-- A feature package is bound to this device or to none (R419). -/
def boundHere (bs : List Byte) : Bool :=
  match Config.packageBinding bs with
  | some d => d == Config.sm3 identityKey
  | none => true

/-- The packages in a partition of a type: none where it is empty, and the feature partition's own list (R409, R417, R419). -/
def packagesIn (kind : Nat) (bs : List Byte) : List (List Byte) :=
  if bs.isEmpty then []
  else if kind = 4 then (Config.featurePackages bs).filter boundHere
  else [bs]

/-! ### Boot and updates (R406, R414, R417, R420) -/

/-- The measurement register of a package type (R417); types 0 directory, 1 configuration, 2 patch, 3 agent, 4 feature (R454), 6 trim. -/
def mrOfKind (kind : Nat) : Option Nat :=
  match kind with
  | 0 => some 1
  | 1 => some 3
  | 2 => some 4
  | 3 => some 5
  | 4 => some 6
  | 6 => some 2
  | _ => none

/-- The version of the package of a type in use (R419). -/
def Theham.versionOf (t : Theham) (kind : Nat) : Option Nat := (t.packages kind).getLast?.map (fun bs => (Config.packageVersion bs).toNat)

/-- The packages of a type in use are others. -/
def Theham.use (t : Theham) (kind : Nat) (ps : List (List Byte)) : Theham :=
  { t with inUse := t.inUse.filter (fun p => p.1 != kind) ++ ps.map (fun bs => (kind, bs)) }

/-- The bytes of an update package from an offset on. -/
def Update.bytes (u : Update) (off n : Nat) : List Byte := u.data.bytes off n

/-- A pending update becomes active: what it replaces is kept as the old slot, and a new directory names the slots again (R409, R420). -/
def Theham.activateOne (t : Theham) (u : Update) : Theham :=
  let old : OldPart := { kind := u.kind, moved := natBit t.moved u.kind, content := if u.kind < 4 then [] else t.part u.kind false }
  let t := { t with older := t.older ++ [old], moved := if u.kind = 0 then 0 else t.moved }
  let t := if u.kind < 4 then t else t.setPart u.kind false (u.bytes 0 u.len)
  t.setSlot u.kind (decide (u.kind < 4) && !natBit t.slotsUsed u.kind) true

/-- The pending updates become active, the directory first (R420). -/
def Theham.activate (t : Theham) : Theham :=
  let us := t.toBoot.filter (fun u => u.kind == 0) ++ t.toBoot.filter (fun u => u.kind != 0)
  us.foldl Theham.activateOne { t with older := [], toBoot := [] }

/-- The old slot of a type again (R420). -/
def Theham.revert (t : Theham) (o : OldPart) : Theham :=
  let t := { t with older := t.older.filter (fun x => x.kind != o.kind) }
  let t := if o.kind < 4 then t else t.setPart o.kind false o.content
  t.setSlot o.kind (decide (o.kind < 4) && !natBit t.slotsUsed o.kind) o.moved

/-- What is read of a partition under a directory (R409, R414): its used length in the slot that the directory names; what an update
put there is read whole. -/
def Theham.reads (t : Theham) (dir : List Byte) (kind : Nat) : List Byte :=
  if natBit t.moved kind then t.part kind (natBit t.slotsUsed kind)
  else
    let e := Config.directoryEntry dir kind
    (t.part kind e.slotB).take e.used

/-- The directory in use (R414). -/
def Theham.directory (t : Theham) : List Byte := t.part 0 (natBit t.slotsUsed 0)

/-- The packages of a type read anew from the slot in use. -/
def Theham.reread (t : Theham) (kind : Nat) : Theham :=
  t.use kind (packagesIn kind (if kind = 0 then t.directory else t.reads t.directory kind))

/-- All that the last activation replaced is used again (R420). -/
def Theham.fallBack (t : Theham) : Theham :=
  (t.older.map OldPart.kind).foldl Theham.reread (t.older.foldl Theham.revert t)

/-- A boot's steps measured again in order (R414, R417). -/
def State.measureBoot (s : State) : State :=
  s.theham.inUse.foldl (fun s p => match mrOfKind p.1 with
    | some r => s.extendMr r (Config.sm3 p.2)
    | none => s) (s.extendMr 0 Config.romDigest)

/-- The patch in use placed in the patch region (R405, R414). -/
def State.placePatch (s : State) : State :=
  { s with theham := { s.theham with
    patch := (s.theham.packages 2).foldl (fun m bs => Sparse.putBytes m 0 ((Config.packageBody bs).take 0x60000)) ([] : Sparse Byte) } }

/-- The function that the configuration in use names for the agent, else the PF (R407). -/
def State.nameAgent (s : State) : State :=
  { s with theham := { s.theham with
    agentFn := ((s.theham.packages 1).head?.map (fun bs => (Config.configChoice (Config.packageBody bs)).agentFn % 64)).getD 0 } }

/-- A warm boot (R406): the firmware cores restart from ROM; fabric, HBM, jobs and the commands taken stay. -/
def State.warmBoot (s : State) : State :=
  ((s.measureBoot.bump (PageKind.rst.at 0x48) 15 0 1).placePatch.nameAgent).loadAgent

/-- A lockstep fault (R374, R406, R424): the whistle, a warm boot, and LOCKSTEP_FAULT. -/
def State.lockstepFault (s : State) : State :=
  ((s.assertWhistle 3).warmBoot.scoreAdd 3877 1).thehamEvent 0x0186 []

/-- LOCKSTEP_FAULT (R406). -/
def execLockstepFault (s : State) : Host.Outcome State Fault Refusal := .next s.lockstepFault

/-- WDT1_EXPIRE (R406, R420, R475): a lockstep fault; within 10 s of a boot into updated slots the old slots are used. -/
def execWdt1Expire (early : Bool) (s : State) : Host.Outcome State Fault Refusal :=
  let s := s.bump (wdtAt 0x4C) 31 24 1
  if early ∧ s.theham.older ≠ [] then
    let s := { s with theham := s.theham.fallBack }
    .next ((s.setFlag (PageKind.dev.at 0x44) 3 true).thehamEvent 0x0A05 []).lockstepFault
  else .next { s with theham := { s.theham with older := [] } }.lockstepFault

/-- WDT0 reloads its period (R475). -/
def State.wdt0Reload (s : State) : State := s.setFld (wdtAt 0x44) 23 0 (s.fld (wdtAt 0x40) 31 8)

/-- WDT0_EXPIRE (R407, R475): the user core is reset and the agent starts anew from its verified image; AGENT_FAULT is logged. WDT0 stands
still while disabled, and in monitor mode with WDT0_CFG.freeze. -/
def execWdt0Expire (s : State) : Host.Outcome State Fault Refusal :=
  if !s.flag (wdtAt 0x40) 0 || (s.inMonitor && s.flag (wdtAt 0x40) 1) then .next s
  else .next (s.loadAgent.wdt0Reload.thehamEvent 0x0187 [])

/-- AGENT_FAULT (R407): the user core enters its machine-mode handler, which is the agent's own code. -/
def execAgentFault (s : State) : Host.Outcome State Fault Refusal := .next (s.emit .ucFault)

/-- EVENT_RAISE (R426). -/
def execEventRaise (source : Nat) (code : BitVec 16) (job severity : BitVec 8) (detail : List (BitVec 32)) (s : State) :
    Host.Outcome State Fault Refusal :=
  if source < 512 then .next (s.raiseEvent source code.toNat job.toNat (severity.toNat % 4) ((detail ++ [0, 0, 0, 0]).take 4))
  else .next s

/-! ### Sensors (R421) -/

/-- The hottest sensor of a list with its number: the lowest number among equals. -/
def hottest (ts : List (Nat × BitVec 11)) : Nat × BitVec 11 :=
  ts.foldl (fun a t => if a.2.toInt < t.2.toInt then t else a) (ts.headD (0, 0))

/-- A signed temperature of 0.25 °C units as its whole degrees, 0 below freezing. -/
def degrees (t : BitVec 11) : Nat := (t.toInt / 4).toNat

/-- A thermal cycle is counted: the package rises above 80 °C after it was last below 40 °C (R424). -/
def State.thermalCycle (s : State) (t : BitVec 11) : State :=
  if t.toInt < 160 then { s with theham := { s.theham with coldSeen := true } }
  else if 320 < t.toInt ∧ s.theham.coldSeen then { s with theham := { s.theham with coldSeen := false } }.scoreAdd 3874 1
  else s

/-- A sensor or limit event (R425). -/
def State.sensorEvent (s : State) (code : Nat) (v : Nat) : State := s.event (sensorSource code) code 0xFF [BitVec.ofNat 32 v]

/-- Nominal voltages of rails 0–11 in mV (R512). -/
def railNominal : List Nat := [750, 850, 750, 800, 800, 1100, 1800, 900, 1200, 900, 1200, 1800]

/-- The voltage monitors of a rail (R422). -/
def railMonitors (rail : Nat) : List Nat :=
  match rail with
  | 0 => [0, 1, 2, 3, 8, 9, 10, 11, 16, 17, 18, 19, 24, 25, 26, 27]
  | 1 => [4, 5, 12, 13, 20, 21, 28, 29]
  | 2 => [32, 33, 34, 35]
  | 3 => [36]
  | 4 => [37]
  | 5 => [38, 39, 40, 41]
  | 6 => [42, 43]
  | 7 => [6, 14, 22, 30]
  | 8 => [7, 15, 23, 31]
  | 9 => [44]
  | 10 => [45]
  | _ => [46, 47]

/-- A rail's voltage in a sample: that of one of its monitors, by a free number (assumption 111). -/
def railMv (volts : List (BitVec 16)) (k rail : Nat) : Nat :=
  let ms := railMonitors rail
  (volts.getD (ms.getD (Config.freeNat (k + rail) % ms.length) 0) 0).toNat

/-- The power of a sample in units of 10 µW: voltage × current summed over the 12 rails (R421). -/
def samplePower (r : SensorReading) (k : Nat) : Nat :=
  ((List.range 12).map (fun i => railMv r.volts k i * (r.currents.getD i 0).toNat)).sum

/-- The power averaged over the last `n` samples, in 0.1 W; a sample not taken yet counts 0 (DESIGN CHOICE, assumption 111). -/
def meanPower (powers : List Nat) (n : Nat) : Nat := (powers.take n).sum / (10000 * n)

/-- That average lies above a limit in 0.1 W. -/
def overPower (powers : List Nat) (n limit : Nat) : Bool := decide (limit * (10000 * n) < (powers.take n).sum)

/-- A voltage monitor reads outside ±5 % of its rail's nominal voltage (R421, R422, R512). -/
def offLimits (r : SensorReading) : Bool :=
  (List.range 12).any (fun rail => (railMonitors rail).any (fun n => match r.volts[n]? with
    | some v =>
      let nom := railNominal.getD rail 0
      decide (v.toNat * 100 < nom * 95) || decide (nom * 105 < v.toNat * 100)
    | none => false))

/-- SENSOR_SAMPLE (R421, R429): the readings are kept and shown, and the limits applied: 1 ms is 10 samples, 10 ms 100 and 1 s 10,000.
Power is in 0.1 W. -/
def execSensorSample (reading : SensorReading) (s : State) : Host.Outcome State Fault Refusal :=
  if !s.fwUp then .next s else
  let r := reading
  let t := s.theham
  let top := hottest (r.temps.zipIdx.map (fun t => (t.2, t.1)))
  let powers := (samplePower r s.free :: t.powers).take 10000
  let runs := r.temps.zipIdx.map (fun x => if 420 < x.1.toInt then t.hotRuns.getD x.2 0 + 1 else 0)
  let mean := meanPower powers 100
  let hotNow := r.temps.any (fun t => decide (400 < t.toInt))
  let powerNow := overPower powers 100 8500
  let s := { s with free := s.free + 12, theham := { t with
    temps := r.temps, volts := r.volts, currents := r.currents, high := hotNow || powerNow, powers := powers, hotRuns := runs } }
  let s := s.setReg (sensAt 0x48) (BitVec.ofNat 32 (top.2.toNat + top.1 % 256 * 2 ^ 16))
  let s := (s.setFld (sensAt 0x5C) 15 0 (min 65535 mean)).peak (sensAt 0x5C) 31 16 (min 65535 mean)
  let s := s.thermalCycle top.2
  let s := if hotNow then s.sensorEvent 0x0180 top.2.toNat else s
  let s := if runs.any (fun n => decide (10 ≤ n)) then (s.sensorEvent 0x0181 top.2.toNat).assertWhistle 3 else s
  let s := if powerNow then s.sensorEvent 0x0182 mean else s
  let s := if overPower powers 10 9350 || overPower powers 10000 8500 then
      (s.sensorEvent 0x0183 (meanPower powers 10)).assertWhistle 3
    else s
  if r.volt10us && offLimits r then
    let s := { s with theham := { s.theham with voltFault := true } }
    .next ((s.sensorEvent 0x0184 0).assertWhistle 3)
  else .next s

/-- VOLT_RECOVERED (R421): after a VOLT_FAULT every job with checkpointing enabled is rolled back. -/
def execVoltRecovered (s : State) : Host.Outcome State Fault Refusal :=
  if !s.fwUp then .next s else
  if !s.theham.voltFault then .next s
  else
    let s := { s with theham := { s.theham with voltFault := false } }
    .next ((List.range 64).foldl (fun s j =>
      let x := s.job j
      if x.live then
        s.beginRollback j { code := 0x0184, phase := 4, cls := 3, job := j, m := x.m, ns := s.flat } x.m (x.target x.m) false
      else s) s)

/-! ### The event log in flash (R410, R423) -/

/-- Entries of a flash sector, and the sectors of the log (R409, R423). -/
def sectorEntries : Nat := 2048

/-- The next sector of entries goes to flash, where it replaces the oldest of the 512, opened by the summary of those dropped; past 40
erases in the hour they stay in the SRAM ring only, and are counted (R410, R423). The summary's layout is firmware's own. -/
def State.flushSector (s : State) : State :=
  let t := s.theham
  let n := t.unflushed
  if n = 0 then s
  else if 40 ≤ t.erases then
    { s with theham := { t with dropped := t.dropped + min n sectorEntries, unflushed := n - min n sectorEntries } }
  else
    let sum : List LogEntry := if t.dropped = 0 then [] else
      [{ ns := s.flat, code := (Config.freeWord s.free).toNat % 65536, source := 448, job := 0xFF, sev := 1, seqNo := t.logSeq
         detail := [BitVec.ofNat 32 t.dropped, 0, 0, 0] }]
    let take := min n (sectorEntries - sum.length)
    { s with free := s.free + 1
             theham := { t with flash := keepNewest 512 (t.flash ++ [sum ++ (t.log.drop (t.log.length - n)).take take])
                                logSeq := t.logSeq + sum.length, unflushed := n - take, dropped := 0, erases := t.erases + 1 } }

/-- The remainder flushed at an orderly power-down (R423): at most three sectors. -/
def State.flushLog (s : State) : State := s.flushSector.flushSector.flushSector

/-- LOG_FLUSH (R423): the ring has gathered 2,048 entries. -/
def execLogFlush (s : State) : Host.Outcome State Fault Refusal :=
  if !s.fwUp then .next s else
  if sectorEntries ≤ s.theham.unflushed then .next s.flushSector else .next s

/-! ### The scoreboard (R424, R456) -/

/-- The bin of a rail's voltage: 1 % of nominal from −16 % (R424). -/
def voltBin (mv nominal : Nat) : Nat := min 31 ((mv * 100 - nominal * 84) / nominal)

/-- The bin of an hour's corrected errors: 0, 1, 2–3, … 2^14 or more (R424). -/
def eccBin (n : Nat) : Nat := if n = 0 then 0 else min 15 (n.log2 + 1)

/-- The samples of each second (R424). Which of a rail's monitors is taken, and the hub's junction temperature, for which no sensor is
numbered, are open. -/
def State.scoreSecond (s : State) : State :=
  let k := s.free
  let ts := s.theham.temps.zipIdx.map (fun t => (t.2, t.1))
  let dies := (List.range 4).map (fun d => degrees (hottest (ts.filter (fun t => t.1 / 64 == d))).2)
  let s := ((dies ++ [Config.freeNat k]).zipIdx).foldl (fun s t => s.scoreAdd (t.2 * 32 + min 31 (t.1 / 4)) 1) s
  let s := (List.range 12).foldl (fun s r =>
    s.scoreAdd (160 + r * 32 + voltBin (railMv s.theham.volts (k + 1) r) (railNominal.getD r 1)) 1) s
  let s := (List.range 64).foldl (fun s n =>
    if (s.lane n).state = .operational then s.scoreAdd (544 + n * 32 + s.fld (laneAt n 0x54) 7 0 / 8) 1 else s) s
  { s with free := k + 13 }

/-- The samples of each hour (R410, R424): corrected errors by segment, power-on hours; the log's erase budget starts anew. -/
def State.scoreHour (s : State) : State :=
  let s := (List.range 64).foldl (fun s g => s.scoreAdd (2592 + g * 16 + eccBin (Sparse.get 0 s.theham.eccHour g)) 1) s
  let s := s.scoreAdd 3872 1
  { s with theham := { s.theham with eccHour := [], erases := 0 } }

/-- SCOREBOARD_SAMPLE (R424). -/
def execScoreboardSample (hour : Bool) (s : State) : Host.Outcome State Fault Refusal :=
  if !s.fwUp then .next s else
  .next (if hour then s.scoreSecond.scoreHour else s.scoreSecond)

/-- The scoreboard written to flash (R410, R424). -/
def State.saveScore (s : State) : State := { s with theham := { s.theham with scoreOut := s.theham.score } }

/-- SCOREBOARD_WRITE (R424). -/
def execScoreboardWrite (s : State) : Host.Outcome State Fault Refusal :=
  if !s.fwUp then .next s else
  .next s.saveScore

end Sys2Proof.Machine
end

