-- ==== Sys2Proof/Machine/Clock.lean ====
section
/-! DEFINITION. Clocks (R26, R503, R504), die-to-die links (R21, R22), the whistle's rows (R374–R376), the thermal trip (R506), and the
device commands that act on them (R445). -/

namespace Sys2Proof.Machine

/-- BAR0 offset of a CLK register. -/
def clkAt (off : Nat) : Nat := PageKind.clk.at off

/-! ### PLLs (R26, R503) -/

/-- A loss of lock counted, with the `CLK` page's interrupt (R26, R504). -/
def State.countUnlock (s : State) : State := (s.bump (clkAt 0x48) 15 0 1).raiseIrq 2 3

/-- The loss of a STEPCLK PLL reaches a job (R26, R106, R280): one that runs behaves as halted at the end of the step; one not yet in RUN
starts halted. PLL_UNLOCK is recorded. -/
def State.unlockJob (s : State) (j : Nat) : State :=
  let x := s.job j
  let s := s.raiseFault j { code := 0x038A, phase := 4, cls := 3, job := j, seg := x.lead, unit := 7, e := x.recPos, m := x.m }
  if x.state = .destroying then s.haltNow j .stop
  else if x.state = .starting ∨ x.haltedBy.isSome then s.requestHalt j .unlock
  else s.haltNow j .unlock

/-- A STEPCLK PLL loses lock (R26): every job with a segment on its die is halted, one that is being destroyed and still steps too. -/
def State.stepUnlock (s : State) (die : Nat) : State :=
  let s := (s.setFlag (clkAt 0x44) die false).countUnlock
  (List.range 64).foldl (fun s j =>
    let x := s.job j
    let steps := x.live || (x.state == .destroying && !s.standing j)
    if steps && (segsOf x.mask).any (fun g => dieOf g == die) then s.unlockJob j else s) s

/-- STEPCLK_PLL_UNLOCK (R26). -/
def execStepclkPllUnlock (die : Nat) (s : State) : Host.Outcome State Fault Refusal :=
  if die < 4 then .next (s.stepUnlock die) else .next s

/-- The hub system PLL loses lock (R26, R374): firmware enters reset until it locks again, and the whistle is asserted. -/
def State.hubUnlock (s : State) : State := (s.setFlag (clkAt 0x44) 4 false).countUnlock.assertWhistle 4

/-- HUB_PLL_UNLOCK (R26). -/
def execHubPllUnlock (s : State) : Host.Outcome State Fault Refusal := .next s.hubUnlock

/-- PLL_RELOCK (R26, R280, R504): the PLL's lock bit. When the hub system PLL locks again the firmware cores leave reset, which is a warm
boot (assumption 30); a lane in OFF that is to come up starts when its group's PLL locks (R306). -/
def execPllRelock (pll : Pll) (s : State) : Host.Outcome State Fault Refusal :=
  match pll with
  | .step die => if die < 4 then .next (s.setFlag (clkAt 0x44) die true) else .next s
  | .hub => if s.flag (clkAt 0x44) 4 then .next s else .next (s.setFlag (clkAt 0x44) 4 true).warmBoot
  | .hbm k => if k < 4 then .next (s.setFlag (clkAt 0x44) (5 + k) true) else .next s
  | .pcie => .next (s.setFlag (clkAt 0x44) 9 true)
  | .lane group =>
    if group < 4 ∧ s.domainOn (64 + group) then
      let s := s.setFlag (laneGroupAt group 0x40) 0 true
      .next ((List.range 16).foldl (fun s i => s.laneCtl (group * 16 + i)) s)
    else .next s

/-- STEPCLK_RELOCK (R504): the four STEPCLK PLLs have locked to the new multiplier. -/
def execStepclkRelock (s : State) : Host.Outcome State Fault Refusal := .next (s.setFld (clkAt 0x44) 3 0 15)

/-- A lane PLL loses lock (R26, R306). -/
def State.laneUnlock (s : State) (group : Nat) : State :=
  match execLanePllUnlock group s with
  | .next t => t
  | _ => s

/-! ### Die-to-die links (R21, R22) -/

/-- LINK_TRAINING (R21, R22): a link that fails leaves its fabric ends' segments unavailable until it is trained again. -/
def execLinkTraining (link : D2dLink) (ok : Bool) (s : State) : Host.Outcome State Fault Refusal :=
  let bad := s.fab.linkBad.filter (· != link)
  .next { s with fab := { s.fab with linkBad := if ok then bad else bad ++ [link] } }

/-- The number by which a fault record names a link (assumption 31). -/
def linkIndex (link : D2dLink) : Nat :=
  match link with
  | .hub die => die
  | .fabric01 => 4
  | .fabric02 => 5
  | .fabric13 => 6
  | .fabric23 => 7

/-- LINK_UE (R22): an uncorrectable error in every job with a segment on either end. -/
def execLinkUe (link : D2dLink) (s : State) : Host.Outcome State Fault Refusal :=
  .next ((List.range 64).foldl (fun s j =>
    let x := s.job j
    match (segsOf x.mask).find? (fun g => (linkDies link).contains (dieOf g)) with
    | some g => if x.state = .free then s else s.classOne j 0x0386 g 0 0 0 (linkIndex link) 0
    | none => s) s)

/-! ### The whistle (R374–R376) -/

/-- WHISTLE_IN (R374): the input at 1. -/
def execWhistleIn (s : State) : Host.Outcome State Fault Refusal := .next ((s.setFlag whistleReg 5 true).assertWhistle 1)

/-- WHISTLE_IN_FALL (R376). -/
def execWhistleInFall (s : State) : Host.Outcome State Fault Refusal := .next (s.setFlag whistleReg 5 false)

/-- DEV_WHISTLE (R374, R376, R445). -/
def execDevWhistle (c : Call) (op : Nat) (s : State) : Host.Outcome State Fault Refusal :=
  .next (s.gate c 0x0105 (op == 1 || op == 2) (fun s =>
    let r := if op = 1 then (true, s.assertWhistle 2) else s.clearWhistle
    r.2.complete c 0x0105 (if r.1 then 0 else 0x0140) 0 (if r.1 then leBytes 4 (r.2.reg whistleReg).toNat else [])))

/-- DEV_SHUTDOWN (R445). -/
def execDevShutdown (c : Call) (s : State) : Host.Outcome State Fault Refusal :=
  .next (s.gate c 0x0106 true (fun s =>
    let s := (s.assertWhistle 2).flushLog.saveScore
    { s with theham := { s.theham with shutdown := true } }.reply c 0x0106 0))

/-- THERMAL_TRIP (R506): THERMTRIP_N latched low, RST_CAUSE.thermal, and the whistle, for which R374 names no source bit
(assumption 32). -/
def execThermalTrip (s : State) : Host.Outcome State Fault Refusal :=
  let s := { s with pins := { s.pins with trip := true } }
  .next ((s.setFlag (PageKind.rst.at 0x40) 3 true).assertWhistle 0)

/-! ### DEV_CLOCK (R445, R504) -/

/-- STEPCLK set to `n` × 1.25 MHz: a change relocks the PLLs (R504). -/
def State.setClock (s : State) (n : Nat) : State :=
  let old := s.reg (clkAt 0x40)
  (s.setFld (clkAt 0x40) 9 0 n).pokeEffect old (clkAt 0x40)

/-- DEV_CLOCK (R2, R24, R444, R445). -/
def execDevClock (c : Call) (n : Nat) (s : State) : Host.Outcome State Fault Refusal :=
  .next (s.gate c 0x0104 (decide (200 ≤ n) && decide (n ≤ 1000)) (fun s =>
    if Config.gradeTen && decide (800 < n) then s.reply c 0x0104 0x0192
    else if s.anyLive then s.reply c 0x0104 0x0191
    else (s.setClock n).complete c 0x0104 0 0 (leBytes 4 (n * 1250))))

end Sys2Proof.Machine
end

