-- ==== Sys2Proof/Machine/Pcie.lean ====
section
/-! DEFINITION. The PCIe controller (R355–R366): what of BAR2 a function is served, link training, the controller's resets, MSI-X
unmasking, and the loss of a reference clock (R503). -/

namespace Sys2Proof.Machine

/-! ### BAR2 (R360) -/

/-- The job that a physical HBM address is window space of (R180). -/
def State.jobOfHbm (s : State) (p : Nat) : Option Nat :=
  let o := pcOf p % 8
  let u := pcOffset p / 1048576
  (s.jobs.find? (fun e => e.2.state != .free && e.2.windows.any (fun w => w.1 == o && decide (w.2.1 ≤ u) && decide (u < w.2.1 + w.2.2)))).map (·.1)

/-- An HBM address lies in the capture region of a session on a job of VF `n` (R360, R451). -/
def State.inCapRegion (s : State) (n p : Nat) : Bool :=
  match s.cap.job with
  | some j => (s.job j).fn == n && s.allocs.any (fun a => a.user == 64 && decide (a.base ≤ p) && decide (p < a.base + a.len))
  | none => false

/-- The aligned blocks of `size` bytes that a stretch of BAR2 touches. -/
def blocksOf (size off n : Nat) : List Nat :=
  if n = 0 then [] else (List.range ((off + n - 1) / size - off / size + 1)).map (fun i => (off / size + i) * size)

/-- The bank and word of an aperture offset (R164). -/
def apertureWord (off : Nat) : Nat × Nat := ((off - apertureBase) / 0x8000, (off - apertureBase) % 0x8000 / 8)

/-- The function exists (R366). -/
def State.fnOn (s : State) (fn : Nat) : Bool := fn == 0 || s.vfOn fn

/-- A stretch of BAR2 is served for a function (R360), a VF only while it is enabled (R366). -/
def State.bar2Served (s : State) (fn off n : Nat) : Bool :=
  s.fnOn fn &&
  if off + n ≤ apertureBase then
    fn == 0 || (blocksOf 64 off n).all (fun p => s.inCapRegion fn p || match s.jobOfHbm p with
      | some j => (s.job j).fn == fn
      | none => false)
  else if apertureBase ≤ off ∧ off + n ≤ apertureEnd then
    fn == 0 || (blocksOf 8 off n).all (fun p => match s.jobOfSeg ((apertureWord p).1 / 256) with
      | some j => (s.job j).fn == fn
      | none => false)
  else false

/-! ### The link and its resets (R356, R366) -/

/-- PCIE_LINK_TRAINING (R355, R356): the highest rate that both ends support, up to PCIE_LINK_CTL.max_speed; FLIT mode is used at
64 GT/s, and below where the partner supports it. Without its reference the link stays down (R503). A link that is up goes to L1 where
host software has enabled ASPM L1 in Link Control, and its next training brings it back; when it does either is the sender's to say
(assumption 124). -/
def execPcieLinkTraining (partnerSpeed : BitVec 3) (width : BitVec 5) (mode : LinkMode) (s : State) : Host.Outcome State Fault Refusal :=
  let speed := min partnerSpeed.toNat (s.fld (pcieAt 0x44) 2 0)
  match mode with
  | .up flit =>
    if !s.flag (clkAt 0x44) 9 || speed == 0 then .next s
    else .next (s.setReg (pcieAt 0x40) (BitVec.ofNat 32 (speed + width.toNat * 2 ^ 3 + boolNat (flit || speed == 6) * 2 ^ 8)))
  | .l1 =>
    let on := s.fld (pcieAt 0x40) 2 0 != 0 && ((s.pcieFn 0).config 0 cfgLink).getLsbD 1
    .next (if on then s.setFlag (pcieAt 0x40) 9 true else s)

/-- A function's ring counts at 0: commands taken, completions written, the doorbell values (R366, R432). -/
def State.zeroRing (s : State) (fn : Nat) : State :=
  let s := ((s.setReg (mboxAt fn 0x54) 0).setReg (mboxAt fn 0x58) 0).setReg (mboxAt fn 0x60) 0
  let f := s.pcieFn fn
  s.setPcieFn fn { f with dbCmd := 0, dbCpl := 0 }

/-- Pending requests of a function that a test picks are discarded, with what they wait for at the banks (R366). -/
def State.dropAccess (s : State) (pick : HostAccess → Bool) : State :=
  let gone := s.access.filter pick
  let mine := fun (r : DynReq) => gone.any (fun a => r.src == a.src && a.words.contains (r.bank, r.word))
  { s with access := s.access.filter (fun a => !pick a)
           fab := { s.fab with dyn := s.fab.dyn.filter (fun r => !mine r)
                               dynWait := s.fab.dynWait.filter (fun e => s.fab.dyn.any (fun r => r.bank == e.1 && !mine r)) } }

/-- An FLR's effects on one function (R366): with its MSI-X table goes its configuration space, as PCI Express has it. -/
def State.flrOne (s : State) (fn : Nat) : State :=
  let s := ((s.dropAccess (fun a => a.fn == fn && !a.fw)).cutDma (· == fn)).loseRing fn
  let s := s.zeroRing fn
  s.setPcieFn fn {}

/-- The event code under which firmware logs an FLR: none is assigned (R366, R423). -/
def flrCode : Nat := (Config.irqCode (351 * 32 + 31)).toNat

/-- A Function Level Reset (R366): of the PF it clears VF Enable and resets every VF too; counted, and logged by firmware. -/
def State.flr (s : State) (fn : Nat) : State :=
  let s := (if fn = 0 then List.range 64 else [fn]).foldl State.flrOne s
  let s := s.bump (pcieAt 0x58) 31 16 1
  s.logEvent 351 flrCode 0xFF (Config.severity flrCode).toNat [BitVec.ofNat 32 fn]

/-- FLR (R366). -/
def execFlr (fn : Nat) (s : State) : Host.Outcome State Fault Refusal := .next (s.flr fn)

/-- A reset of the PCIe controller (R366, R378): configuration space with VF Enable, the MSI-X tables and BAR4 values, reads not yet
completed, requests to host memory; the link trains anew. Conventional resets and link-downs are counted. -/
def State.pcieReset (s : State) (kind : PcieResetKind) : State :=
  let s := (s.dropAccess (fun a => !a.write && !a.fw)).cutDma (fun _ => true)
  let s := { s with fns := [] }.setReg (pcieAt 0x40) 0
  if kind = .hot then s else s.bump (pcieAt 0x58) 15 0 1

/-- PCIE_RESET (R366). -/
def execPcieReset (kind : PcieResetKind) (s : State) : Host.Outcome State Fault Refusal := .next (s.pcieReset kind)

/-- A vector masked or unmasked (R365): a message held back that may go now is sent. -/
def State.msixMask (s : State) (fn vector : Nat) (mask : Bool) : State :=
  let f := s.pcieFn fn
  let bit := BitVec.ofNat 8 (2 ^ vector)
  (s.setPcieFn fn { f with masked := if mask then f.masked ||| bit else f.masked &&& ~~~bit }).msixFlush fn

/-- MSIX_UNMASK (R365). Host software masks a vector again, and sets MSI-X Enable and Function Mask, by REG_WRITE (assumption 122). -/
def execMsixUnmask (fn vector : Nat) (s : State) : Host.Outcome State Fault Refusal := .next (s.msixMask fn vector false)

/-- REFCLK_LOSS (R503): the PLLs that depend on the input unlock, or the link goes down. -/
def execRefclkLoss (clk : RefClk) (s : State) : Host.Outcome State Fault Refusal :=
  match clk with
  | .timeref => .next s.hubUnlock
  | .laneref => .next ((List.range 4).foldl State.laneUnlock ((List.range 4).foldl State.stepUnlock s))
  | .pcie => .next ((s.setFlag (clkAt 0x44) 9 false).countUnlock.pcieReset .linkDown)

end Sys2Proof.Machine
end

