-- ==== Sys2Proof/Machine/Device.lean ====
section
/-! DEFINITION. Device queries (R445, R528), capture sessions (R344, R451), and the lane and time commands (R453). -/

namespace Sys2Proof.Machine

/-! ### What the device reports (R428, R445, R528) -/

/-- DEV_BOOT (R428): the stage, fallback and auto-load as boot left them, and whether an owner key is fused (R412). -/
def State.devBoot (s : State) : Nat := natPut (s.reg (PageKind.dev.at 0x44)).toNat 2 2 (boolNat s.theham.owner.isSome)

/-- A mask of the 64 numbers that a test picks. -/
def mask64 (p : Nat → Bool) : Nat := (List.range 64).foldl (fun a i => a + boolNat (p i) * 2 ^ i) 0

/-- DEV_INFO (R445, R528). Its result is where unavailable segments are reported: R22 has the `DEV` page and the device-status command
report them too, and no register of that page and no byte of DEV_STATUS's result is given for it (DESIGN CHOICE,
assumption 69). The serial number is never 0. -/
def execDevInfo (c : Call) (s : State) : Host.Outcome State Fault Refusal :=
  .next (s.gate c 0x0101 true (fun s =>
    s.complete c 0x0101 0 0 (leBytes 1 (boolNat Config.gradeTen) ++ leBytes 1 Config.siliconRev.toNat ++ leBytes 2 s.devBoot ++
      leBytes 4 0x00010000 ++ leBytes 4 ((s.theham.versionOf 2).getD 0) ++ leBytes 8 (mask64 s.segDown) ++ leBytes 8 (max 1 Config.serial.toNat))))

/-- What a caller sees of a job or of what belongs to it: everything with PF rights, else what its own jobs hold (R439). -/
def State.seesJob (s : State) (r : Ring) (j : Nat) : Bool := !s.callerIsVf r || (s.job j).fn == s.callerFn r

/-- A caller sees a lane: with VF rights, one whose segment is in a job of its own (R359, R439). -/
def State.seesLane (s : State) (r : Ring) (n : Nat) : Bool :=
  !s.callerIsVf r || match s.jobOfSeg n with
    | some j => s.seesJob r j
    | none => false

/-- DEV_STATUS (R445). -/
def execDevStatus (c : Call) (s : State) : Host.Outcome State Fault Refusal :=
  .next (s.gate c 0x0102 true (fun s =>
    let lanes := mask64 (fun n => (s.lane n).state == .operational && s.seesLane c.ring n)
    let jobs := mask64 (fun j => (s.job j).state != .free && s.seesJob c.ring j)
    let pcs := (List.range 128).countP s.pcOk
    let off := (List.range 84).foldl (fun a d => a + boolNat (!s.domainOn d) * 2 ^ d) 0
    s.complete c 0x0102 0 0 (leBytes 8 lanes ++ leBytes 1 pcs ++ [0] ++ leBytes 2 (s.fld (sensAt 0x5C) 15 0) ++
      leBytes 2 (s.fld (sensAt 0x48) 10 0) ++ leBytes 1 (boolNat (s.flag whistleReg 0) + 2 * boolNat s.theham.high) ++ [0] ++
      leBytes 8 jobs ++ leBytes 11 off)))

/-- DEV_NOP (R445): the result is the 40 bytes of its parameters. -/
def execDevNop (c : Call) (data : List Byte) (s : State) : Host.Outcome State Fault Refusal :=
  .next (s.gate c 0x0107 true (fun s => s.complete c 0x0107 0 0 (padTo 40 data)))

/-! ### Capture sessions (R344, R351, R352, R451) -/

/-- The code with which CAP_OPEN is refused before it seeks space (R344, R351, R451). -/
def State.capOpenFault (s : State) (job sizeLog2 count : Nat) : Option Nat :=
  let x := s.job job
  if ! [JobState.loaded, .starting, .active, .reloading].contains x.state then some 0x0203
  else match s.cap.job with
    | some j => some (if j = job then 0x0015 else 0x0702)
    | none =>
      if 17179869184 < count * 2 ^ sizeLog2 then some 0x0703
      else match x.image with
        | some im => if im.probes = [] then some 0x0704 else none
        | none => some 0x0704

/-- CAP_OPEN (R344, R352, R451): the region is allocated, the session opened in IDLE, and the CAP pages go to the job's owner. -/
def execCapOpen (c : Call) (job sizeLog2 count : Nat) (s : State) : Host.Outcome State Fault Refusal :=
  let ok := decide (12 ≤ sizeLog2) && decide (sizeLog2 ≤ 34) && decide (1 ≤ count) && decide (count ≤ 65536)
  .next (s.jobGate c 0x0701 job ok (fun s =>
    match s.capOpenFault job sizeLog2 count with
    | some code => s.reply c 0x0701 code
    | none =>
      match s.allocHbm (count * 2 ^ sizeLog2) 64 with
      | none => s.reply c 0x0701 0x0206
      | some (base, s) =>
        let x := s.job job
        let probes := match x.image with
          | some im => probeList im.shift im.probes
          | none => []
        let s := (s.setCap { job := some job }).setProbes probes
        let s := (s.setFld (capAt 0 0x40) 5 0 job).setFlag (capAt 0 0x40) 6 true
        let s := (s.setReg (capAt 0 0x44) (BitVec.ofNat 32 (base / 4096))).setReg (capAt 0 0x48) (BitVec.ofNat 32 sizeLog2)
        let s := s.setReg (capAt 0 0x4C) (BitVec.ofNat 32 count)
        (s.handPages [0x110, 0x111, 0x112] (fnRequester x.fn)).complete c 0x0701 0 0 (leBytes 8 base)))

/-- CAP_CLOSE (R348, R451). Without a session on the job there is nothing to close: CMD_STATE. -/
def execCapClose (c : Call) (job : Nat) (s : State) : Host.Outcome State Fault Refusal :=
  .next (s.jobGate c 0x0702 job true (fun s =>
    if s.cap.job = some job then s.capEnd.reply c 0x0702 0 else s.reply c 0x0702 0x0015))

/-! ### Lanes (R453) -/

/-- LANE_STAT.state of a lane's state (R311). -/
def LaneState.code : LaneState → Nat
  | .off => 0 | .waitSignal => 1 | .align => 2 | .train => 3 | .measure => 4 | .operational => 5 | .failed => 6 | .test => 7

/-- Some lane of a mask is bound to a job. -/
def State.anyBound (s : State) (lanes : BitVec 64) : Bool := (lanesOf lanes).any (fun n => (s.laneJob n).isSome)

/-- A lane brought up by command: taken to OFF, its parameters written, and started (R306, R453). A lane whose domain is off has no
page to write. -/
def State.laneStart (s : State) (n coding reach preset : Nat) (auto : Bool) (lambda : Nat) : State :=
  if !s.domainOn (64 + n / 16) then s
  else
    let s := s.laneTo n .off 0
    let ctl := 1 + boolNat auto * 2 + coding * 4 + reach * 16 + s.fld (laneAt n 0x40) 7 6 * 64
    let s := (s.setReg (laneAt n 0x40) (BitVec.ofNat 32 ctl)).setFld (laneAt n 0x48) 9 0 lambda
    (s.setFld (laneAt n 0x5C) 2 0 preset).laneCtl n

/-- LANE_UP (R453); when its timeout expires is held in flat time. -/
def execLaneUp (c : Call) (lanes : BitVec 64) (coding reach preset : Nat) (autoRetrain : Bool) (lambda pkg : Nat) (timeoutMs : Nat)
    (s : State) : Host.Outcome State Fault Refusal :=
  let ok := decide (coding < 3) && decide (reach < 2) && decide (preset < 8) && decide (16 ≤ lambda) && decide (lambda ≤ 1023) &&
    (decide (pkg < 32) || pkg == 0xFF) && decide (timeoutMs ≤ 10000)
  .next (s.gate c 0x0801 ok (fun s =>
    let newId := pkg != 0xFF && pkg != s.fld (laneGroupAt 0 0x44) 4 0
    if s.anyBound lanes then s.reply c 0x0801 0x0801
    else if newId && (List.range 64).any (fun n => (s.lane n).state != .off) then s.reply c 0x0801 0x0015
    else
      let s := if pkg = 0xFF then s else s.setFld (laneGroupAt 0 0x44) 4 0 pkg
      let s := (lanesOf lanes).foldl (fun s n => s.laneStart n coding reach preset autoRetrain lambda) s
      (s.await { call := c, op := 0x0801, lanes := lanes
                 arg := s.flat + (if timeoutMs = 0 then 100 else timeoutMs) * 1000000 }).laneUpDone))

/-- LANE_UP_TIMEOUT (R453): of the LANE_UP commands the one whose timeout expires first, the oldest among equals, completes with its
lanes as they stand. -/
def execLaneUpTimeout (s : State) : Host.Outcome State Fault Refusal :=
  if !s.fwUp then .next s else
  let ups := s.theham.waiting.filter (fun w => w.op == 0x0801)
  match ups.find? (fun w => ups.all (fun x => decide (w.arg ≤ x.arg))) with
  | some w =>
    let s := { s with theham := { s.theham with waiting := s.theham.waiting.erase w } }
    .next (s.complete w.call 0x0801 0x0802 0 (leBytes 8 (s.operMask w.lanes)))
  | none => .next s

/-- LANE_DOWN (R306, R453). -/
def execLaneDown (c : Call) (lanes : BitVec 64) (s : State) : Host.Outcome State Fault Refusal :=
  .next (s.gate c 0x0802 true (fun s =>
    if s.anyBound lanes then s.reply c 0x0802 0x0801
    else ((lanesOf lanes).foldl (fun s n => (s.setFlag (laneAt n 0x40) 0 false).laneCtl n) s).reply c 0x0802 0))

/-- The status record of a lane (R453). -/
def State.laneRecord (s : State) (n : Nat) : List Byte :=
  let l := s.lane n
  let st := s.reg (laneAt n 0x44)
  leBytes 1 l.state.code ++ leBytes 1 l.failCode ++ leBytes 1 (natBits st.toNat 18 14) ++ leBytes 1 (natBits st.toNat 13 8) ++
    leBytes 1 (s.fld (laneAt n 0x54) 7 0) ++ leBytes 1 (s.fld (laneAt n 0x54) 15 8) ++ leBytes 2 (s.fld (laneAt n 0x48) 25 16) ++
    leBytes 2 (s.fld (laneAt n 0x48) 9 0) ++ leBytes 1 (boolNat (natBit st.toNat 3) + 2 * boolNat (s.laneJob n).isSome) ++
    leBytes 1 (s.fld (laneAt n 0x50) 20 15) ++ leBytes 4 (s.reg (laneAt n 0x64)).toNat

/-- LANE_STATUS (R453). LANE_CW_LOST is read, and a read clears it (R10). -/
def execLaneStatus (c : Call) (buffer : BitVec 64) (s : State) : Host.Outcome State Fault Refusal :=
  .next (s.gate c 0x0803 (aligned64 buffer.toNat) (fun s =>
    if !bufFits c.ring buffer.toNat 1024 then s.reply c 0x0803 0x0017
    else
      let bs := (List.range 64).flatMap (fun n => if s.seesLane c.ring n then s.laneRecord n else List.replicate 16 0)
      let s := (List.range 64).foldl (fun s n => if s.seesLane c.ring n then s.setReg (laneAt n 0x64) 0 else s) s
      s.answer c 0x0803 buffer.toNat bs 0 []))

/-! ### Time (R323, R453) -/

/-- TIME_PTP_ON (R323, R453): firmware takes the TIME page. -/
def execTimePtpOn (c : Call) (lanes : BitVec 64) (domain pps : Nat) (asymmetry : BitVec 64) (s : State) :
    Host.Outcome State Fault Refusal :=
  .next (s.gate c 0x0901 (decide (domain < 256) && (decide (pps < 4) || pps == 0xFF) && aligned64 asymmetry.toNat) (fun s =>
    if (lanesOf lanes).any (fun n => (s.lane n).state != .operational) then s.reply c 0x0901 0x0015
    else if asymmetry ≠ 0 && !bufFits c.ring asymmetry.toNat 512 then s.reply c 0x0901 0x0017
    else if asymmetry ≠ 0 && !c.dmaOk then s.reply c 0x0901 0x0014
    else
      let bs := s.bufRead c.ring asymmetry.toNat 512
      let asym := (List.range 64).map (fun n => if asymmetry = 0 then 0 else BitVec.ofNat 64 (leNat ((bs.drop (8 * n)).take 8)))
      let s := { s with time := { s.time with ptp := some { lanes := lanes, domain := domain, pps := pps, asym := asym, first := true } } }
      (s.setOwner 7 .fw).ptpPoll.reply c 0x0901 0))

/-- TIME_PTP_OFF (R453). -/
def execTimePtpOff (c : Call) (s : State) : Host.Outcome State Fault Refusal :=
  .next (s.gate c 0x0902 true (fun s =>
    ({ s with time := { s.time with ptp := none } }.setOwner 7 .pf).reply c 0x0902 0))

/-- TIME_PTP_STATUS (R453). The mean path delay is that of the parent's lane. -/
def execTimePtpStatus (c : Call) (s : State) : Host.Outcome State Fault Refusal :=
  .next (s.gate c 0x0903 true (fun s =>
    match s.time.ptp with
    | none => s.complete c 0x0903 0 0 []
    | some p =>
      let d := p.dataset
      let state := if p.parent.isSome then 2 else if p.master then 3 else 1
      s.complete c 0x0903 0 0 (leBytes 1 state ++ leBytes 1 (p.parent.getD 0) ++ List.replicate 6 0 ++
        leBytes 8 (unsignedOf 64 p.offset) ++ leBytes 8 (unsignedOf 64 (Sparse.get 0 p.delays (p.parent.getD 0))) ++
        (d.drop 6).take 8 ++ leBytes 2 (bodyGet d 14 2 + boolNat p.parent.isSome))))

/-- TIME_UNIT (R319, R320, R453): firmware writes the unit's registers. -/
def execTimeUnit (c : Call) (unit : Nat) (target : BitVec 64) (period control : BitVec 32) (s : State) :
    Host.Outcome State Fault Refusal :=
  .next (s.gate c 0x0904 (decide (unit < 12)) (fun s =>
    if !s.domainOn 77 then s.reply c 0x0904 0x0015
    else if unit < 8 then
      let r := timeAt (0x100 + 0x10 * unit)
      let s := (s.setReg64 r target.toNat).setReg (r + 8) period
      (s.storeWord .fw (r + 0xC) control).1.reply c 0x0904 0
    else (s.storeWord .fw (timeAt (0x200 + 0x10 * (unit - 8))) control).1.reply c 0x0904 0))

/-- TIME_ARM (R315, R453). -/
def execTimeArm (c : Call) (s : State) : Host.Outcome State Fault Refusal :=
  .next (s.gate c 0x0905 true (fun s => s.timeArmCmd.reply c 0x0905 0))

end Sys2Proof.Machine
end

