-- ==== Sys2Proof/Machine/Security.lean ====
section
/-! DEFINITION. The security, log, scoreboard and update commands (R410–R413, R417–R420, R423, R426, R430, R454–R456). -/

namespace Sys2Proof.Machine

/-- The 64 bytes of a key or signature, byte `i` in bits `[8i + 7:8i]`. -/
def bytes512 (v : BitVec 512) : List Byte := leBytes 64 v.toNat

/-- 64 bytes as a key or signature. -/
def of512 (bs : List Byte) : BitVec 512 := BitVec.ofNat 512 (leNat (bs.take 64))

/-- A buffer of fixed size that a command reads: aligned, within the ring's window, and reachable (R435, R438). -/
def State.withBuffer (s : State) (c : Call) (op addr n : Nat) (body : List Byte → State) : State :=
  if !bufFits c.ring addr n then s.reply c op 0x0017
  else if !c.dmaOk then s.reply c op 0x0014
  else body (s.bufRead c.ring addr n)

/-! ### Keys (R411, R412, R455) -/

/-- SEC_OWNER (R411, R412): the owner key's digest is fused, once. -/
def execSecOwner (c : Call) (buffer : BitVec 64) (s : State) : Host.Outcome State Fault Refusal :=
  .next (s.gate c 0x0A01 (aligned64 buffer.toNat) (fun s =>
    if s.theham.owner.isSome then s.reply c 0x0A01 0x0A03
    else s.withBuffer c 0x0A01 buffer.toNat 64 (fun key =>
      { s with theham := { s.theham with owner := some (Config.sm3 key) } }.reply c 0x0A01 0)))

/-- The key store as it is measured (R417): its enrolment count and its keys by slot. -/
def Theham.keyStore (t : Theham) : List Byte :=
  leBytes 4 t.enrol ++ (List.range 8).flatMap (fun i => bytes512 ((Sparse.get none t.imgKeys i).getD 0)) ++
    (List.range 4).flatMap (fun i => bytes512 ((Sparse.get none t.agentKeys i).getD 0))

/-- An enrolment record's fields are in range and its reserved bytes 0 (R455). -/
def recordOk (r : List Byte) (op : Nat) : Bool :=
  let kind := (r.getD 100 0).toNat
  let slot := (r.getD 101 0).toNat
  decide (kind < 2) && decide (slot < if kind = 0 then 8 else 4) && (r.getD 102 0).toNat == op &&
    ((r.drop 103).take 25).all (· == 0) && (op == 1 || (r.take 64).all (· == 0))

/-- An enrolment record is for this device and the next count, and its signature holds or is not asked for (R412, R455). -/
def State.recordSigned (s : State) (r : List Byte) : Bool :=
  let t := s.theham
  let mine := (r.drop 64).take 32 == leBytes 32 (Config.sm3 identityKey).toNat
  let next := leNat ((r.drop 96).take 4) == t.enrol + 1
  let signed := match t.owner with
    | some d => Config.sm2Verify (Config.keyOfDigest d) (Config.sm3 (r.take 128)) (of512 (r.drop 128))
    | none => r.getD 100 0 == 0
  mine && next && signed

/-- The key store changed (R410, R417): the slot named takes a key or none, the count rises, and MR7 is extended. -/
def State.enrol (s : State) (kind slot : Nat) (key : Option (BitVec 512)) : State :=
  let t := s.theham
  let t := if kind = 0 then { t with imgKeys := Sparse.set none t.imgKeys slot key }
    else { t with agentKeys := Sparse.set none t.agentKeys slot key }
  let t := { t with enrol := t.enrol + 1 }
  { s with theham := t }.extendMr 7 (Config.sm3 t.keyStore)

/-- SEC_KEY_SET and SEC_KEY_CLEAR: operation 1 or 2 of a signed enrolment record (R410, R412, R454, R455). -/
def State.keyCommand (s : State) (c : Call) (op kindOp : Nat) (buffer : Nat) : State :=
  s.withBuffer c op buffer 192 (fun r =>
    let kind := (r.getD 100 0).toNat
    let slot := (r.getD 101 0).toNat
    if !recordOk r kindOp then s.reply c op 0x0011
    else if !s.recordSigned r then s.reply c op 0x0A01
    else
      let held := Sparse.get none (if kind = 0 then s.theham.imgKeys else s.theham.agentKeys) slot
      if kindOp = 2 ∧ held = none then s.reply c op 0x0A02
      else if 1000 ≤ s.theham.enrol then s.reply c op 0x0B01
      else (s.enrol kind slot (if kindOp = 1 then some (of512 r) else none)).reply c op 0)

/-- SEC_KEY_SET (R454, R455). -/
def execSecKeySet (c : Call) (buffer : BitVec 64) (s : State) : Host.Outcome State Fault Refusal :=
  .next (s.gate c 0x0A02 (aligned64 buffer.toNat) (fun s => s.keyCommand c 0x0A02 1 buffer.toNat))

/-- SEC_KEY_CLEAR (R454, R455). -/
def execSecKeyClear (c : Call) (buffer : BitVec 64) (s : State) : Host.Outcome State Fault Refusal :=
  .next (s.gate c 0x0A03 (aligned64 buffer.toNat) (fun s => s.keyCommand c 0x0A03 2 buffer.toNat))

/-! ### Attestation and identity (R413, R418) -/

/-- The signed part of an attestation report (R418). -/
def State.reportBody (s : State) (nonce : BitVec 256) : List Byte :=
  let t := s.theham
  let flags := boolNat t.owner.isSome + 2 * boolNat s.recovery + 4 * boolNat (s.flag (PageKind.dev.at 0x44) 3) + 8 * (t.slotsUsed % 64)
  leBytes 4 0x41543451 ++ leBytes 2 1 ++ leBytes 2 0x300 ++ leBytes 32 nonce.toNat ++ identityKey ++ leBytes 8 s.flat ++
    leBytes 4 flags ++ (List.range 5).flatMap (fun i => leBytes 1 ((t.versionOf i).getD 0)) ++ [0, 0, 0] ++ leBytes 4 0 ++
    (List.range 16).flatMap (fun i => leBytes 32 (Sparse.get 0 t.mr i).toNat) ++
    (List.range 16).flatMap (fun i => leBytes 4 (Sparse.get 0 t.mrCount i))

/-- SEC_ATTEST (R418, R454). -/
def execSecAttest (c : Call) (nonce : BitVec 256) (buffer : BitVec 64) (s : State) : Host.Outcome State Fault Refusal :=
  .next (s.gate c 0x0A04 (aligned64 buffer.toNat) (fun s =>
    if !bufFits c.ring buffer.toNat 768 then s.reply c 0x0A04 0x0017
    else
      let body := s.reportBody nonce
      let sig := Config.sm2Sign (Config.sm3 body) s.free
      { s with free := s.free + 1 }.answer c 0x0A04 buffer.toNat (body ++ bytes512 sig) 0 []))

/-- SEC_IDENTITY (R413, R454). -/
def execSecIdentity (c : Call) (buffer : BitVec 64) (capacity : Nat) (s : State) : Host.Outcome State Fault Refusal :=
  .next (s.gate c 0x0A05 (aligned64 buffer.toNat) (fun s =>
    let n := 64 + Config.certificateLen
    if capacity < n || !bufFits c.ring buffer.toNat n then s.reply c 0x0A05 0x0017
    else s.answer c 0x0A05 buffer.toNat (identityKey ++ (List.range Config.certificateLen).map Config.certificate) n []))

/-! ### The event log (R423, R426, R430, R454) -/

/-- The 32 bytes of a log entry (R423). -/
def LogEntry.bytes (e : LogEntry) : List Byte :=
  leBytes 8 e.ns ++ leBytes 2 e.code ++ leBytes 2 e.source ++ leBytes 1 e.job ++ leBytes 1 e.sev ++ leBytes 2 e.seqNo ++
    (List.range 4).flatMap (fun i => leBytes 4 (e.detail.getD i 0).toNat)

/-- An event source is routed to a caller: to its function (R426, R430). -/
def State.routedTo (s : State) (r : Ring) (source : Nat) : Bool := s.fld (evtRoute source) 5 0 == s.callerFn r

/-- The entries that a caller may read, flash first (R423, R454). -/
def State.logHeld (s : State) (r : Ring) : List LogEntry :=
  let t := s.theham
  (t.flash.flatten ++ t.log.filter (fun e => !t.flash.flatten.contains e)).filter (fun e => !s.callerIsVf r || s.routedTo r e.source)

/-- A caller's cursor: the number of the entry it reads next. -/
def Theham.cursor (t : Theham) (r : Ring) : Nat := ((t.cursors.find? (fun x => x.1 == r)).map (·.2)).getD 0

/-- LOG_READ (R423, R454): from the oldest entry held or from the caller's cursor, which advances. The entries lost are those between
the cursor and the oldest held. -/
def execLogRead (c : Call) (fromCursor : Bool) (maxEntries : Nat) (buffer : BitVec 64) (s : State) : Host.Outcome State Fault Refusal :=
  .next (s.gate c 0x0B01 (aligned64 buffer.toNat) (fun s =>
    let t := s.theham
    let cur := t.cursor c.ring
    let held := s.logHeld c.ring
    let es := (if fromCursor then held.filter (fun e => decide (cur ≤ e.seqNo)) else held).take maxEntries
    let first := ((t.flash.flatten ++ t.log).head?.map LogEntry.seqNo).getD t.logSeq
    let lost := first - cur
    if !bufFits c.ring buffer.toNat (32 * es.length) then s.reply c 0x0B01 0x0017
    else
      let next := es.foldl (fun n e => max n (e.seqNo + 1)) (max cur first)
      let s := { s with theham := { t with cursors := t.cursors.filter (fun (x : Ring × Nat) => x.1 != c.ring) ++ [(c.ring, next)] } }
      s.answer c 0x0B01 buffer.toNat (es.flatMap LogEntry.bytes) es.length (leBytes 4 lost)))

/-- EVT_PEND_w (R430). -/
def evtPend (w : Nat) : Nat := PageKind.evt.at (0x40 + 4 * w)

/-- LOG_ACK (R426, R454). -/
def execLogAck (c : Call) (first : Nat) (mask : BitVec 64) (s : State) : Host.Outcome State Fault Refusal :=
  .next (s.gate c 0x0B02 (first % 64 == 0 && decide (first < 512)) (fun s =>
    let hit := fun (i : Nat) => mask.getLsbD i && s.routedTo c.ring (first + i) && s.flag (evtPend ((first + i) / 32)) (i % 32)
    let s' := (List.range 64).foldl (fun t i => if hit i then t.setFlag (evtPend ((first + i) / 32)) (i % 32) false else t) s
    s'.complete c 0x0B02 0 0 (leBytes 8 (mask64 hit))))

/-- LOG_ROUTE (R430, R454). -/
def execLogRoute (c : Call) (source : Nat) (value : BitVec 32) (s : State) : Host.Outcome State Fault Refusal :=
  .next (s.gate c 0x0B03 (decide (source < 512) && decide (value.toNat < 65536)) (fun s =>
    if s.callerIsVf c.ring && !(s.routedTo c.ring source && natBits value.toNat 5 0 == s.callerFn c.ring) then s.reply c 0x0B03 0x0012
    else (s.setReg (evtRoute source) value).reply c 0x0B03 0))

/-- SCORE_READ (R424, R456). -/
def execScoreRead (c : Call) (offset len : Nat) (buffer : BitVec 64) (s : State) : Host.Outcome State Fault Refusal :=
  .next (s.gate c 0x0B04 (aligned64 buffer.toNat && decide (offset + len ≤ 15512)) (fun s =>
    if !bufFits c.ring buffer.toNat len then s.reply c 0x0B04 0x0017
    else
      let word := fun (i : Nat) => leBytes 4 (Sparse.get 0 s.theham.score i)
      s.answer c 0x0B04 buffer.toNat ((List.range len).map (fun i => (word ((offset + i) / 4)).getD ((offset + i) % 4) 0)) 0 []))

/-! ### Updates (R410, R419, R420, R454) -/

/-- The bytes that a package of a type may have: its partition's size (R409). -/
def packageRoom (kind : Nat) : Nat := (flashPartition kind false).2

/-- The public keys that may have signed a package of a type (R411, R412): the root's for directories, patches, features and trim, the
owner's, until one is fused the root's, for the configuration and the agent, the enrolled agent-signing keys for the agent, and for the
auto-load image the root's, the owner's and the image-signing keys (assumption 127). -/
def Theham.signers (t : Theham) (kind : Nat) : List (BitVec 512) :=
  let root := Config.keyOfDigest Config.rootDigest
  let owner := (t.owner.map Config.keyOfDigest).getD root
  match kind with
  | 1 => [owner]
  | 3 => owner :: t.agentKeys.filterMap (·.2)
  | 5 => root :: owner :: t.imgKeys.filterMap (·.2)
  | _ => [root]

/-- A package of a type verifies (R411, R419): its header's type, which the trim partition has none of, length and digest, and its
signature by one of its signers. -/
def State.packageOk (s : State) (kind : Nat) (bs : List Byte) : Bool :=
  let body := Config.packageBody bs
  let h := Config.packageHeader bs
  !bs.isEmpty && (kind == 6 || h.1 == kind) && h.2.1 == body.length && h.2.2 == Config.sm3 body &&
    (s.theham.signers kind).any (fun key => Config.sm2Verify key (Config.sm3 (Config.packageSigned bs)) (Config.packageSignature bs))

/-- A package's version is not below the fused minimum of its type (R419). -/
def State.versionOk (s : State) (kind : Nat) (bs : List Byte) : Bool :=
  decide (Sparse.get 0 s.theham.minimum kind ≤ (Config.packageVersion bs).toNat)

/-- The pending updates activated by a warm boot (R420): each is verified in its slot, else the old slot is used with BOOT_FALLBACK. -/
def State.activateUpdates (s : State) : State :=
  let us := s.theham.toBoot
  let s := { s with theham := s.theham.activate }
  let s := us.foldl (fun s u =>
    if s.packageOk u.kind (s.theham.part u.kind (natBit s.theham.slotsUsed u.kind)) then s
    else match s.theham.older.find? (fun o => o.kind == u.kind) with
      | some o => ({ s with theham := s.theham.revert o }.setFlag (PageKind.dev.at 0x44) 3 true).thehamEvent 0x0A05 []
      | none => s) s
  us.foldl (fun s u => { s with theham := s.theham.reread u.kind }) s

/-- The state with the open update changed. -/
def State.setUpdate (s : State) (u : Option Update) : State := { s with theham := { s.theham with update := u } }

/-- An update command that only the opener may send (R454): refused while another ring's update is open, and with a code of its own
where none is. -/
def State.updateGate (s : State) (c : Call) (op none_ : Nat) (body : Update → State) : State :=
  match s.theham.update with
  | some u => if u.ring = c.ring then body u else s.reply c op 0x0C01
  | none => s.reply c op none_

/-- UPD_BEGIN (R420, R454): an update opens into the inactive slot, whose pending package of the same type it replaces. -/
def execUpdBegin (c : Call) (kind len : Nat) (s : State) : Host.Outcome State Fault Refusal :=
  .next (s.gate c 0x0C01 (decide (kind < 6) && decide (len ≤ packageRoom kind)) (fun s =>
    if s.theham.update.isSome then s.reply c 0x0C01 0x0C01
    else
      let s := { s with theham := { s.theham with toBoot := s.theham.toBoot.filter (fun u => u.kind != kind) } }
      (s.setUpdate (some { kind := kind, len := len, ring := c.ring, data := [], version := none })).reply c 0x0C01 0))

/-- UPD_DATA (R454): at most 65,536 bytes, 4,096 on the board controller's ring. -/
def execUpdData (c : Call) (offset len : Nat) (buffer : BitVec 64) (s : State) : Host.Outcome State Fault Refusal :=
  let most := if c.ring = .bmc then 4096 else 65536
  .next (s.gate c 0x0C02 (aligned64 buffer.toNat && decide (1 ≤ len) && decide (len ≤ most)) (fun s =>
    s.updateGate c 0x0C02 0x0C02 (fun u =>
      if u.len < offset + len then s.reply c 0x0C02 0x0C02
      else s.withBuffer c 0x0C02 buffer.toNat len (fun bs =>
        (s.setUpdate (some { u with data := u.data.putBytes offset bs })).reply c 0x0C02 0))))

/-- The slot that an update of a type goes to, as a key of the write counts: the inactive one. -/
def Theham.writeSlot (t : Theham) (kind : Nat) : Nat := kind * 2 + (if kind < 4 ∧ !natBit t.slotsUsed kind then 1 else 0)

/-- UPD_FINISH (R410, R419, R420, R454): the package is written to the inactive slot, verified and marked pending. Where a type has one
slot only, it waits beside it. -/
def execUpdFinish (c : Call) (s : State) : Host.Outcome State Fault Refusal :=
  .next (s.gate c 0x0C03 true (fun s =>
    s.updateGate c 0x0C03 0x0C03 (fun u =>
      let t := s.theham
      let bs := u.bytes 0 u.len
      let v := (Config.packageVersion bs).toNat
      let n := Sparse.get 0 t.writes (t.writeSlot u.kind)
      if 1000 ≤ n then (s.setUpdate none).reply c 0x0C03 0x0B01
      else
        let t := { t with writes := Sparse.set 0 t.writes (t.writeSlot u.kind) (n + 1), update := none }
        let s := { s with theham := if u.kind < 4 then t.setPart u.kind (!natBit t.slotsUsed u.kind) bs else t }
        if !s.packageOk u.kind bs then s.reply c 0x0C03 0x0A01
        else if !s.versionOk u.kind bs then s.reply c 0x0C03 0x0A04
        else
          let s := { s with theham := { s.theham with toBoot := s.theham.toBoot ++ [{ u with version := some v }] } }
          s.complete c 0x0C03 0 0 (leBytes 1 v))))

/-- UPD_ACTIVATE (R406, R420): a warm boot into the pending slots, without the whistle, while no job runs. -/
def execUpdActivate (c : Call) (s : State) : Host.Outcome State Fault Refusal :=
  .next (s.gate c 0x0C04 true (fun s =>
    if s.theham.toBoot = [] then s.reply c 0x0C04 0x0C03
    else if s.anyLive then s.reply c 0x0C04 0x0C04
    else s.activateUpdates.warmBoot.reply c 0x0C04 0))

/-- UPD_COMMIT (R420, R454): the fused minimum of a type rises to the version that a boot has run and brought to READY. -/
def execUpdCommit (c : Call) (kind : Nat) (s : State) : Host.Outcome State Fault Refusal :=
  .next (s.gate c 0x0C05 (decide (kind < 6)) (fun s =>
    let t := s.theham
    match t.versionOf kind with
    | some b =>
      if s.recovery then s.reply c 0x0C05 0x0C05
      else
        let v := max b (Sparse.get 0 t.minimum kind)
        { s with theham := { t with minimum := Sparse.set 0 t.minimum kind v } }.complete c 0x0C05 0 0 (leBytes 1 v)
    | none => s.reply c 0x0C05 0x0C05))

/-- UPD_ABORT (R454): the caller's open update is discarded, else the pending ones. -/
def execUpdAbort (c : Call) (s : State) : Host.Outcome State Fault Refusal :=
  .next (s.gate c 0x0C06 true (fun s =>
    match s.theham.update with
    | some u => if u.ring = c.ring then (s.setUpdate none).reply c 0x0C06 0 else s.reply c 0x0C06 0x0C01
    | none =>
      if s.theham.toBoot = [] then s.reply c 0x0C06 0x0C03
      else { s with theham := { s.theham with toBoot := [] } }.reply c 0x0C06 0))

end Sys2Proof.Machine
end

