-- ==== Sys2Proof/Machine/Debug.lean ====
section
/-! DEFINITION. Debug and trace (R462–R483): unlock, the package halt's end, user-core monitor mode, the message channel, and the trace
rows. -/

namespace Sys2Proof.Machine

/-! ### Unlock (R464, R465) -/

/-- DBG_AUTH_CMD op 1 (R464): a challenge of 32 random bytes, or DBG_AUTH_FAIL after eight failures. -/
def State.authChallenge (s : State) (rq : Requester) : State :=
  if 8 ≤ s.fld (dbgAt 0x44) 11 8 then s.pgErr 0xA 0x01A1 rq 0x100
  else
    let c := Config.random s.free
    let s := { s with free := s.free + 1 }
    let s := (List.range 8).foldl (fun s i => s.setReg (dbgAt (0x120 + 4 * i)) (BitVec.ofNat 32 (c.toNat / 2 ^ (32 * i)))) s
    s.setFlag (dbgAt 0x104) 0 true

/-- DBG_AUTH_CMD op 2 (R464): verification of the response for a scope starts. -/
def State.authVerify (s : State) (rq : Requester) (scope : Nat) : State :=
  if s.flag (dbgAt 0x104) 1 then s
  else { s.setFlag (dbgAt 0x104) 1 true with dbg := { s.dbg with scope := scope, who := rq } }

/-- The unlock ends (R465). -/
def State.authLock (s : State) : State := s.setFld (dbgAt 0x44) 2 0 0

/-- The bytes of consecutive register words. -/
def State.regBytes (s : State) (addr n : Nat) : List Byte := (List.range n).flatMap (fun i => leBytes 4 (s.reg (addr + 4 * i)).toNat)

/-- The response verifies (R412, R464): SM3 of challenge, SM3 of the identity key and the scope byte, under the owner key or, on an open
device, the root key. -/
def State.authHolds (s : State) : Bool :=
  let msg := s.regBytes (dbgAt 0x120) 8 ++ leBytes 32 (Config.sm3 identityKey).toNat ++ leBytes 1 s.dbg.scope
  s.flag (dbgAt 0x104) 0 &&
    Config.sm2Verify (Config.keyOfDigest (s.theham.owner.getD Config.rootDigest)) (Config.sm3 msg) (of512 (s.regBytes (dbgAt 0x140) 16))

/-- A Theham log entry (R425, R464). -/
def State.thehamLog (s : State) (code : Nat) : State := s.logEvent (thehamSource code) code 0xFF (Config.severity code).toNat []

/-- The code under which an unlock is logged: none is assigned. -/
def unlockCode : Nat := (Config.irqCode (348 * 32 + 31)).toNat

/-- DBG_AUTH_VERIFY_DONE (R464): unlocked, or DBG_AUTH_FAIL. Both are logged. -/
def execDbgAuthVerifyDone (s : State) : Host.Outcome State Fault Refusal :=
  if !s.flag (dbgAt 0x104) 1 then .next s
  else
    let t := s.setFlag (dbgAt 0x104) 1 false
    if s.authHolds then .next ((t.setFld (dbgAt 0x44) 2 0 (1 + 2 * (s.dbg.scope % 4))).thehamLog unlockCode)
    else .next (((t.setFlag (dbgAt 0x104) 0 false).bump (dbgAt 0x44) 11 8 1).pgErr 0xA 0x01A1 s.dbg.who 0x100 |>.thehamLog 0x01A1)

/-- DBG_CHALLENGE_EXPIRE (R464). -/
def execDbgChallengeExpire (s : State) : Host.Outcome State Fault Refusal := .next (s.setFlag (dbgAt 0x104) 0 false)

/-! ### The end of the package halt (R467) -/

/-- A reason for a halt that ends with the package halt. -/
def HaltWhy.ofPackage : HaltWhy → Bool
  | .pkg | .whistle => true
  | _ => false

/-- A job at the end of the package halt (R467). -/
def State.packageFree (s : State) (j : Nat) : State :=
  let x := s.job j
  let asked := match x.haltReq with
    | some w => w.ofPackage
    | none => false
  let stood := match x.haltedBy with
    | some w => w.ofPackage
    | none => false
  if !x.live then s
  else
    let s := if asked then s.setJob j { x with haltReq := none } else s
    if stood && !x.failed && !s.waits j 0x0402 && !s.runBlocked j then s.resumeJob j else s

/-- REF_CNT_CLR (R202): for each bit r, REF_GRANT_r, REF_WAIT_r and REF_MAXWAIT_r. -/
def State.clearCounts (s : State) (n v : Nat) : State :=
  (List.range 24).foldl (fun s r =>
    if natBit v r then ((s.setReg (refAt n (0x100 + 0x10 * r)) 0).setReg (refAt n (0x104 + 0x10 * r)) 0).setReg (refAt n (0x108 + 0x10 * r)) 0
    else s) s

/-- GPIO_SET, GPIO_CLR and GPIO_TGL (R491): the bits of GPIO_OUT. -/
def State.cmdGpio (s : State) (off : Nat) (v : Word) : State :=
  let out := gpioAt (0x50 + off % 16)
  if off % 16 < 12 then
    match off / 16 with
    | 6 => s.setReg out (s.reg out ||| v)
    | 7 => s.setReg out (s.reg out &&& ~~~v)
    | 8 => s.setReg out (s.reg out ^^^ v)
    | _ => s
  else s

/-- What a write to a register of a REF or GPIO page brings about beside the bits it stores. -/
def State.blockEffect (s : State) (addr : Nat) (t : Word) : State :=
  match pageOf (pageNo addr) with
  | some (.ref, n) => if addr % 0x1000 = 0x54 then s.clearCounts n t.toNat else s
  | some (.gpio, _) => s.cmdGpio (addr % 0x1000) t
  | _ => s

/-- The order of the effect classes in which the writes to a frozen page apply: static, staged, live (R42, R43, R46, R469; DESIGN CHOICE,
assumption 129). -/
def effRank : Eff → Nat
  | .static => 0
  | .staged => 1
  | .live | .none => 2

/-- The part of a waiting write of one effect class applies (R469). -/
def State.thawWrite (s : State) (rank : Nat) : FrozenWrite → State
  | .held w => if rank = 1 then s.applyOver (pageNo w.addr) [w] else s
  | .word rq addr v liveOnly =>
    if addr % 0x1000 < 0x40 then if rank = 2 then s.writeHeader rq (pageNo addr) (addr % 0x1000) v else s
    else if liveOnly && rank != 2 then s
    else
      let (t, took) := s.storeWord rq addr v (fun e => effRank e == rank)
      t.blockEffect addr (v &&& took)

/-- A frozen page unfreezes, and what was written to it applies, class by class (R467, R469). -/
def State.thaw (s : State) (p : Nat) : State :=
  let d := s.page p
  if !d.frozen then s
  else
    let s := s.setPage p { d with frozen := false, waits := [] }
    let s := if 0x20 ≤ p ∧ p < 0xA0 then s.refResume (p - 0x20) else s
    (List.range 3).foldl (fun s rank => d.waits.foldl (fun s w => s.thawWrite rank w) s) s

/-- DBG_RC_CMD.resume (R467): refused with RUN_BLOCKED while the whistle is active. -/
def State.packageResume (s : State) (rq : Requester) : State :=
  if s.flag whistleReg 0 then s.pgErr 0xA 0x0402 rq 0x48
  else if !s.pkgHalt then s
  else
    let s := { freezePages.foldl State.thaw s with pkgHalt := false }
    (List.range 64).foldl State.packageFree (s.setFlag (dbgAt 0x4C) 2 false)

/-! ### Monitor mode (R470–R473) -/

/-- A halt request for the user core (R470, R473): a debug event, put off while the core holds a reservation. -/
def State.ucHalt (s : State) (pc : Word) (mode : Nat) (reserved : Bool) : State :=
  if reserved then s.deferHalt 1 else s.debugEvent 1 0 pc mode

/-- EBREAK (R470). -/
def execEbreak (pc : BitVec 32) (mode : BitVec 2) (s : State) : Host.Outcome State Fault Refusal :=
  .next (if s.flag (dbgAt 0x54) 4 then s.debugEvent 2 0 pc mode.toNat else s.emit .ucBreak)

/-- An instruction comparator matches a pc (R470): enabled, and its address, of which bit 0 is no part. -/
def State.bpMatch (s : State) (n : Nat) (pc : Word) : Bool :=
  decide (n < 4) && s.flag (dbgAt (0x80 + 8 * n)) 0 && s.fld (dbgAt (0x80 + 8 * n)) 31 1 == pc.toNat / 2

/-- A data comparator matches an access (R470): enabled for its kind, on the address with the low mask bits ignored. -/
def State.wpMatch (s : State) (n : Nat) (store : Bool) (addr : Word) : Bool :=
  let c := dbgAt (0xA4 + 8 * n)
  let size := 2 ^ s.fld c 7 3
  decide (n < 2) && s.flag c 0 && s.flag c (if store then 2 else 1) && addr.toNat / size == (s.reg (dbgAt (0xA0 + 8 * n))).toNat / size

/-- COMPARATOR_MATCH (R462, R470): a comparator decides on an instruction about to execute or on an access; a match is a debug event. -/
def execComparatorMatch (what : Compared) (n : Nat) (pc : BitVec 32) (mode : BitVec 2) (s : State) : Host.Outcome State Fault Refusal :=
  .next (match what with
    | .instr => if s.bpMatch n pc then s.debugEvent 3 n pc mode.toNat else s
    | .access store addr => if s.wpMatch n store addr then s.debugEvent 4 n pc mode.toNat else s)

/-- An interrupt of the message channel holds (R474): 513 RX filled to its threshold, 514 TX empty with tx_ie. -/
def State.dccHolds (s : State) (source : Nat) : Bool :=
  if source = 513 then decide (s.fld (dbgAt 0xC8) 11 10 + 1 ≤ s.dbg.rx.length)
  else s.flag (dbgAt 0xC8) 16 && s.dbg.tx == []

/-- The interrupts that waited in monitor mode are taken, those of the message channel that still hold among them (R471, R474). -/
def State.ucRelease (s : State) : State :=
  let c := s.dbg.core
  let go := c.irqs.filter (fun i => i < 513 || s.dccHolds i)
  go.foldl (fun s i => s.emit (.ucIrq i)) (s.setCore { c with irqs := [] })

/-- MONITOR_EXIT (R471, R472, R475): the core resumes at dmon_pc in the saved mode, with bit 1 for one step. WDT0, where it stood still,
goes on from at least an eighth of its period. -/
def execMonitorExit (ctl : BitVec 32) (s : State) : Host.Outcome State Fault Refusal :=
  if !s.inMonitor || !natBit ctl.toNat 0 then .next s
  else
    let s := s.setFlag (dbgAt 0x44) 3 false
    let s := if s.flag (wdtAt 0x40) 1 then
        s.setFld (wdtAt 0x44) 23 0 (max (s.fld (wdtAt 0x44) 23 0) (s.fld (wdtAt 0x40) 31 8 / 8))
      else s
    let s := s.setCore { s.dbg.core with pc := s.reg (dbgAt 0x5C), mode := s.fld (dbgAt 0x60) 9 8 }
    .next { s with dbg := { s.dbg with step := natBit ctl.toNat 1 } }.ucRelease

/-- STEP_EVENT (R472). -/
def execStepEvent (pc : BitVec 32) (mode : BitVec 2) (s : State) : Host.Outcome State Fault Refusal :=
  if s.dbg.step then .next ({ s with dbg := { s.dbg with step := false } }.debugEvent 5 0 pc mode.toNat) else .next s

/-! ### The message channel (R474) -/

/-- An interrupt of the message channel comes where it holds and did not before (R471, R474). -/
def State.dccIrq (s : State) (held : Bool) (source : Nat) : State :=
  if s.dccHolds source && !held then s.ucInterrupt source (s.fld (dbgAt 0xC8) 15 12) else s

/-- The oldest TX word removed. -/
def State.txPop (s : State) : State :=
  if s.dbg.tx = [] then s else { s with dbg := { s.dbg with tx := s.dbg.tx.tail } }.dccIrq (s.dccHolds 514) 514

/-- A word pushed into RX (R474). -/
def State.rxPush (s : State) (w : Word) : State :=
  if 4 ≤ s.dbg.rx.length then s.setFlag (dbgAt 0xC8) 9 true
  else { s with dbg := { s.dbg with rx := s.dbg.rx ++ [w] } }.dccIrq (s.dccHolds 513) 513

/-- DCC_TX_PUSH (R462, R474). -/
def execDccTxPush (word : BitVec 32) (s : State) : Host.Outcome State Fault Refusal :=
  if !s.domainOn 82 then .next s
  else if 4 ≤ s.dbg.tx.length then .next (s.setFlag (dbgAt 0xC8) 8 true)
  else .next { s with dbg := { s.dbg with tx := s.dbg.tx ++ [word] } }

/-- DCC_RX_READ (R474): the user core reads the oldest RX word. -/
def execDccRxRead (s : State) : Host.Outcome State Fault Refusal :=
  .next ({ s with dbg := { s.dbg with rx := s.dbg.rx.tail } }.emit (.ucData (s.dbg.rx.headD 0)))

/-! ### Trace (R477–R483) -/

/-- A trace trigger from a source of TRACE_TRIG, and its debug event with TRACE_TRIG.mon (R470, R482). -/
def State.traceTrigger (s : State) (source : Nat) : State :=
  let s := s.traceTriggered source
  if s.flag (traceAt 0x4C) 3 then s.debugEventHere 8 else s

/-- TRACE_TRIGGER (R482): a source that is enabled. -/
def execTraceTrigger (source : TraceTrigSrc) (s : State) : Host.Outcome State Fault Refusal :=
  match source with
  | .debugEvent => .next (if s.flag (traceAt 0x4C) 0 then s.traceTrigger 0 else s)
  | .pin => .next (if s.flag (traceAt 0x4C) 1 then s.traceTrigger 1 else s)
  | .register => .next (s.traceTrigger 2)

/-- TRACE_CMD op 2 (R482). -/
def State.traceEnd (s : State) : State := if s.tracing then s.traceHalt else s

/-- TRACE_WINDOW_DONE (R482): the window's instructions have retired. -/
def execTraceWindowDone (s : State) : Host.Outcome State Fault Refusal :=
  .next (if s.traceState = 2 ∧ s.trace.window = 0 then s.traceHalt else s)

/-- A buffer sink with wrap = 0 is full (R482, R483). -/
def State.traceFull (s : State) : Bool :=
  let sink := s.fld (traceAt 0x44) 5 4
  let size := if sink = 2 then 4194304 else s.fld (traceAt 0x64) 15 0 * 1048576
  decide (2 ≤ sink) && !s.flag (traceAt 0x44) 6 && decide (size ≤ (s.reg (traceAt 0x6C)).toNat)

/-- TRACE_SINK_FULL (R482). -/
def execTraceSinkFull (s : State) : Host.Outcome State Fault Refusal := .next (if s.tracing && s.traceFull then s.traceHalt else s)

/-- UC_SLEEP (R480): the user core's clock stops after `cycles` more cycles. -/
def execUcSleep (cycles : Nat) (s : State) : Host.Outcome State Fault Refusal := .next (s.ucSleep cycles)

/-- UC_WAKE (R479, R480). -/
def execUcWake (pc : BitVec 32) (mode : BitVec 2) (s : State) : Host.Outcome State Fault Refusal := .next (s.ucWake pc mode.toNat)

/-- A conditional-branch outcome joins the open BRANCH packet, which seven close (R478). -/
def State.traceBranch (s : State) (taken : Bool) : State :=
  let s := { s with trace := { s.trace with branch := s.trace.branch ++ [taken] } }
  if 7 ≤ s.trace.branch.length then s.traceClose else s

/-- A TRAP packet and the TARGET of its handler (R478). -/
def State.traceTrap (s : State) (irq : Bool) (cause : BitVec 5) (handler : Word) : State :=
  let s := s.traceClose
  let d := s.traceDelta
  let s := s.tracePacket (traceHead 3 d.length (boolNat irq * 2 ^ 9 + cause.toNat * 2 ^ 4 + boolNat s.traceCycles * 2 ^ 3) :: d)
  s.traceTarget handler

/-- A MEM packet for an access in the data filter (R477, R478). When the encoder leaves the address out is open. -/
def State.traceMem (s : State) (store : Bool) (size : BitVec 2) (addr data : Word) : State :=
  if s.reg (traceAt 0x54) ≤ addr ∧ addr ≤ s.reg (traceAt 0x58) then
    let k := s.free
    let s := { s.traceClose with free := k + 1 }
    let withAddr := Config.freeBit k
    let as := if withAddr then traceUnits 2 addr.toNat else []
    let ds := if size = 2 then traceUnits 2 data.toNat
      else [BitVec.ofNat 16 (if size = 0 then data.toNat % 256 else data.toNat)]
    let d := s.traceDelta
    let ext := as ++ ds ++ d
    s.tracePacket (traceHead 4 ext.length (boolNat store * 2 ^ 9 + size.toNat % 4 * 2 ^ 7 + boolNat withAddr * 2 ^ 6 +
      boolNat s.traceCycles * 2 ^ 5) :: ext)
  else s

/-- The packets that a retired instruction calls for (R477). -/
def State.traceInstr (s : State) (r : Retired) : State :=
  let itrace := s.flag (traceAt 0x44) 0
  let s := match r.mem with
    | some m => if s.flag (traceAt 0x44) 1 then s.traceMem m.1 m.2.1 m.2.2.1 m.2.2.2 else s
    | none => s
  if !itrace then s
  else
    let s := match r.branch with
      | some b => s.traceBranch b
      | none => s
    let s := match r.target with
      | some a => s.traceTarget a
      | none => s
    match r.trap with
    | some t => s.traceTrap t.1 t.2.1 t.2.2
    | none => s

/-- FIFO fill at which a stalling core stops retiring (R481). -/
def State.traceStalls (s : State) : Bool :=
  s.flag (traceAt 0x44) 3 && decide (s.fld (traceAt 0x44) 15 12 * 1024 ≤ 2 * s.trace.fifo.length)

/-- A halt request put off (R473): the SC that retires, the reservation that clears, or the sixteenth instruction ends the wait. -/
def State.deferStep (s : State) (r : Retired) : State :=
  if s.dbg.deferred = 0 then s
  else
    let left := s.dbg.deferLeft - 1
    let cause := s.dbg.deferred
    let s := { s with dbg := { s.dbg with deferLeft := left } }
    if left = 0 || r.reserve == some false then { s with dbg := { s.dbg with deferred := 0 } }.debugEventHere cause else s

/-- A CSR of the message channel or of monitor mode that the user core reads (R471, R474): dmon_pc, dmon_cause and the counts. Any other
is the core's own. -/
def State.ucCsr (s : State) (n : Nat) : Option Word :=
  match n with
  | 0x7C0 => some (s.reg (dbgAt 0x5C))
  | 0x7C1 => some (s.reg (dbgAt 0x60))
  | 0x7C6 => some (BitVec.ofNat 32 (s.dbg.tx.length + s.dbg.rx.length * 2 ^ 4))
  | _ => none

/-- What a retired instruction leaves in the user core (R405, R473): x0 stays 0. -/
def State.ucRetire (s : State) (r : Retired) : State :=
  let c := s.dbg.core
  let next := match r.trap, r.target with
    | some t, _ => t.2.2
    | none, some a => a
    | none, none => r.pc + (if r.short then 2 else 4)
  let s' := match r.csrRead.bind (fun n => s.ucCsr n.toNat) with
    | some w => s.emit (.ucData w)
    | none => s
  s'.setCore { c with
    pc := next
    mode := r.after.toNat
    x := match r.rd with
      | some (i, v) => if i = 0 then c.x else Sparse.set 0 c.x i.toNat v
      | none => c.x
    csr := match r.csr with
      | some (n, v) => Sparse.set 0 c.csr n.toNat v
      | none => c.csr
    reserved := r.reserve.getD c.reserved }

/-- The trace path works (R462): trace runs, and PD82 is on. -/
def State.traceUp (s : State) : Bool := s.tracing && s.domainOn 82

/-- RETIRED_INSTRUCTION (R405, R473, R477–R482, R494): the sink takes what it can; a core that is to stall retires nothing. A store to
the peripheral window reaches its controller. -/
def execRetiredInstruction (r : Retired) (s : State) : Host.Outcome State Fault Refusal :=
  let s' := match r.mem with
    | some (true, _, addr, data) => s.periphStore addr.toNat data
    | _ => s
  if !s.traceUp then .next ((s'.ucRetire r).deferStep r)
  else
    let n := s.traceRate r.cycles
    let s := { s with trace := { s.trace with cycles := s.trace.cycles + r.cycles }, free := s.free + 1 }
    let s := s.traceDrain n r.pc r.mode.toNat
    if s.traceStalls then .next { s with trace := { s.trace with stalled := true } }
    else
      let s := { s with trace := { s.trace with stalled := false }, periph := s'.periph, free := max s.free s'.free }
      let s := if s.inMonitor && s.flag (traceAt 0x44) 7 then s
        else
          let s := if 2 ^ (s.fld (traceAt 0x44) 11 8 + 8) ≤ s.trace.bytes then s.traceClose.traceSync r.pc r.mode.toNat else s
          if (s.traceInstr r).trace.bytes ≠ s.trace.bytes then (s.traceResync r.pc r.mode.toNat).traceInstr r else s.traceInstr r
      let s := if s.traceState = 2 then { s with trace := { s.trace with window := s.trace.window - 1 } } else s
      .next ((s.ucRetire r).deferStep r)

end Sys2Proof.Machine
end

