-- ==== Sys2Proof/Machine/View.lean ====
section
/-! DEFINITION. What a register word reads as (R10, R38, R39): words that show the state of their block are computed from it, every
other word is as `regs` holds it. -/

namespace Sys2Proof.Machine

/-! ### The header (R39) -/

/-- The page is busy (R39): a slot, bank or field group of it is (R42, R51, R283, R310, R434). -/
def State.pageBusy (s : State) (rq : Requester) (page : Nat) : Bool :=
  match pageOf page with
  | some (.dev, _) => s.slots.any (fun t => t.state == .opened || t.state == .commitPending)
  | some (.ckpt, i) => i != 0 && (List.range 8).any (fun k => s.busy (hdr page (0x40 + 0x80 * k)))
  | some (.mbox, _) => s.busy (mboxAt (rqFn rq) 0x50)
  | some (.laneGroup, k) => k == 0 && s.busy (hdr page 0)
  | _ => s.busy (hdr page 0)

/-- The page has staged fields (R39; R352 for CAP). -/
def hasStaged (page : Nat) : Bool :=
  match pageOf page with
  | some (.cap, _) => false
  | _ => (fieldsOf page).any (fun f => f.eff == .staged)

/-- The page has paired groups (R47, R113, R317). -/
def hasPairs (page : Nat) : Bool :=
  match pageOf page with
  | some (.fabs, _) | some (.time, _) => true
  | _ => false

/-- PG_TXN_STAT.state of a transaction's state (R39). -/
def TxnState.code : TxnState → Nat
  | .free => 0 | .opened => 1 | .commitPending => 2 | .committed => 3 | .rolledBack => 4 | .member => 5

/-- What is left of a timeout that runs: some time up to the whole of it, since the model keeps no time for it. -/
def State.leftOf (s : State) (open_ : Bool) (us : Nat) : Nat := if open_ then Config.freeNat s.free % (us + 1) else 0

/-- A header register as it reads (R39); PG_OWNER of a bank of the MBOX page is its function (R434). PG_STAT.block is the block's own and is
stated nowhere: a free value. -/
def State.viewHeader (s : State) (rq : Requester) (page off : Nat) : Word :=
  let d := s.page page
  match off with
  | 0x00 => match pageOf page with
    | some (k, i) => BitVec.ofNat 32 (k.code * 2 ^ 16 + i % 256 * 2 ^ 8 + 1)
    | none => 0
  | 0x04 => BitVec.ofNat 32 (boolNat (txnCapable page) * 2 ^ 31 + boolNat (freezePages.contains page) * 2 ^ 30 +
      boolNat (hasStaged page) * 2 ^ 29 + boolNat (hasPairs page) * 2 ^ 28 + (Config.capBlock page).toNat)
  | 0x0C => BitVec.ofNat 32 (boolNat (s.pgEnabled page) + boolNat (s.pageBusy rq page) * 2 + boolNat d.frozen * 4 +
      boolNat (d.shadow != []) * 8 + boolNat (d.pairs != []) * 16 + boolNat (s.txnOf page).isSome * 32 +
      (Config.freeWord s.free).toNat / 2 ^ 16 * 2 ^ 16)
  | 0x18 | 0x30 => 0
  | 0x34 =>
    let us := match d.slot with
      | some t => (s.slotAt t).leftUs
      | none => d.leftUs
    BitVec.ofNat 32 (d.txn.code + d.reason % 256 * 2 ^ 8 + s.leftOf (s.txnOf page).isSome us * 2 ^ 16)
  | 0x38 =>
    match pageOf page, rq with
    | some (.mbox, _), .vf n => BitVec.ofNat 32 (1 + n * 2 ^ 8)
    | _, _ => s.reg (hdr page off)
  | _ => s.reg (hdr page off)

/-! ### Block registers -/

/-- A field of a stored word replaced by what the block holds. -/
def State.with_ (s : State) (addr hi lo v : Nat) : Word := BitVec.ofNat 32 (natPut (s.reg addr).toNat hi lo v)

/-- The number of commands of a ring taken and not completed, also those whose completion will be discarded (R432, R434, R443). -/
def State.inProgress (s : State) (r : Ring) : Nat :=
  let t := s.theham
  let mine := fun (c : Call) => c.ring == r
  let loads := s.jobs.flatMap (fun e => (e.2.load.map (fun (l : LoadReq) => l.call)).toList ++ (e.2.reload.map (fun (l : Reload) => l.call)).toList)
  let power := (s.pwr.busy ++ s.pwr.queue).filterMap (fun (x : PwrOp) => x.call)
  (t.queued.map (fun (q : Queued) => q.call)).countP mine + (t.waiting.map (fun (w : Waiting) => w.call)).countP mine +
    loads.countP mine + power.countP mine

/-- DEV page words (R51, R247, R428). A VF sees its own jobs' entries only (R359). -/
def State.viewDev (s : State) (rq : Requester) (off : Nat) : Word :=
  let sees := fun (j : Nat) => match rq with
    | .vf n => (s.job j).fn == n
    | _ => true
  if 0xC00 ≤ off ∧ off < 0xD00 then
    let j := (off - 0xC00) / 4
    if sees j then BitVec.ofNat 32 (s.jobStat j) else 0
  else if 0xD00 ≤ off ∧ off < 0xF00 then
    let j := (off - 0xD00) / 8
    if sees j && (s.job j).state != .free then BitVec.ofNat 32 ((s.job j).mask.toNat / 2 ^ (off % 8 * 8)) else 0
  else if off = 0x40 then BitVec.ofNat 32 (boolNat Config.gradeTen + Config.siliconRev.toNat * 2 ^ 8)
  else if off = 0x44 then BitVec.ofNat 32 s.devBoot
  else if 0x200 ≤ off ∧ off < 0xA00 ∧ (off - 0x200) % 0x200 = 4 then
    let t := s.slotAt ((off - 0x200) / 0x200)
    BitVec.ofNat 32 (t.state.code + t.reason % 256 * 2 ^ 8 +
      s.leftOf (t.state == .opened || t.state == .commitPending) t.leftUs * 2 ^ 16)
  else s.reg (PageKind.dev.at off)

/-- An input of a router tags its bits (R135, R136): the far end of a link stands in a region under reload, or the lane word due is
parked. -/
def State.inParked (s : State) (cl dir : Nat) : Bool :=
  if dir < 4 then
    match linkEnd cl dir with
    | some (c, _) => (s.seq (c / 64)).region
    | none => false
  else match s.jobOfSeg (cl / 64) with
    | some j => (s.routerIn j cl 4 0).2
    | none => false

/-- Words of a FAB segment page (R114, R136, R247). Configuration words of the lines read 0 in the page of a segment that is not its
job's lead (R113); in the page of a segment that no job holds they are stored and read back, since no lead exists (DESIGN
CHOICE, assumption 74). In hold steps before position 0 FABS_SEQ_STAT.depth shows the stack that the ended design cycle leaves, 0,
also where a repeat body starts at step 0: R114 names only exec_step and prog_step there (DESIGN CHOICE, assumption 64). -/
def State.viewFabs (s : State) (g off : Nat) : Word :=
  let q := s.seq g
  let mine := if q.blank then none else s.jobOfSeg g
  let x := match mine with
    | some j => s.job j
    | none => {}
  let held := mine.isSome
  let start := x.e == x.len
  let pack := fun (os : List Nat) => os.getD 0 0 + os.getD 1 0 * 2 ^ 10 + os.getD 2 0 * 2 ^ 20
  let num := fun (n : Nat) => BitVec.ofNat 32 n
  match off with
  | 0x40 => num (q.cycLen + q.rpt.countP (fun ws => (rptOf ws).valid) * 2 ^ 16 + boolNat (held && x.lead == g) * 2 ^ 31)
  | 0x44 => num (q.execLen + q.jobLen * 2 ^ 16)
  | 0x48 => num ((if start then 0 else x.e) + (if start || q.padding then 0 else q.k) * 2 ^ 14 + q.stack.length * 2 ^ 24 +
      q.state.code * 2 ^ 28)
  | 0x50 => num x.m
  | 0x54 => num (x.m / 2 ^ 32)
  | 0x58 => num q.holdCount
  | 0x5C => num (q.holdCount / 2 ^ 32)
  | 0x60 => num (q.holdE + q.holdCause * 2 ^ 14 + min 4095 q.holdBlocks * 2 ^ 16)
  | 0x64 => num (pack q.ofsInit)
  | 0x68 => num (q.ofsInit.getD 3 0)
  | 0x6C => num (pack q.ofs)
  | 0x70 => num (q.ofs.getD 3 0 + q.rofs * 2 ^ 16)
  | 0x78 => num ((q.rpt.getD (s.fld (fabsAt g 0x74) 5 0) []).getD (s.fld (fabsAt g 0x74) 10 8) 0)
  | 0x1A4 => 0
  | 0x1A8 => num x.lines
  | 0x1B0 => num (boolNat q.region + 2 * boolNat ((clustersOf g).any (fun cl => (List.range 5).any (s.inParked cl))))
  | 0x1B4 =>
    num (mine.getD 0 + boolNat held * 2 ^ 8 + x.stage * 2 ^ 9 + boolNat (s.fab.kept.getLsbD g) * 2 ^ 11)
  | _ => if 0x100 ≤ off && decide (off < 0x1A0) && held && x.lead != g then 0 else s.reg (fabsAt g off)

/-- FABC_MB_REPAIR from the fuses (R169, R173): each bank uses no more than its four spares, and the other bits read 0. -/
def repairWord (fuses : Nat) : Nat :=
  (List.range 4).foldl (fun a b => a + min 4 (natBits fuses (4 * b + 2) (4 * b)) * 2 ^ (4 * b)) 0

/-- Words of a FAB cluster page (R115, R136, R151, R173, R201). -/
def State.viewFabc (s : State) (cl off : Nat) : Word :=
  let num := fun (n : Nat) => BitVec.ofNat 32 n
  if 0x60 ≤ off ∧ off < 0x80 then
    let j := (off - 0x60) / 4
    num (s.ocrInit cl j + s.ocr cl j * 2 ^ 16)
  else if 0x1A4 ≤ off ∧ off < 0x1B4 then num (Sparse.get 0 s.fab.dirty (cl * 4 + (off - 0x1A4) / 4)).toNat
  else if 0x200 ≤ off ∧ off < 0x280 then
    let k := (off - 0x200) / 0x10
    let q := s.mq cl k
    match off % 0x10 with
    | 0 => num (s.mqBase cl k % 2 ^ 28)
    | 4 => num (s.mqCfg cl k % 2 ^ 6 + s.mqCfg cl k / 2 ^ 16 * 2 ^ 16)
    | 8 => num (q.entries.length + q.entries.countP (fun (x : MqEntry) => x.state != .complete) * 2 ^ 8 +
        q.entries.countP (fun (x : MqEntry) => x.state == .waitTag) * 2 ^ 16 + q.word * 2 ^ 24)
    | _ => s.reg (fabcAt cl off)
  else
    let payload := fun (_ : Unit) => s.slotStored cl (s.fld (fabcAt cl 0x118) 9 0) (s.fld (fabcAt cl 0x118) 19 16)
    let operand := fun (_ : Unit) => (s.opReg cl (s.fld (fabcAt cl 0x140) 2 0)).toNat
    match off with
    | 0x10C => num (netCfg cl)
    | 0x110 => s.with_ (fabcAt cl off) 4 0 ((List.range 5).foldl (fun a d => a + boolNat (s.inParked cl d) * 2 ^ d) 0)
    | 0x11C => num (payload ())
    | 0x120 => num (payload () / 2 ^ 32)
    | 0x144 => num (operand ())
    | 0x148 => num (operand () / 2 ^ 32)
    | 0x19C => num (repairWord (Config.mbRepair cl).toNat)
    | 0x1A0 => num (boolNat (s.fab.wasKept.getLsbD (cl / 64)) + boolNat (s.fab.waking.getLsbD (cl / 64)) * 2)
    | 0x288 => s.with_ (fabcAt cl off) 9 0 (s.tagsInUse (cl / 32)).length
    | _ => s.reg (fabcAt cl off)

/-- Words of a REF page (R202). -/
def State.viewRef (s : State) (n off : Nat) : Word :=
  let r := s.ref n
  let code := match r.state with
    | .disabled => 0 | .arb => 1 | .locked => 2 | .frozen => 3
  let locked := r.state == .locked
  if off = 0x48 then
    BitVec.ofNat 32 (code + (if locked then r.owner * 2 ^ 4 + r.left * 2 ^ 9 else 0) + r.fifos.countP (fun e => e.2 != []) * 2 ^ 16)
  else if 0x100 ≤ off ∧ off < 0x280 ∧ off % 0x10 = 0xC then
    match r.fifo ((off - 0x100) / 0x10) with
    | [] => s.with_ (refAt n off) 31 8 0
    | p :: _ => s.with_ (refAt n off) 31 8 (p.boost + 2 ^ 23)
  else s.reg (refAt n off)

/-- A requester sees the checkpoint slot that a word of a CKPT page lies in: a VF sees its own jobs' only (R359). -/
def State.seesSlot (s : State) (rq : Requester) (page off : Nat) : Bool :=
  let x := s.job ((page - 0x121) * 8 + (off - 0x40) / 0x80)
  match rq with
  | .vf n => x.state != .free && x.fn == n
  | _ => true

/-- Words of a checkpoint slot (R283). The log's fill is what its last measure showed (R267). A VF sees its own jobs' slots only
(R359). -/
def State.viewCkpt (s : State) (rq : Requester) (page off : Nat) : Word :=
  let j := (page - 0x121) * 8 + (off - 0x40) / 0x80
  let x := s.job j
  let newest := ((x.prot.retained.reverse.find? (fun (c : CkptRec) => c.usable)).map (fun (c : CkptRec) => c.m)).getD 0
  let oldest := (x.prot.retained.head?.map (fun (c : CkptRec) => c.m)).getD 0
  let num := fun (n : Nat) => BitVec.ofNat 32 n
  if page = 0x120 ∨ 0x440 ≤ off ∨ !s.seesSlot rq page off then 0
  else match (off - 0x40) % 0x80 with
    | 0x00 => s.with_ (hdr page off) 7 7 (boolNat x.compare)
    | 0x04 => num (x.prot.state.code + min 255 x.prot.attempts * 2 ^ 8 +
        (if x.prot.state = .off then 0 else s.fld (hdr page off) 22 16) * 2 ^ 16)
    | 0x08 => num newest
    | 0x0C => num (newest / 2 ^ 32)
    | 0x10 => num oldest
    | 0x14 => num (oldest / 2 ^ 32)
    | 0x30 => num x.prot.retained.length
    | _ => s.reg (hdr page off)

/-- The lowest done_m over a job's peer lanes, as differences from its own design cycle (R318, R324, R334); 0 without a peer lane. -/
def State.minDone (s : State) (j : Nat) : Nat :=
  let m : Int := (s.job j).m
  let diff := fun (n : Nat) => signedOf 16 (unsignedOf 16 (((s.lane n).huddle.doneM : Int) - m))
  match s.peerLanes j with
  | [] => 0
  | n :: ns => unsignedOf 16 (m + ns.foldl (fun a k => min a (diff k)) (diff n))

/-- The copy of the time counter that a requester reads: the one its last read of TIME_NOW_FRAC took (R313), else the counter. -/
def State.timeCopy (s : State) (rq : Requester) : Stamp :=
  match s.time.holds.find? (fun h => h.1 == rq) with
  | some h => h.2
  | none => s.time.now

/-- Words of the TIME page (R313, R318, R321, R334). -/
def State.viewTime (s : State) (rq : Requester) (off : Nat) : Word :=
  let t := s.timeCopy rq
  let num := fun (n : Nat) => BitVec.ofNat 32 n
  if 0x404 ≤ off ∧ off < 0x800 ∧ off % 0x10 = 4 then s.with_ (timeAt off) 31 16 (s.minDone ((off - 0x400) / 0x10))
  else match off with
    | 0x40 => num (s.time.now.frac / 2 ^ 16)
    | 0x44 => num t.ns
    | 0x48 => num t.sec
    | 0x4C => num (t.sec / 2 ^ 32)
    | 0x50 => num s.flat
    | 0x54 => num (s.flat / 2 ^ 32)
    | 0x60 => 0
    | 0x84 => num (unsignedOf 32 (s.time.slew / (2 : Int) ^ 32))
    | _ => s.reg (timeAt off)

/-- Words of the CAP pages (R352–R354). -/
def State.viewCap (s : State) (i off : Nat) : Word :=
  let c := s.cap
  let num := fun (n : Nat) => BitVec.ofNat 32 n
  let code := match c.state with
    | .idle => 0 | .armed => 1 | .post => 2 | .rearm => 3 | .done => 4 | .stopped => 5
  match i with
  | 0 => match off with
    | 0x5C => num (code + c.seg % 65536 * 2 ^ 3 + c.seq * 2 ^ 19)
    | 0x64 => num c.left
    | 0x78 => s.with_ (capAt 0 off) 11 0 (c.fill / 1024)
    | _ => s.reg (capAt 0 off)
  | 2 =>
    if 0x140 ≤ off ∧ off < 0x240 ∧ (off % 0x20 = 0xC ∨ off % 0x20 = 0x10) then
      num (c.counts.getD ((off - 0x140) / 0x20) 0 / (if off % 0x20 = 0xC then 1 else 2 ^ 32))
    else if 0x240 ≤ off ∧ off < 0x280 ∧ off % 0x10 = 8 then
      let k := (off - 0x240) / 0x10
      num (boolNat (c.timers.getD k none).isSome + boolNat (c.expired.getD k false) * 2)
    else s.reg (capAt 2 off)
  | _ => s.reg (capAt i off)

/-- Words of a DISP page (R402, R403). The five bits of DISP_GRP_STAT.engines show 32 engines as 31: the spec gives the range 0–32 and
no coding of its end (DESIGN CHOICE, assumption 107). -/
def State.viewDisp (s : State) (g off : Nat) : Word :=
  let d := s.disp
  let x := s.group g
  let num := fun (n : Nat) => BitVec.ofNat 32 n
  let serves := fun (e : Nat) => (Sparse.get none d.engines e).isSome
  let inGroup := fun (e : Nat) => match Sparse.get none d.engines e with
    | some k => match s.flow k.1 k.2 with
      | some f => f.group == g
      | none => false
    | none => false
  match off with
  | 0x44 => num (x.ready.length + x.queue.length * 2 ^ 16 + min 31 ((List.range 32).countP inGroup) * 2 ^ 25 +
      boolNat (x.spill != []) * 2 ^ 31)
  | 0x48 => num x.spill.length
  | _ =>
    if g ≠ 0 then s.reg (dispAt g off)
    else match off with
      | 0x800 => num (s.contexts + d.flows.countP (fun (f : Flow) => f.state == .idle) * 2 ^ 16 + boolNat (d.parked != []) * 2 ^ 31)
      | 0x804 => num d.parked.length
      | 0x810 => num ((List.range 32).foldl (fun a e => a + boolNat (serves e) * 2 ^ e) 0)
      | _ => s.reg (dispAt g off)

/-- DBG_RC_STAT.halted (R466): every job has stood halted and every freeze has taken effect. -/
def State.packageStands (s : State) : Bool :=
  s.pkgHalt && (List.range 64).all (fun j => !(s.job j).live || s.standing j) && !s.refs.any (fun e => e.2.pendFreeze)

/-- Words of the DBG page (R486). -/
def State.viewDbg (s : State) (off : Nat) : Word :=
  let d := s.dbg
  match off with
  | 0x4C => s.with_ (dbgAt off) 1 0 (boolNat s.packageStands + boolNat (s.pkgHalt && s.refs.any (fun e => e.2.pendFreeze)) * 2)
  | 0xC0 => d.tx.headD 0
  | 0xC8 => s.with_ (dbgAt off) 6 0 (d.tx.length + d.rx.length * 2 ^ 4)
  | _ => s.reg (dbgAt off)

/-- Words of the TRACE page (R485): TRACE_STAT.fill in bytes, and the buffer word selected. -/
def State.viewTrace (s : State) (off : Nat) : Word :=
  match off with
  | 0x68 => s.with_ (traceAt off) 15 2 (2 * s.trace.fifo.length)
  | 0x74 => BitVec.ofNat 32 (s.trace.buf.num (s.fld (traceAt 0x70) 21 2 * 4) 4)
  | _ => s.reg (traceAt off)

/-- Words of the GPIO page (R491, R499). -/
def State.viewGpio (s : State) (off : Nat) : Word :=
  let mask := fun (p : Nat → Bool) => BitVec.ofNat 32 ((List.range 32).foldl (fun a i => a + boolNat (p i) * 2 ^ i) 0)
  if 0x40 ≤ off ∧ off < 0x4C then mask (fun i => s.padLevel (32 * ((off - 0x40) / 4) + i))
  else if off = 0x310 ∨ off = 0x314 then mask (fun i => s.dpLevel (32 * ((off - 0x310) / 4) + i))
  else s.reg (gpioAt off)

/-- Words of the PWR page (R502). -/
def State.viewPwr (s : State) (off : Nat) : Word :=
  if 0x40 ≤ off ∧ off < 0x4C then BitVec.ofNat 32 (s.pwr.on.toNat / 2 ^ (8 * (off - 0x40)))
  else if 0x50 ≤ off ∧ off < 0x5C then BitVec.ofNat 32 (s.fab.retained.toNat / 2 ^ (8 * (off - 0x50)))
  else if off = 0x64 then BitVec.ofNat 32 (boolNat (s.pwr.busy != []) + s.pwr.queue.countP (fun x => x.op == 1) * 2)
  else s.reg (PageKind.pwr.at off)

/-- Words of the SENS page (R429): the readings of the last sample by the selectors. -/
def State.viewSens (s : State) (off : Nat) : Word :=
  let t := s.theham
  match off with
  | 0x44 => BitVec.ofNat 32 (t.temps.getD (s.fld (sensAt 0x40) 7 0) 0).toNat
  | 0x50 => BitVec.ofNat 32 (t.volts.getD (s.fld (sensAt 0x4C) 5 0) 0).toNat
  | 0x58 => BitVec.ofNat 32 (t.currents.getD (s.fld (sensAt 0x54) 3 0) 0).toNat
  | _ => s.reg (sensAt off)

/-- Words of the WDT page (R476): the model keeps no time for the counters, so a running one reads as some value up to its last load. -/
def State.viewWdt (s : State) (off : Nat) : Word :=
  let left := fun (a : Nat) => s.with_ a 23 0 (Config.freeNat s.free % (s.fld a 23 0 + 1))
  match off with
  | 0x44 => if s.flag (wdtAt 0x40) 0 then left (wdtAt 0x44) else s.reg (wdtAt 0x44)
  | 0x48 => 0
  | 0x4C => s.with_ (wdtAt 0x4C) 23 0 (Config.freeNat s.free)
  | _ => s.reg (wdtAt off)

/-- The router output that NOC_RTR_SEL names, as a key of the NoC's counters (R377). -/
def State.nocSel (s : State) : Nat :=
  let v := (s.reg (PageKind.noc.at 0x4C)).toNat
  (natBits v 6 4 * 8 + natBits v 2 0) * 4 + natBits v 9 8

/-- A register word as a requester's read of page offset `off` finds it, before anything the read brings about. -/
def State.view (s : State) (rq : Requester) (page off : Nat) : Word :=
  if off < 0x40 then s.viewHeader rq page off
  else match pageOf page with
    | none => 0
    | some (.dev, _) => s.viewDev rq off
    | some (.fabs, g) => s.viewFabs g off
    | some (.fabc, _) => s.viewFabc ((page - 0x1000) / 0x80 * 64 + (page % 0x80 - 1)) off
    | some (.ref, n) => s.viewRef n off
    | some (.ckpt, _) => s.viewCkpt rq page off
    | some (.scrub, _) =>
      match off with
      | 0x40 => s.reg (scrubAt 0x40) ^^^ majority3 (s.scrub.copies 0)
      | 0x58 => BitVec.ofNat 32 (scrubSig s.scrubVoted).toNat
      | 0x5C => BitVec.ofNat 32 ((scrubSig s.scrubVoted).toNat / 2 ^ 32)
      | _ => s.reg (hdr page off)
    | some (.laneGroup, k) =>
      if off = 0x40 then
        s.with_ (hdr page off) 31 16 ((List.range 16).foldl (fun a i =>
          a + boolNat ((s.lane (16 * k + i)).state == .operational) * 2 ^ i) 0)
      else if off = 0x44 then s.reg (laneGroupAt 0 0x44)
      else s.reg (hdr page off)
    | some (.lane, n) =>
      if off = 0x44 then
        BitVec.ofNat 32 (natPut (natPut (s.reg (hdr page off)).toNat 2 0 (s.lane n).state.code) 7 5 (s.lane n).failCode)
      else s.reg (hdr page off)
    | some (.time, _) => s.viewTime rq off
    | some (.cap, i) => s.viewCap i off
    | some (.disp, g) => s.viewDisp g off
    | some (.mbox, _) =>
      if off < 0x64 then
        let fn := rqFn rq
        if off = 0x5C then s.with_ (mboxAt fn off) 12 8 (s.inProgress (.host fn)) else s.reg (mboxAt fn off)
      else 0
    | some (.dbg, _) => s.viewDbg off
    | some (.trace, _) => s.viewTrace off
    | some (.gpio, _) => s.viewGpio off
    | some (.pwr, _) => s.viewPwr off
    | some (.sens, _) => s.viewSens off
    | some (.wdt, _) => s.viewWdt off
    | some (.noc, i) =>
      if i ≠ 0 then s.reg (hdr page off)
      else match off with
        | 0x50 => BitVec.ofNat 32 (Sparse.get 0 s.noc.flits s.nocSel)
        | 0x54 => BitVec.ofNat 32 (min 0xFFFFFFFF (Sparse.get 0 s.noc.busy s.nocSel))
        | _ => s.reg (hdr page off)
    | _ => s.reg (hdr page off)

/-! ### What a read brings about -/

/-- The words that hold the low half of a 64-bit field of a page, with their families' counts and strides (R38). -/
def lowWords : PageKind → List (Nat × Nat × Nat)
  | .dev => [(0xD00, 64, 8)]
  | .fabc => [(0x48, 1, 0), (0x50, 1, 0), (0x11C, 1, 0), (0x144, 1, 0)]
  | .fabs => [(0x50, 1, 0), (0x58, 1, 0)]
  | .scrub => [(0x58, 1, 0)]
  | .ckpt => [(0x48, 8, 0x80), (0x50, 8, 0x80), (0x60, 8, 0x80)]
  | .lane => [(0x94, 1, 0), (0x9C, 1, 0)]
  | .time => [(0x50, 1, 0), (0x6C, 1, 0), (0x100, 8, 0x10), (0x208, 4, 0x10)]
  | .cap => [(0x68, 1, 0), (0x44, 8, 0x20), (0x4C, 8, 0x20), (0x144, 8, 0x20), (0x14C, 8, 0x20), (0x240, 4, 0x10)]
  | .noc => [(0x4C, 1, 0)]
  | .mbox => [(0x40, 1, 0), (0x48, 1, 0)]
  | .trace => [(0x5C, 1, 0)]
  | .gpio => [(0x310, 1, 0)]
  | _ => []

/-- A page offset holds the low word of a 64-bit field (R38). -/
def isLowWord (page off : Nat) : Bool :=
  match pageOf page with
  | none => false
  | some (k, i) =>
    let fits := (lowWords k).any (fun r => r.1 ≤ off && decide (off < r.1 + max 1 (r.2.1 * r.2.2)) &&
      (if r.2.2 = 0 then off == r.1 else (off - r.1) % r.2.2 == 0))
    fits && (match k with
      | .cap => if off = 0x68 then i == 0 else i == 2
      | .noc => i == 1
      | .ckpt => i != 0
      | _ => true)

/-- The RC fields of a register word cleared: to the Reset column, or to the level that a peak or low field follows (R10). -/
def State.clearRc (s : State) (page off addr : Nat) : State :=
  let rc := (fieldsAt page off).filter (fun f => f.acc == .rc)
  if rc = [] then s
  else
    let s := rc.foldl (fun s f => s.setFld addr f.hi f.lo f.reset) s
    match pageOf page with
    | some (.fabc, _) =>
      if off = 0x288 then
        s.setFld addr 25 16 (s.tagsInUse (((page - 0x1000) / 0x80 * 64 + (page % 0x80 - 1)) / 32)).length
      else s
    | some (.noc, 0) => if off = 0x54 then { s with noc := { s.noc with busy := Sparse.erase s.noc.busy s.nocSel } } else s
    | some (.cap, 0) => if off = 0x78 then s.setFld addr 27 16 (s.cap.fill / 1024) else s
    | some (.sens, _) => if off = 0x5C then s.setFld addr 31 16 (s.fld addr 15 0) else s
    | some (.lane, n) => if off = 0x74 then s.setFld addr 7 0 (s.fld (laneAt n 0x54) 7 0) else s
    | _ => s

/-- Traffic at the output that NOC_RTR_SEL names, of packets that no NOC_PACKET command shows (assumption 97): free. -/
def State.nocOther (s : State) : State :=
  let k := s.nocSel
  let n := Config.freeNat s.free
  let q := s.noc
  { s with free := s.free + 1, noc := { q with flits := Sparse.set 0 q.flits k ((Sparse.get 0 q.flits k + n) % 2 ^ 32)
                                               busy := Sparse.set 0 q.busy k (Sparse.get 0 q.busy k + Config.freeNat n) } }

/-- What reading a word brings about in its block: RC fields clear and a message is taken, except under the debug attribute (R10, R56,
R474); a read of TIME_NOW_FRAC copies the counter (R313); a read of TIME_CAP_SEC_HI_k clears full (R320). After a read of NOC_RTR_FLITS
other traffic goes on. A VF's read of a checkpoint slot that it does not see (R359) clears nothing there: the spec does not say (DESIGN
CHOICE, assumption 108). -/
def State.readEffect (s : State) (rq : Requester) (page off : Nat) : State :=
  let hidden := decide (0x121 ≤ page) && decide (page < 0x129) && !s.seesSlot rq page off
  let s := if rq = .dbg || hidden then s else s.clearRc page off (regKey rq (hdr page off))
  if page = 0x10 ∧ off = 0x50 then s.nocOther
  else if page = 0xA ∧ off = 0xC0 ∧ rq ≠ .dbg then s.txPop
  else if page = 7 ∧ off = 0x40 then
    { s with time := { s.time with holds := s.time.holds.filter (fun h => h.1 != rq) ++ [(rq, s.time.now)] } }
  else if page = 7 ∧ 0x200 ≤ off ∧ off < 0x240 ∧ off % 0x10 = 0xC then s.setFlag (timeAt (off - 0xC)) 2 false
  else s

/-- A 32-bit read of a register word (R38): the high word that the requester's read of the low word copied, where it directly follows
that read, else the word as it stands; a low word's read makes the copy. The model keeps the free values of one read together. -/
def State.readWord (s : State) (rq : Requester) (page off : Nat) : Word × State :=
  let d := s.page page
  let v := match d.holding.find? (fun h => h.1 == rq && h.2.1 == off) with
    | some h => h.2.2
    | none => s.view rq page off
  let rest := d.holding.filter (fun h => h.1 != rq)
  let next := if isLowWord page off then rest ++ [(rq, off + 4, s.view rq page (off + 4))] else rest
  (v, (s.setPage page { d with holding := next }).readEffect rq page off)

/-- A 64-bit read: two words at one instant (R38). It ends a read in halves. -/
def State.readPair (s : State) (rq : Requester) (page off : Nat) : Dword × State :=
  let d := s.page page
  let lo := s.view rq page off
  let hi := s.view rq page (off + 4)
  let s := s.setPage page { d with holding := d.holding.filter (fun h => h.1 != rq) }
  (hi ++ lo, (s.readEffect rq page off).readEffect rq page (off + 4))

/-! ### A hold that lasts (R192, R280) -/

/-- The registers of a page beside its header. -/
def pageWords (page : Nat) : List (Nat × Nat) :=
  (((List.range 1008).map (fun i => 0x40 + 4 * i)).filter (fun off => fieldsAt page off != [])).map (fun off => (page, off))

/-- What firmware reads into the event of a hold that lasts (R280): the REF and HBMC pages of the job's window pseudo-channels where
WAITs hold it, HUD_STAT_j and its peer lanes' LANE_STAT where the huddle does. -/
def State.holdReads (s : State) (j : Nat) : List (Nat × Nat) :=
  let x := s.job j
  let pcs := (x.windows.flatMap (fun w => (List.range 16).map (fun i => w.1 + 8 * i))).eraseDups
  let mem := pcs.flatMap (fun n => pageWords (0x20 + n)) ++ ((pcs.map (· / 32)).eraseDups).flatMap (fun k => pageWords (0xA0 + k))
  let hud := (pageNo (hudAt j 4), hudAt j 4 % 0x1000) :: (s.peerLanes j).map (fun n => (0x180 + n, 0x44))
  (if x.waitSegs = [] then [] else mem) ++ (if x.hudHold then hud else [])

/-- HOLD_TIMEOUT (R192, R224, R280): the lead sequencer raises it once in a hold; firmware logs the record with what it reads of the
hold's cause, and the job stays held. -/
def execHoldTimeout (job : Nat) (s : State) : Host.Outcome State Fault Refusal :=
  let x := s.job job
  if (s.seq x.lead).state ≠ .hold ∨ !x.timeoutDue then .next s
  else
    let r : FaultRec := { code := 0x038B, phase := 4, cls := 4, job := job, seg := x.lead, unit := 7
                          k := s.recStep job x.lead, e := x.recPos, m := x.m }
    let s := s.setJob job { x with timeoutUp := true }
    let seen := (s.holdReads job).foldl (fun a p =>
      let v := a.2.readWord .fw p.1 p.2
      (a.1 ++ [v.1], v.2)) (([] : List Word), s)
    .next (seen.2.event job 0x038B job (r.detail ++ seen.1))

end Sys2Proof.Machine
end

