-- ==== Sys2Proof/Machine/Reset.lean ====
section
/-! DEFINITION. Device and power-on resets (R505, R509) and the boot that follows (R36, R408, R414–R416, R426). -/

namespace Sys2Proof.Machine

/-- BAR0 offset of an RST register. -/
def rstAt (off : Nat) : Nat := PageKind.rst.at off

/-! ### What a reset keeps (R41, R423, R462, R505, R506) -/

/-- The debug domain's registers after a device reset: as they were, without the unlock, its failure count and the user core's monitor
mode and sleep, and owned by the PF again (R41, R462, R464, R465, R471). -/
def State.keptRegs (s : State) : Sparse Word :=
  let s := (s.authLock.setFld (dbgAt 0x44) 11 8 0).setFld (dbgAt 0x44) 4 3 0
  let s := (s.setReg (hdr 0xA 0x38) 0).setReg (hdr 0xB 0x38) 0
  Sparse.range s.regs 0xA000 0xC000

/-- What the debug domain's pages keep beside their registers (R462): a device reset discards every transaction (R55). -/
def keptPages (pages : Sparse PageDyn) : Sparse PageDyn :=
  let out := fun (d : PageDyn) =>
    if [TxnState.opened, .commitPending, .member].contains d.txn then
      { d with txn := .free, opener := .pf, reason := 0, leftUs := 0, held := [], slot := none }
    else d
  ((Sparse.range pages 0xA 0xC).map (fun e => (e.1, out e.2))).filter (fun e => e.2 != {})

/-- What flash and the fuses hold (R409, R411, R415, R419, R424), and whether the package has been below 40 °C since its last thermal cycle
(R424); the log in SRAM, the cursors and an open update are lost, and entries are numbered on from the newest in flash (R454). -/
def Theham.kept (t : Theham) : Theham :=
  { flash := t.flash, logSeq := t.flash.flatten.foldl (fun n e => max n (e.seqNo + 1)) 0, erases := t.erases, score := t.scoreOut
    scoreOut := t.scoreOut, owner := t.owner, imgKeys := t.imgKeys, agentKeys := t.agentKeys, enrol := t.enrol, minimum := t.minimum
    writes := t.writes, toBoot := t.toBoot, parts := t.parts, trimBad := t.trimBad, slotsUsed := t.slotsUsed, moved := t.moved
    coldSeen := t.coldSeen }

/-- RST_CAUSE of a device reset (R509). -/
def rstCause (cause : ResetCause) (trip : Bool) : Nat :=
  (match cause with
    | .powerOn => 1
    | .pin => 2
    | .cmd => 4) + 8 * boolNat trip

/-- Everything at its reset but what a device reset keeps (R505). The queue of commands, what has been sent and host memory are no
part of the package. -/
def State.resetDevice (s : State) (cause : ResetCause) : State :=
  let t := s.theham
  let next : State := {
    regs := s.keptRegs
    pages := keptPages s.pages
    hostMem := s.hostMem
    out := s.out
    theham := t.kept
    tap := s.tap
    dbg := { s.dbg with uc := [], fw := [], core := {}, step := false, deferred := 0, deferLeft := 0 }
    trace := s.trace
    pwr := { on := s.pwr.on &&& BitVec.ofNat 84 (2 ^ 82) ||| ({} : Pwr).on &&& ~~~(BitVec.ofNat 84 (2 ^ 82)) }
    pins := { trip := s.pins.trip }
    pkgHalt := s.pkgHalt
    free := s.free
    pending := s.pending }
  let next := next.setReg (rstAt 0x40) (BitVec.ofNat 32 (rstCause cause s.pins.trip))
  let next := next.setFld (wdtAt 0x4C) 31 24 (s.fld (wdtAt 0x4C) 31 24)
  if s.flag whistleReg 5 then (next.setFlag whistleReg 5 true).assertWhistle 1 else next

/-! ### Boot (R414, R415) -/

/-- BOOT_FALLBACK logged and shown (R415, R428). -/
def State.bootFallback (s : State) : State := (s.setFlag (PageKind.dev.at 0x44) 3 true).thehamEvent 0x0A05 []

/-- A partition as a directory names it passes (R414, R415, R419): its own header and signature, the directory's digest, and its security
version. What an update put there the directory does not list (assumption 128). -/
def State.partitionOk (s : State) (dir : List Byte) (kind : Nat) : Bool :=
  let bs := s.theham.reads dir kind
  let e := Config.directoryEntry dir kind
  s.packageOk kind bs && s.versionOk kind bs &&
    (natBit s.theham.moved kind || (Config.sm3 bs == e.digest && decide (Sparse.get 0 s.theham.minimum kind ≤ e.version)))

/-- Packages of a type are used, and their digests measured (R414, R417). -/
def State.bootUse (s : State) (kind : Nat) (ps : List (List Byte)) : State :=
  let s := { s with theham := s.theham.use kind ps }
  match mrOfKind kind with
  | some mr => ps.foldl (fun s bs => s.extendMr mr (Config.sm3 bs)) s
  | none => s

/-- One step of boot under one directory (R414): an empty partition is skipped, but for trim; `none` where it fails. -/
def State.bootTry (s : State) (dir : List Byte) (kind : Nat) : Option State :=
  let bs := s.theham.reads dir kind
  if bs.isEmpty && kind != 6 then some s
  else if s.partitionOk dir kind then
    let t := s.theham
    let t := if natBit t.moved kind then t else t.setSlot kind ((Config.directoryEntry dir kind).slotB && decide (kind < 4)) false
    some ({ s with theham := t }.bootUse kind [bs])
  else none

/-- One step of boot (R414, R415, R420): under the directory in use; where it fails in a slot just activated, in the old slot, and else
under the other directory, if that verifies. `none` sends firmware to recovery. -/
def State.bootPart (s : State) (dir : List Byte) (other : Option (List Byte)) (kind : Nat) : Option State :=
  (s.bootTry dir kind).or (((s.theham.older.find? (fun o => o.kind == kind)).bind (fun o =>
    ({ s with theham := s.theham.revert o }.bootFallback).bootTry dir kind)).or (other.bind (fun d =>
      ({ s with theham := s.theham.setSlot kind false false }.bootFallback).bootTry d kind)))

/-- A step's outcome: boot goes on from what it left, or ends in recovery (R415). -/
def State.bootNext (s : State) (r : Option State) (recover : State → State) (next : State → State) : State :=
  match r with
  | some t => next t
  | none => recover s

/-- Steps 1 and 2 (R414): the PLLs have locked, and firmware runs from ROM; pending updates become active (R420). -/
def State.bootStart (s : State) : State :=
  let s := ((s.setFld (clkAt 0x44) 4 0 31).setFlag (clkAt 0x44) 9 true).extendMr 0 Config.romDigest
  { s with theham := { s.theham.activate with inUse := [] } }

/-- Step 4 (R414, R502): the HBM PHYs are switched on and their PLLs lock. -/
def State.bootTrim (s : State) : State :=
  let s := s.setFld (clkAt 0x44) 8 5 15
  { s with pwr := { s.pwr with on := s.pwr.on ||| BitVec.ofNat 84 (15 * 2 ^ 70) } }

/-- Step 5 (R36, R407, R499, R502): the pin configuration and the domains that the configuration names. -/
def State.bootConfig (s : State) : State :=
  let s := ((s.enablePage 4).enablePage 5).nameAgent
  (s.theham.packages 1).foldl (fun s bs =>
    let b := Config.configChoice (Config.packageBody bs)
    let s := b.pins.foldl (fun (s : State) (p : Nat × BitVec 32) => if p.1 < 92 then s.setReg (xbarAt p.1) p.2 else s) s
    let s := (segsOf b.segmentsOn).foldl State.domainUp s
    (List.range 4).foldl (fun s k => if b.laneGroupsOn.getLsbD k then s.domainUp (64 + k) else s) s) s

/-- The feature packages for this device that verify and are not too old, measured in load order (R417, R419). -/
def State.bootFeatures (s : State) (dir : List Byte) : State :=
  s.bootUse 4 ((packagesIn 4 (s.theham.reads dir 4)).filter (fun bs => s.packageOk 4 bs && s.versionOk 4 bs))

/-- Step 8 (R21, R36, R177): what HBM and die-to-die training found. -/
def State.bootTraining (s : State) (b : BootInput) : State :=
  let s := (List.range 4).foldl (fun s k =>
    s.setReg (hbmcAt k 0x44) (BitVec.ofNat 32 (b.pcTrained.toNat / 2 ^ (32 * k)))) s
  let s := (List.range 4).foldl (fun s k => s.domainUp (70 + k)) s
  { s with fab := { s.fab with linkBad := b.linksFailed } }

/-- The pages that the firmware cores own at the end of boot (R408). -/
def firmwarePages : List Nat := [1, 3, 6, 8, 0xD, 0xA0, 0xA1, 0xA2, 0xA3, 0x130, 0x100] ++ (List.range 9).map (0x120 + ·)

/-- The pages that firmware enables at boot step 9 (R36). -/
def servedPages : List Nat := [6, 7, 0xB, 0x110, 0x111, 0x112] ++ (List.range 16).map (0x100 + ·) ++ (List.range 9).map (0x120 + ·)

/-- The default routes (R426): completion sources to their own function's vector 0, all others to the PF's vector 2, with log set. -/
def State.defaultRoutes (s : State) : State :=
  (List.range 512).foldl (fun s i =>
    s.setReg (evtRoute i) (if 352 ≤ i ∧ i < 416 then BitVec.ofNat 32 (i - 352 + 2 ^ 9 + 2 ^ 15) else defaultRoute)) s

/-- Firmware serves commands (R408, R414, R415): stage 1 READY or 2 RECOVERY. -/
def State.serve (s : State) (stage : Nat) : State :=
  ((s.handPages firmwarePages .fw).defaultRoutes).setFld (PageKind.dev.at 0x44) 1 0 stage

/-- The HBM that firmware allocates at boot: the 16 MiB table of queue descriptors (R388), and 64 MiB of spill ring for each dispatcher
group with its capacity (R397, R402). -/
def State.bootHbm (s : State) : State :=
  let s := ((s.allocHbm 0x1000000 65).map (·.2)).getD s
  match s.allocHbm (16 * 0x4000000) 66 with
  | some (_, s) => (List.range 16).foldl (fun s g => s.setReg (dispAt g 0x4C) Config.spillPackets) s
  | none => s

/-- Step 9 (R36, R414): READY. -/
def State.bootReady (s : State) : State := (servedPages.foldl State.enablePage s.bootHbm).serve 1

/-! ### The auto-load image (R416) -/

/-- The switches under way end, those that wait with them. -/
def State.settle (s : State) : State :=
  (List.range 84).foldl (fun s _ => match s.pwr.busy with
    | x :: _ => s.switchDone x
    | [] => s) s

/-- The caller that firmware is for the auto-load: nobody is answered. -/
def autoCall : Call := { ring := .host 0, index := 0, tag := 0, irq := false, dmaOk := true, lost := true }

/-- The auto-load refused: its status is logged, and DEV_BOOT.autoload shows it (R416, R428). -/
def State.autoRefused (s : State) (status : Nat) : State := (s.setFld (PageKind.dev.at 0x44) 5 4 3).thehamEvent status []

/-- The auto-loaded job started as the configuration says, or the refusal (R416). -/
def State.autoBegin (s : State) (j : Nat) (p : RunParams) : State :=
  match s.startFault j p.d1 p.d2 p.d3, (s.job j).image with
  | none, some im =>
    if runFields p.d1 p.d2 p.d3 p.lag p.ckLead then
      (s.startJob j im p.d1 p.d2 p.d3 p.lag p.ckLead p.pinGate).setFld (PageKind.dev.at 0x44) 5 4 2
    else s.autoRefused 0x0011
  | code, _ => s.autoRefused (code.getD 0x0203)

/-- The auto-loaded job: created for the PF on the image's mask, the image loaded and, if the configuration says so, started (R416). -/
def State.autoJob (s : State) (image : List Byte) : State :=
  let s := { s with theham := { s.theham with image := Sparse.putBytes ([] : Sparse Byte) 0 image } }
  match s.makeJob (BitVec.ofNat 64 (leNat ((image.drop 0x18).take 8))) 0 with
  | .inl status => s.autoRefused status
  | .inr (j, t) =>
    let t := t.settle
    let q : LoadReq := { call := autoCall, place := ⟨false, flashFn, 0⟩, len := image.length, shift := false, compare := false
                         report := 0, capacity := 0 }
    let x := t.job j
    let t := t.setJob j { x with prev := x.state, state := .loading, load := some q }
    let (t, status, faults) := t.loadResult j q
    if (t.job j).state = JobState.loaded then
      let t := t.setFld (PageKind.dev.at 0x44) 5 4 1
      match (t.theham.packages 1).head?.bind (fun bs => (Config.configChoice (Config.packageBody bs)).autoStart) with
      | some p => t.autoBegin j p
      | none => t
    else t.autoRefused ((faults.head?.map (fun (f : FaultRec) => f.code)).getD status)

/-- Firmware enters recovery after it has served (R415, R428). -/
def State.recover (s : State) : State := s.setFld (PageKind.dev.at 0x44) 1 0 2

/-- Step 10 (R414–R416): the auto-load image, skipped where its partition is empty. -/
def State.autoLoad (s : State) (dir : List Byte) (other : Option (List Byte)) : State :=
  s.bootNext (s.bootPart dir other 5) State.recover (fun s =>
    (s.theham.packages 5).foldl (fun s bs => s.autoJob (Config.packageBody bs)) s)

/-! ### The resets -/

/-- The boundary scan at the release of a device reset (R459): an instruction of the chain in force gives the pins back to the core logic
and acts as BYPASS from then on. -/
def State.scanRelease (s : State) : State :=
  if [3, 4, 5, 6, 7].contains s.tap.ir && !s.tap.refused then { s with tap := { s.tap with refused := true } }.emit (.pads s.tap.cells .core)
  else s

/-- The directory in a slot, where it verifies (R414, R415, R419). -/
def State.directoryIn (s : State) (slotB : Bool) : Option (List Byte) :=
  let bs := s.theham.part 0 slotB
  if s.packageOk 0 bs && s.versionOk 0 bs then some bs else none

/-- Firmware enters recovery before it has served (R415). -/
def State.serveRecovery (s : State) : State := s.serve 2

/-- Boot from step 3 on with the directory in use and the other one, if that verifies (R414, R415): a failed trim is permanent. -/
def State.bootSteps (s : State) (dir : List Byte) (other : Option (List Byte)) (b : BootInput) : State :=
  let s := s.bootUse 0 [dir]
  if s.theham.trimBad then s.serve 2
  else
    s.bootNext (s.bootPart dir other 6) (fun s => { s with theham := { s.theham with trimBad := true } }.serve 2) (fun s =>
    let s := s.bootTrim
    s.bootNext (s.bootPart dir other 1) State.serveRecovery (fun s =>
    let s := s.bootConfig
    s.bootNext (s.bootPart dir other 2) State.serveRecovery (fun s =>
    let s := s.placePatch
    s.bootNext (s.bootPart dir other 3) State.serveRecovery (fun s =>
      (((s.loadAgent.bootFeatures dir).bootTraining b).bootReady).autoLoad dir other))))

/-- The boot that follows the release of a device reset (R414, R415): the directory that the last update of one set, else A, is read
first. -/
def State.boot (s : State) (b : BootInput) : State :=
  let s := s.scanRelease.bootStart
  let slot := natBit s.theham.moved 0 && natBit s.theham.slotsUsed 0
  let inSlot := fun (s : State) (slotB : Bool) => { s with theham := s.theham.setSlot 0 slotB (natBit s.theham.moved 0) }
  match s.directoryIn slot, s.directoryIn (!slot) with
  | some d, other => (inSlot s slot).bootSteps d other b
  | none, some d => (inSlot s.bootFallback (!slot)).bootSteps d none b
  | none, none => s.bootFallback.serve 2

/-- A power-on reset before boot (R505): the debug domain, the trip latch and WDT1's expiries too. The level of WHISTLE_IN stays. -/
def State.resetPower (s : State) : State :=
  let whistle := s.flag whistleReg 5
  let s := { s with regs := [], pages := [], tap := {}, dbg := {}, trace := {}, pwr := {}, pins := {}, pkgHalt := false }
  (if whistle then s.setFlag whistleReg 5 true else s).resetDevice .powerOn

/-- POWER_ON_RESET (R424, R505). -/
def execPowerOnReset (boot : BootInput) (s : State) : Host.Outcome State Fault Refusal :=
  .next ((s.resetPower.boot boot).scoreAdd 3873 1)

/-- DEVICE_RESET (R505). -/
def execDeviceReset (cause : ResetCause) (boot : BootInput) (s : State) : Host.Outcome State Fault Refusal :=
  match cause with
  | .powerOn => execPowerOnReset boot s
  | _ => .next ((s.resetDevice cause).boot boot)

end Sys2Proof.Machine
end

