-- ==== Sys2Proof/Machine/HostSpace.lean ====
section
/-! DEFINITION. What a host function reaches beside BAR0 and BAR2: the doorbells, the MSI-X table and the PBA in its BAR4 (R364, R365),
and its configuration space (R357, R358). A register access names them by addresses beyond BAR0 (assumption 122). -/

namespace Sys2Proof.Machine

/-- An access that fails (R37): recorded on the `DEV` page and, for a host access, with the PCIe registers (R362, R378), where a read
that completes with 0 counts like a discarded write: which half of PCIE_ERR_CNT it counts in the spec does not say (DESIGN CHOICE,
assumption 125). -/
def State.miss (s : State) (rq : Requester) (code addr : Nat) (write : Bool) : State :=
  let s := s.recordMiss rq code addr
  match rq with
  | .pf | .vf _ => (s.pcieLast (rqFn rq) write 0 addr code).bump (pcieAt 0x54) 31 16 1
  | _ => s

/-! ### Doorbells (R364, R431, R432) -/

/-- The difference of two counts mod 2^32 (R431). -/
def countDiff (a b : Word) : Nat := (a - b).toNat

/-- A ring error (R432, R434): the first cause stays. -/
def State.ringError (s : State) (fn cause : Nat) : State :=
  if s.flag (mboxAt fn 0x5C) 0 then s else s.setFld (mboxAt fn 0x5C) 3 0 (1 + 2 * cause)

/-- The command doorbell (R431, R432, R434). -/
def State.cmdDoorbell (s : State) (fn : Nat) (value : Word) : State :=
  if s.flag (mboxAt fn 0x50) 0 && decide (2 ^ s.fld (mboxAt fn 0x50) 7 4 < countDiff value (s.reg (mboxAt fn 0x54))) then
    s.ringError fn 1
  else (s.setPcieFn fn { s.pcieFn fn with dbCmd := value }).setReg (mboxAt fn 0x60) value

/-- The completion doorbell (R431, R432). -/
def State.cplDoorbell (s : State) (fn : Nat) (value : Word) : State :=
  let old := (s.pcieFn fn).dbCpl
  if s.flag (mboxAt fn 0x50) 0 && decide (countDiff (s.reg (mboxAt fn 0x58)) old < countDiff value old) then s.ringError fn 2
  else s.setPcieFn fn { s.pcieFn fn with dbCpl := value }

/-! ### BAR4 (R364, R365) -/

/-- A word of a function's BAR4 as a read returns it (R364). What a dispatcher doorbell reads no rule says: a free value. -/
def State.bar4Word (s : State) (fn off : Nat) : Word :=
  let f := s.pcieFn fn
  if off = 0 then f.dbCmd
  else if off = 8 then f.dbCpl
  else if 0x2000 ≤ off ∧ off < 0x2080 then
    let i := (off - 0x2000) / 4
    if i % 4 = 3 then BitVec.ofNat 32 (boolNat (f.masked.getLsbD (i / 4))) else Sparse.get 0 f.table i
  else if off = 0x3000 then f.pba.setWidth 32
  else if 0x100000 ≤ off then Config.freeWord s.free
  else 0

/-- A word written to a function's BAR4 (R364, R365, R390): a doorbell, or a word of the MSI-X table. -/
def State.bar4Write (s : State) (fn off : Nat) (v : Word) : State :=
  if off = 0 then s.cmdDoorbell fn v
  else if off = 8 then s.cplDoorbell fn v
  else if 0x2000 ≤ off ∧ off < 0x2080 then
    let i := (off - 0x2000) / 4
    if i % 4 = 3 then s.msixMask fn (i / 4) (v.getLsbD 0)
    else
      let f := s.pcieFn fn
      s.setPcieFn fn { f with table := Sparse.set 0 f.table i (if i % 4 = 0 then v &&& 0xFFFFFFFC else v) }
  else if 0x100000 ≤ off ∧ off % 8 = 0 then s.flowDoorbell fn ((off - 0x100000) / 8) v.toNat
  else s

/-! ### Configuration space (R357, R358, R365, R366) -/

/-- A word of a function's configuration space as a read returns it: Link Status shows what the link has come to (R355). -/
def State.configWord (s : State) (fn off : Nat) : Word :=
  let v := (s.pcieFn fn).config fn off
  if off = cfgLink ∧ fn = 0 then
    v ||| BitVec.ofNat 32 (s.fld (pcieAt 0x40) 2 0 * 2 ^ 16 + s.fld (pcieAt 0x40) 7 3 * 2 ^ 20)
  else v

/-- Bytes of a word of configuration space written, those that `en` covers: Initiate Function Level Reset resets the function; the end
of a function's masking sends what it held back (R365); clearing VF Enable resets every VF (R366). NumVFs stands while VF Enable is
set, as SR-IOV has it. -/
def State.configWrite (s : State) (fn off : Nat) (v en : Word) : State :=
  let f := s.pcieFn fn
  let old := f.config fn off
  let vfs := (f.config fn cfgSriov).getLsbD 0
  let mask := if off = cfgNumVfs ∧ vfs then 0 else configMask fn off &&& en
  let new := (old &&& ~~~mask ||| (v &&& mask)) &&& ~~~(v &&& en &&& configClear off)
  let s := s.setPcieFn fn (f.setConfig off new)
  if off = cfgDevice ∧ (v &&& en).getLsbD 15 then s.flr fn
  else if off = cfgMsix then s.msixFlush fn
  else if off = cfgSriov ∧ vfs ∧ ¬ new.getLsbD 0 then ((List.range 63).map (· + 1)).foldl State.flrOne s
  else s

/-! ### Accesses -/

/-- A host function's write beyond BAR0: of configuration space up to a word; of BAR4 a word, or two of the MSI-X table. Other widths
are ignored, as is a write of a VF that is not enabled, which is recorded (R37, R366). -/
def State.spaceWrite (s : State) (rq : Requester) (addr width : Nat) (data : Dword) : State :=
  let fn := rqFn rq
  let v := data.setWidth 32
  if !s.fnOn fn then s.miss rq 0x000C addr true
  else if configBase ≤ addr then
    let sh := 8 * (addr % 4)
    if sh + width ≤ 32 then
      s.configWrite fn ((addr - configBase) / 4 * 4) (v <<< sh) (BitVec.ofNat 32 ((2 ^ width - 1) * 2 ^ sh))
    else s
  else
    let off := addr - bar4Base
    if width = 32 ∧ addr % 4 = 0 then s.bar4Write fn off v
    else if width = 64 ∧ addr % 8 = 0 ∧ 0x2000 ≤ off ∧ off < 0x2080 then
      (s.bar4Write fn off v).bar4Write fn (off + 4) ((data >>> 32).setWidth 32)
    else s

/-- A host function's read beyond BAR0: the word that holds the address, or for a 64-bit read of BAR4 the two words. -/
def State.spaceRead (s : State) (rq : Requester) (addr width : Nat) : State :=
  let fn := rqFn rq
  if !s.fnOn fn then s.miss rq 0x000C addr false
  else
    let v : Dword :=
      if configBase ≤ addr then (s.configWord fn ((addr - configBase) / 4 * 4)).setWidth 64
      else
        let off := (addr - bar4Base) / 4 * 4
        if width = 64 ∧ addr % 8 = 0 then s.bar4Word fn (off + 4) ++ s.bar4Word fn off else (s.bar4Word fn off).setWidth 64
    { s with busRead := some (rq, addr, v), free := s.free + 1 }

end Sys2Proof.Machine
end

