-- ==== Sys2Proof/Machine/Access.lean ====
section
/-! DEFINITION. Register accesses (R37–R56): the rows that read and write registers, and what a write of a command register brings
about. A row that names one register is the access to its address. -/

namespace Sys2Proof.Machine

/-! ### Command registers -/

/-- DEV_WHISTLE_CMD (R374, R376): an assertion by the PF or by the firmware cores has a source bit. -/
def State.whistleCmd (s : State) (rq : Requester) (v : Nat) : State :=
  let source := match rq with
    | .pf => 2
    | .fw => 3
    | _ => 0
  if natBit v 0 then s.assertWhistle source
  else if natBit v 1 then
    let (done, t) := s.clearWhistle
    if done then t else s.pgErr 0 0x0140 rq 0xA04
  else s

/-- Command registers of the `DEV` page (R51, R374, R376). -/
def State.cmdDev (s : State) (rq : Requester) (off v : Nat) : State :=
  if off = 0xA04 then s.whistleCmd rq v
  else if 0x200 ≤ off ∧ off < 0xA00 ∧ off % 0x200 = 0 then s.slotOp rq ((off - 0x200) / 0x200) (natBits v 1 0)
  else s

/-- PWR_REQ.go (R170, R501, R502): the domains that are always on switch to nothing (R500), and a request for the retention of a segment
with a running, held or halted job is refused: nothing happens, since R170 names no code (assumption 82). -/
def State.cmdPwr (s : State) (off v : Nat) : State :=
  let pd := s.fld (pwrAt 0x60) 6 0
  let op := s.fld (pwrAt 0x60) 9 8
  let refused := op == 2 && decide (pd < 64) && (match s.jobOfSeg pd with
    | some j => (s.job j).live
    | none => false)
  if off = 0x60 && natBit v 31 && ! [68, 69, 79, 81, 83].contains pd && !refused then
    s.powerSwitch pd (if op = 2 ∧ 64 ≤ pd then 0 else op) none
  else s

/-- TIME_CMD (R315, R316). -/
def State.cmdTime (s : State) (rq : Requester) (off v : Nat) : State :=
  if off = 0x60 then
    match natBits v 2 0 with
    | 1 => s.timeSetCmd rq
    | 2 => s.timeAdjCmd rq
    | 3 => s.timeArmCmd
    | 4 => s.timeCancelCmd
    | _ => s
  else s

/-- CAP_CMD (R340, R348). -/
def State.cmdCap (s : State) (off v : Nat) : State :=
  if off = 0x58 then
    match natBits v 2 0 with
    | 1 => s.capArm
    | 2 => s.capStop
    | 3 => s.capTrigger
    | _ => s
  else s

/-- Command registers of a lane page (R309, R311). LANE_CTL.auto_retrain, which is live, and the static fields of LANE_CTL are state that
the lane's machine reads. -/
def State.cmdLane (s : State) (n off v : Nat) : State :=
  match off with
  | 0xA4 => if natBit v 0 then s.patternClear n else s
  | 0xA8 => if natBit v 16 then s.injectFire n else s
  | _ => s

/-- Command registers of the DBG page (R464–R467, R473, R474): `old` is DBG_DCC_STAT before a write of it, whose tx_ie or rx_th may let an
interrupt of the message channel come. -/
def State.cmdDbg (s : State) (rq : Requester) (off v : Nat) (old : Word) : State :=
  match off with
  | 0x48 => if natBit v 0 then s.packageHalt .pkg else if natBit v 1 then s.packageResume rq else s
  | 0x58 =>
    if natBit v 0 then s.ucHalt s.dbg.core.pc s.dbg.core.mode s.dbg.core.reserved else s
  | 0xC4 => s.rxPush (BitVec.ofNat 32 v)
  | 0xC8 =>
    let before := s.setReg (dbgAt 0xC8) old
    let s := (s.dccIrq (before.dccHolds 513) 513).dccIrq (before.dccHolds 514) 514
    if natBit v 17 then s.txPop else s
  | 0x100 =>
    match natBits v 1 0 with
    | 1 => s.authChallenge rq
    | 2 => s.authVerify rq (natBits v 9 8)
    | 3 => s.authLock
    | _ => s
  | _ => s

/-- Command registers of the TRACE page (R482). -/
def State.cmdTrace (s : State) (rq : Requester) (off v : Nat) : State :=
  match off with
  | 0x40 =>
    match natBits v 1 0 with
    | 1 => s.traceBegin rq
    | 2 => s.traceEnd
    | _ => s
  | 0x4C => if natBit v 2 then s.traceTrigger 2 else s
  | _ => s

/-- MBOX_RING_CFG.enable as it changes (R431, R432, R434, R443): set, the counts start at 0 and the bases are checked; cleared, the
commands in progress have lost their ring. -/
def State.ringSwitch (s : State) (fn : Nat) (was now : Bool) : State :=
  if !was && now then
    let s := (s.zeroRing fn).setReg (mboxAt fn 0x5C) 0
    if s.fld (mboxAt fn 0x40) 5 0 = 0 ∧ s.fld (mboxAt fn 0x48) 5 0 = 0 then s else s.setFld (mboxAt fn 0x5C) 3 0 7
  else if was && !now then s.loseRing fn
  else s

/-- CKPT_JOB_CFG.enable as it changes (R259, R275, R283): checkpointing of the slot's job on, where the job and the space allow it, or
off. -/
def State.ckptSwitch (s : State) (j : Nat) (now : Bool) : State :=
  let x := s.job j
  let on := x.prot.state != .off
  if now && !on then
    if [JobState.loaded, .starting, .active].contains x.state then
      (s.protOn j (s.fld (ckptAt j 0) 22 16) 0).getD (s.setFlag (ckptAt j 0) 0 false)
    else s.setFlag (ckptAt j 0) 0 false
  else if !now && on then s.protDisable j
  else s

/-- What a write brings about beside the bits it stores: `t` holds the written bits that took effect, `old` the word before. -/
def State.commandEffect (s : State) (rq : Requester) (addr : Nat) (t old : Word) : State :=
  let off := addr % 0x1000
  let v := t.toNat
  match pageOf (pageNo addr) with
  | some (.dev, _) => s.cmdDev rq off v
  | some (.rst, _) =>
    if off = 0x44 ∧ natBits v 15 0 = 0xA5C3 then
      ({ s with free := s.free + 1 }.resetDevice .cmd).boot (Config.freeBoot s.free)
    else s
  | some (.wdt, _) => if off = 0x48 ∧ natBits v 15 0 = 0x5A5A then s.wdt0Reload else s
  | some (.ref, _) | some (.gpio, _) => s.blockEffect addr t
  | some (.fabs, _) => if off = 0x1A4 then s.setReg addr (s.reg addr ||| t) else s
  | some (.lane, n) => s.cmdLane n off v
  | some (.time, _) => s.cmdTime rq off v
  | some (.cap, i) => if i = 0 then s.cmdCap off v else s
  | some (.dbg, _) => s.cmdDbg rq off v old
  | some (.trace, _) => s.cmdTrace rq off v
  | some (.xbar, _) => if 0x40 ≤ off ∧ off < 0x1C0 then s.swapSource ((off - 0x40) / 4) old else s
  | some (.pwr, _) => s.cmdPwr off v
  | some (.mbox, _) => if off = 0x50 then s.ringSwitch (rqFn rq) (natBit old.toNat 0) (s.flag addr 0) else s
  | some (.ckpt, i) =>
    if i ≠ 0 ∧ off < 0x440 ∧ (off - 0x40) % 0x80 = 0 then s.ckptSwitch ((i - 1) * 8 + (off - 0x40) / 0x80) (s.flag addr 0) else s
  | _ => s

/-! ### Writes -/

/-- A write that waits while its page is frozen (R469): to a register of the block, PG_CTL, or a COMMIT or ROLLBACK of the page's shadow. -/
def State.freezeHolds (s : State) (page off : Nat) (v : Word) : Bool :=
  (s.page page).frozen && (decide (0x40 ≤ off) || off == 8 ||
    (off == 0x30 && (s.txnOf page).isNone && [2, 3].contains (natBits v.toNat 1 0)))

/-- Such a write kept; an open transaction takes its static and staged part as usual. -/
def State.freezeWrite (s : State) (rq : Requester) (addr : Nat) (v : Word) : State :=
  let page := pageNo addr
  let taken := (s.txnOf page).isSome && decide (0x40 ≤ addr % 0x1000)
  let s := if taken then (s.storeWord rq addr v (fun e => decide (effRank e < 2))).1 else s
  s.setPage page { s.page page with waits := (s.page page).waits ++ [.word rq addr v taken] }

/-- A word written to a register that its writer may write. -/
def State.performWrite (s : State) (rq : Requester) (addr : Nat) (v : Word) : State :=
  let page := addr / 0x1000
  let off := addr % 0x1000
  if s.freezeHolds page off v then s.freezeWrite rq addr v
  else if off < 0x40 then s.writeHeader rq page off v
  else
    let key := regKey rq addr
    let (t, took) := s.storeWord rq key v
    t.commandEffect rq key (v &&& took) (s.reg key)

/-- What a write does where it reaches its register and its writer may write it (R41): else the code of the refusal. -/
def State.writeGate (s : State) (rq : Requester) (addr : Nat) (body : State → State) : State :=
  match s.writerFault rq addr with
  | some c => s.pgErr (addr / 0x1000) c rq addr
  | none => body s

/-- The user core reaches an offset of BAR0 (R407, R476): a page of its own, the event controller's, and WDT0_KICK. -/
def State.ucReaches (s : State) (addr : Nat) (write : Bool) : Bool :=
  let page := addr / 0x1000
  (s.owner page).1 == 3 || page == 0xD || (write && addr == wdtAt 0x48)

/-- An access that reaches a register page: an access of the user core outside what it reaches faults it (R407), another fails as R37
says. -/
def State.reach (s : State) (rq : Requester) (addr : Nat) (write : Bool) (body : State → State) : State :=
  if rq == .uc && !s.ucReaches addr write then s.emit .ucFault
  else match s.accessFault rq addr with
    | some c => s.miss rq c addr write
    | none => body s

/-- What the second half of an access does after a first half that recorded a code in the page's PG_ERR: the same code again is
the one error of the one access, another code sets PG_ERR.more (R40). -/
def State.secondHalf (s : State) (page : Nat) (body : State → State) : State :=
  let e := s.reg (hdr page 0x1C)
  let t := body (s.setReg (hdr page 0x1C) 0)
  let code := t.fld (hdr page 0x1C) 15 0
  let more := code != 0 && code != natBits e.toNat 15 0
  (t.setReg (hdr page 0x1C) (if more then e ||| 0x80000000 else e)).setReg (hdr page 0x20) (s.reg (hdr page 0x20))

/-- A register access crosses the mesh (R367, R377); one of the user core that faults does not. -/
def State.crossReg (s : State) (rq : Requester) (addr : Nat) (write : Bool) : State :=
  if rq == .uc && !s.ucReaches addr write then s else s.cross rq addr write

/-- A posted write of a host function is in progress: the function's register accesses take effect after it (R363). -/
def State.behind (s : State) (rq : Requester) : Bool :=
  match rq with
  | .pf | .vf _ => s.access.any (fun a => a.write && !a.fw && a.fn == rqFn rq)
  | _ => false

/-- A register access takes its place in its function's order (R363): behind a posted write in progress it waits, else it is performed.
What waits keeps its address and data. -/
def State.inTurn (s : State) (rq : Requester) (addr width : Nat) (data : Dword) (write : Bool) (body : State → State) : State :=
  if s.behind rq then
    s.addAccess { id := s.nextAccess, fn := rqFn rq, reg := some (rq, addr, width, data), write := write, offset := addr, len := 0, left := 1 }
  else body (s.crossReg rq addr write)

/-- A register written (R37, R38): an aligned word or pair of words of BAR0, or what a host function writes in its BAR4 or its
configuration space. -/
def State.writeNow (s : State) (rq : Requester) (addr width : Nat) (data : Dword) : State :=
  if rq.hostSpace addr then s.spaceWrite rq addr width data
  else s.reach rq addr true (fun s =>
    let word := fun (a : Nat) (v : Nat) (s : State) => s.writeGate rq a (fun s => s.performWrite rq a (BitVec.ofNat 32 v))
    let page := addr / 0x1000
    if width = 32 ∧ addr % 4 = 0 then word addr data.toNat s
    else if width = 64 ∧ addr % 8 = 0 then
      let t := word addr data.toNat s
      let high := word (addr + 4) (data.toNat / 2 ^ 32)
      if s.reg (hdr page 0x1C) = 0 ∧ t.reg (hdr page 0x1C) ≠ 0 then t.secondHalf page high else high t
    else s.pgErr page 0x000D rq addr)

/-- A write access, in its function's order (R363). -/
def State.writeAccess (s : State) (rq : Requester) (addr width : Nat) (data : Dword) : State :=
  s.inTurn rq addr width data true (fun s => s.writeNow rq addr width data)

/-- An aligned 32-bit write. -/
def State.write32 (s : State) (rq : Requester) (addr : Nat) (v : Nat) : State := s.writeAccess rq addr 32 (BitVec.ofNat 64 v)

/-- A register's present value in its RW fields, to be written back with other bits set. -/
def State.rwBits (s : State) (addr : Nat) : Nat :=
  (s.reg addr &&& fieldMask ((fieldsAt (pageNo addr) (addr % 0x1000)).filter (fun f => f.acc == .rw))).toNat

/-- A register read (R10, R37, R38): what the read returns is the last bus read. A read of an unsupported width returns the enclosing
register, and counts as a 32-bit read of it for the holding register, on which R38 says nothing of such a width (DESIGN CHOICE,
assumption 68). -/
def State.readNow (s : State) (rq : Requester) (addr width : Nat) : State :=
  let s := { s with busRead := some (rq, addr, 0) }
  if rq.hostSpace addr then s.spaceRead rq addr width
  else s.reach rq addr false (fun s =>
    let page := addr / 0x1000
    let (v, t) := if width = 64 ∧ addr % 8 = 0 then s.readPair rq page (addr % 0x1000)
      else
        let (w, t) := s.readWord rq page (addr % 0x1000 / 4 * 4)
        (w.setWidth 64, t)
    { t with busRead := some (rq, addr, v), free := t.free + 1 })

/-- A read access, in its function's order (R363). -/
def State.readAccess (s : State) (rq : Requester) (addr width : Nat) : State :=
  s.inTurn rq addr width 0 false (fun s => s.readNow rq addr width)

/-! ### Rows of chapter "Register Pages" -/

/-- REG_WRITE (R37, R38, R42). -/
def execRegWrite (rq : Requester) (addr width : Nat) (data : BitVec 64) (s : State) : Host.Outcome State Fault Refusal :=
  .next (s.writeAccess rq addr width data)

/-- RC_READ (R10). -/
def execRcRead (rq : Requester) (addr width : Nat) (s : State) : Host.Outcome State Fault Refusal := .next (s.readAccess rq addr width)

/-- LOW_WORD_READ (R38). -/
def execLowWordRead (rq : Requester) (addr : Nat) (s : State) : Host.Outcome State Fault Refusal := .next (s.readAccess rq addr 32)

/-- DEBUG_READ (R56). -/
def execDebugRead (addr width : Nat) (s : State) : Host.Outcome State Fault Refusal := .next (s.readAccess .dbg addr width)

/-- UNMAPPED_ACCESS (R37): an access to an offset that no page maps, or whose domain is off. The user core's faults it (R407). -/
def execUnmappedAccess (rq : Requester) (addr : Nat) (write : Bool) (s : State) : Host.Outcome State Fault Refusal :=
  match s.accessFault rq addr with
  | some _ => .next (if write then s.writeAccess rq addr 32 0 else s.readAccess rq addr 32)
  | none => .next s

/-- PAIR_TIMEOUT (R40, R47): the held values of a group are discarded. -/
def execPairTimeout (page group : Nat) (s : State) : Host.Outcome State Fault Refusal :=
  let d := s.page page
  let mine := fun (w : HeldWrite) => pairGroup w.addr == some group
  match (d.pairs.filter mine).getLast? with
  | some w =>
    let s := s.setPage page { d with pairs := d.pairs.filter (fun w => !mine w) }
    .next ((s.pgErr page 3 w.rq w.addr).raiseIrq page 1)
  | none => .next s

/-- SOFT_RESET (R11): a write of PG_CTL.soft_reset. -/
def execSoftReset (rq : Requester) (page : Nat) (s : State) : Host.Outcome State Fault Refusal := .next (s.write32 rq (hdr page 8) 2)

/-- PG_ENABLE_WRITE (R36): a write of PG_CTL with freeze_on_halt as it stands. -/
def execPgEnableWrite (rq : Requester) (page : Nat) (enable : Bool) (s : State) : Host.Outcome State Fault Refusal :=
  .next (s.write32 rq (hdr page 8) (boolNat enable + 4 * boolNat (s.flag (hdr page 8) 2)))

/-- PG_IRQ_CLEAR (R39). -/
def execPgIrqClear (rq : Requester) (page : Nat) (value : BitVec 32) (s : State) : Host.Outcome State Fault Refusal :=
  .next (s.write32 rq (hdr page 0x10) value.toNat)

/-- PG_IRQ_SET (R39). -/
def execPgIrqSet (rq : Requester) (page : Nat) (value : BitVec 32) (s : State) : Host.Outcome State Fault Refusal :=
  .next (s.write32 rq (hdr page 0x18) value.toNat)

/-- PG_TXN_BEGIN (R50). -/
def execPgTxnBegin (rq : Requester) (page : Nat) (timeoutUs : BitVec 16) (s : State) : Host.Outcome State Fault Refusal :=
  .next (s.write32 rq (hdr page 0x30) (1 + timeoutUs.toNat * 2 ^ 16))

/-- PG_TXN_COMMIT (R43, R50, R53). -/
def execPgTxnCommit (rq : Requester) (page : Nat) (s : State) : Host.Outcome State Fault Refusal := .next (s.write32 rq (hdr page 0x30) 2)

/-- PG_TXN_ROLLBACK (R43, R50, R55). -/
def execPgTxnRollback (rq : Requester) (page : Nat) (s : State) : Host.Outcome State Fault Refusal := .next (s.write32 rq (hdr page 0x30) 3)

/-- DEV_TXN_CTL of a slot (R51). -/
def devTxnAt (slot : Nat) : Nat := 0x200 + 0x200 * slot

/-- DEV_TXN_BEGIN (R52). -/
def execDevTxnBegin (rq : Requester) (slot : Nat) (s : State) : Host.Outcome State Fault Refusal := .next (s.write32 rq (devTxnAt slot) 1)

/-- DEV_TXN_COMMIT (R53). -/
def execDevTxnCommit (rq : Requester) (slot : Nat) (s : State) : Host.Outcome State Fault Refusal := .next (s.write32 rq (devTxnAt slot) 2)

/-- DEV_TXN_ROLLBACK (R55). -/
def execDevTxnRollback (rq : Requester) (slot : Nat) (s : State) : Host.Outcome State Fault Refusal := .next (s.write32 rq (devTxnAt slot) 3)

/-- TXN_TIMEOUT (R55). -/
def execTxnTimeout (slot : Bool) (n : Nat) (s : State) : Host.Outcome State Fault Refusal :=
  let r : TxnRef := if slot then .slot n else .page n
  if [TxnState.opened, .commitPending].contains (s.txnInfo r).1 then .next (s.txnAbort r 8 false) else .next s

/-! ### Rows of one register -/

/-- BP_ECC_INJECT (R88): FABC_BP_INJ. -/
def execBpEccInject (rq : Requester) (cl : Nat) (value : BitVec 32) (s : State) : Host.Outcome State Fault Refusal :=
  .next (s.write32 rq (fabcAt cl 0x58) value.toNat)

/-- CW_ECC_INJECT (R115): FABC_CW_INJ. -/
def execCwEccInject (rq : Requester) (cl : Nat) (value : BitVec 32) (s : State) : Host.Outcome State Fault Refusal :=
  .next (s.write32 rq (fabcAt cl 0x88) value.toNat)

/-- NET_ECC_INJECT (R136): FABC_NET_INJ. -/
def execNetEccInject (rq : Requester) (cl : Nat) (value : BitVec 32) (s : State) : Host.Outcome State Fault Refusal :=
  .next (s.write32 rq (fabcAt cl 0x108) value.toNat)

/-- MB_ECC_INJECT (R167): FABC_MB_INJ. -/
def execMbEccInject (rq : Requester) (cl : Nat) (value : BitVec 32) (s : State) : Host.Outcome State Fault Refusal :=
  .next (s.write32 rq (fabcAt cl 0x194) value.toNat)

/-- REF_CNT_CLR (R202). -/
def execRefCntClr (rq : Requester) (pc : Nat) (value : BitVec 32) (s : State) : Host.Outcome State Fault Refusal :=
  .next (s.write32 rq (refAt pc 0x54) value.toNat)

/-- LINE_PULSE (R114): FABS_LINE_PULSE. -/
def execLinePulse (rq : Requester) (seg : Nat) (value : BitVec 32) (s : State) : Host.Outcome State Fault Refusal :=
  .next (s.write32 rq (fabsAt seg 0x1A4) value.toNat)

/-- CLK_STEP_WRITE (R2, R504). -/
def execClkStepWrite (rq : Requester) (n : BitVec 32) (s : State) : Host.Outcome State Fault Refusal :=
  .next (s.write32 rq (clkAt 0x40) n.toNat)

/-- LANE_UP_WRITE (R306): LANE_CTL. -/
def execLaneUpWrite (rq : Requester) (lane : Nat) (value : BitVec 32) (s : State) : Host.Outcome State Fault Refusal :=
  .next (s.write32 rq (laneAt lane 0x40) value.toNat)

/-- LANE_PAT_CLR (R311). -/
def execLanePatClr (rq : Requester) (lane : Nat) (s : State) : Host.Outcome State Fault Refusal := .next (s.write32 rq (laneAt lane 0xA4) 1)

/-- LANE_INJ_FIRE (R309): LANE_INJ with its mode as it stands. -/
def execLaneInjFire (rq : Requester) (lane : Nat) (s : State) : Host.Outcome State Fault Refusal :=
  .next (s.write32 rq (laneAt lane 0xA8) (s.rwBits (laneAt lane 0xA8) + 2 ^ 16))

/-- TIME_NOW_LATCH (R313): a 32-bit read of TIME_NOW_FRAC. -/
def execTimeNowLatch (rq : Requester) (s : State) : Host.Outcome State Fault Refusal := .next (s.readAccess rq (timeAt 0x40) 32)

/-- TIME_SET (R315). -/
def execTimeSet (rq : Requester) (s : State) : Host.Outcome State Fault Refusal := .next (s.write32 rq (timeAt 0x60) 1)

/-- TIME_ADJ (R316). -/
def execTimeAdj (rq : Requester) (s : State) : Host.Outcome State Fault Refusal := .next (s.write32 rq (timeAt 0x60) 2)

/-- TIME_CMD_ARM (R315). -/
def execTimeCmdArm (rq : Requester) (s : State) : Host.Outcome State Fault Refusal := .next (s.write32 rq (timeAt 0x60) 3)

/-- TIME_CANCEL (R316). -/
def execTimeCancel (rq : Requester) (s : State) : Host.Outcome State Fault Refusal := .next (s.write32 rq (timeAt 0x60) 4)

/-- TIME_CAP_READ (R320): a read of TIME_CAP_SEC_HI_k. -/
def execTimeCapRead (rq : Requester) (k : Nat) (s : State) : Host.Outcome State Fault Refusal :=
  .next (s.readAccess rq (timeAt (0x20C + 0x10 * k)) 32)

/-- CAP_ARM (R348). -/
def execCapArm (rq : Requester) (s : State) : Host.Outcome State Fault Refusal := .next (s.write32 rq (capAt 0 0x58) 1)

/-- CAP_STOP (R348). -/
def execCapStop (rq : Requester) (s : State) : Host.Outcome State Fault Refusal := .next (s.write32 rq (capAt 0 0x58) 2)

/-- CAP_TRIGGER (R340). -/
def execCapTrigger (rq : Requester) (s : State) : Host.Outcome State Fault Refusal := .next (s.write32 rq (capAt 0 0x58) 3)

/-- DEV_WHISTLE_ASSERT (R374). -/
def execDevWhistleAssert (rq : Requester) (s : State) : Host.Outcome State Fault Refusal := .next (s.write32 rq (PageKind.dev.at 0xA04) 1)

/-- DEV_WHISTLE_CLEAR (R376). -/
def execDevWhistleClear (rq : Requester) (s : State) : Host.Outcome State Fault Refusal := .next (s.write32 rq (PageKind.dev.at 0xA04) 2)

/-- MBOX_RING_ENABLE (R432): a function sets the enable of its own bank. -/
def execMboxRingEnable (rq : Requester) (fn : Nat) (s : State) : Host.Outcome State Fault Refusal :=
  if rqFn rq = fn then .next (s.write32 rq (PageKind.mbox.at 0x50) (s.rwBits (mboxAt fn 0x50) / 2 * 2 + 1)) else .next s

/-- WDT0_KICK (R475, R476). -/
def execWdt0Kick (rq : Requester) (key : BitVec 32) (s : State) : Host.Outcome State Fault Refusal := .next (s.write32 rq (wdtAt 0x48) key.toNat)

/-- DBG_AUTH_CHALLENGE (R464). -/
def execDbgAuthChallenge (rq : Requester) (s : State) : Host.Outcome State Fault Refusal := .next (s.write32 rq (dbgAt 0x100) 1)

/-- DBG_AUTH_VERIFY (R464). -/
def execDbgAuthVerify (rq : Requester) (scope : BitVec 2) (s : State) : Host.Outcome State Fault Refusal :=
  .next (s.write32 rq (dbgAt 0x100) (2 + scope.toNat * 2 ^ 8))

/-- DBG_AUTH_LOCK (R465). -/
def execDbgAuthLock (rq : Requester) (s : State) : Host.Outcome State Fault Refusal := .next (s.write32 rq (dbgAt 0x100) 3)

/-- PACKAGE_HALT (R466). -/
def execPackageHalt (rq : Requester) (s : State) : Host.Outcome State Fault Refusal := .next (s.write32 rq (dbgAt 0x48) 1)

/-- PACKAGE_RESUME (R467). -/
def execPackageResume (rq : Requester) (s : State) : Host.Outcome State Fault Refusal := .next (s.write32 rq (dbgAt 0x48) 2)

/-- UC_HALT_REQUEST (R470, R473): a write of DBG_UC_CMD.halt, with the user core's pc, mode and reservation at that moment. -/
def execUcHaltRequest (rq : Requester) (pc : BitVec 32) (mode : BitVec 2) (reserved : Bool) (s : State) :
    Host.Outcome State Fault Refusal :=
  .next (s.inTurn rq (dbgAt 0x58) 32 1 true (fun s =>
    s.reach rq (dbgAt 0x58) true (fun s => s.writeGate rq (dbgAt 0x58) (fun s => s.ucHalt pc mode.toNat reserved))))

/-- DCC_TX_READ (R474). -/
def execDccTxRead (rq : Requester) (s : State) : Host.Outcome State Fault Refusal := .next (s.readAccess rq (dbgAt 0xC0) 32)

/-- DCC_TX_POP (R474): a write of DBG_DCC_STAT.tx_pop. -/
def execDccTxPop (rq : Requester) (s : State) : Host.Outcome State Fault Refusal :=
  .next (s.write32 rq (dbgAt 0xC8) (s.rwBits (dbgAt 0xC8) + 2 ^ 17))

/-- DCC_RX_PUSH (R474). -/
def execDccRxPush (rq : Requester) (word : BitVec 32) (s : State) : Host.Outcome State Fault Refusal := .next (s.write32 rq (dbgAt 0xC4) word.toNat)

/-- TRACE_START (R482). -/
def execTraceStart (rq : Requester) (s : State) : Host.Outcome State Fault Refusal := .next (s.write32 rq (traceAt 0x40) 1)

/-- TRACE_STOP (R482). -/
def execTraceStop (rq : Requester) (s : State) : Host.Outcome State Fault Refusal := .next (s.write32 rq (traceAt 0x40) 2)

/-- GPIO_SET (R491). -/
def execGpioSet (rq : Requester) (w : Nat) (bits : BitVec 32) (s : State) : Host.Outcome State Fault Refusal :=
  .next (s.write32 rq (gpioAt (0x60 + 4 * w)) bits.toNat)

/-- GPIO_CLR (R491). -/
def execGpioClr (rq : Requester) (w : Nat) (bits : BitVec 32) (s : State) : Host.Outcome State Fault Refusal :=
  .next (s.write32 rq (gpioAt (0x70 + 4 * w)) bits.toNat)

/-- GPIO_TGL (R491). -/
def execGpioTgl (rq : Requester) (w : Nat) (bits : BitVec 32) (s : State) : Host.Outcome State Fault Refusal :=
  .next (s.write32 rq (gpioAt (0x80 + 4 * w)) bits.toNat)

/-- GPIO_XBAR_SEL_WRITE (R489, R492, R499): the source of a pin, its other fields as they stand. -/
def execGpioXbarSelWrite (rq : Requester) (pin : Nat) (sel : BitVec 8) (s : State) : Host.Outcome State Fault Refusal :=
  .next (s.write32 rq (xbarAt pin) (natPut (s.rwBits (xbarAt pin)) 7 0 sel.toNat))

/-- PWR_REQ_GO (R501, R502). -/
def execPwrReqGo (rq : Requester) (value : BitVec 32) (s : State) : Host.Outcome State Fault Refusal :=
  .next (s.write32 rq (pwrAt 0x60) value.toNat)

/-- RST_CMD (R505, R509): the key starts a device reset, for which `boot` gives what boot meets. -/
def execRstCmd (rq : Requester) (key : BitVec 32) (boot : BootInput) (s : State) : Host.Outcome State Fault Refusal :=
  .next (s.inTurn rq (rstAt 0x44) 32 (key.setWidth 64) true (fun s =>
    s.reach rq (rstAt 0x44) true (fun s => s.writeGate rq (rstAt 0x44) (fun s =>
      if natBits key.toNat 15 0 = 0xA5C3 then (s.resetDevice .cmd).boot boot else s))))

end Sys2Proof.Machine
end

