-- ==== Sys2Proof/Machine/Serve.lean ====
section
/-! DEFINITION. Host accesses in progress (R360–R364): BAR2 and AtomicOps, the order of one function's accesses, and the completion of the
hub requesters' HBM requests (R193, R362). -/

namespace Sys2Proof.Machine

/-! ### Order and progress (R193, R363) -/

/-- A posted write that the same function made earlier is still in progress: a later write takes effect after it, and a later read
reflects it (R363). -/
def State.hostHeld (s : State) (a : HostAccess) : Bool :=
  (s.access.takeWhile (fun x => x.id != a.id)).any (fun x => x.write && x.fn == a.fn && x.fw == a.fw)

/-- A register access that waited is performed (R363). -/
def State.regPerform (s : State) (a : HostAccess) (r : Requester × Nat × Nat × Dword) : State :=
  let s := { s with access := s.access.filter (fun x => x.id != a.id) }.crossReg r.1 r.2.1 a.write
  if a.write then s.writeNow r.1 r.2.1 r.2.2.1 r.2.2.2 else s.readNow r.1 r.2.1 r.2.2.1

/-- The requester of each referee that carries an access: host DMA, or firmware (R193). -/
def HostAccess.port (a : HostAccess) : Nat := if a.fw then 21 else 20

/-- What of an access is not yet presented goes on its way: its beats join the FIFOs of its requester, in order and as far as there is
room, a locked pair together (R193), and its bank requests go to the dynamic ports in order (R163, R164). -/
def State.hostBeats (s : State) (a : HostAccess) : State :=
  let r := a.todo.foldl (fun (acc : State × List (Nat × RefReq)) (b : Nat × RefReq) =>
    let s := acc.1
    let xs := (s.ref b.1).fifo a.port
    if acc.2.any (fun x => x.1 == b.1) || decide (8 < xs.length + b.2.lock) then (s, acc.2 ++ [b])
    else
      let pend : RefPend := { req := b.2, age := 0, boost := 0, waited := 0, fresh := true, held := false }
      (s.setRef b.1 ((s.ref b.1).setFifo a.port (xs ++ [pend])), acc.2)) (s, [])
  let s := { r.1 with access := r.1.access.map (fun x => if x.id = a.id then { x with todo := r.2, reqs := [] } else x) }
  a.reqs.foldl State.dynPost s

/-- An access in progress goes on: a register access that waited is performed, another is presented. -/
def State.hostPresent (s : State) (a : HostAccess) : State :=
  match a.reg with
  | some r => s.regPerform a r
  | none => s.hostBeats a

/-- The accesses in progress go on, the oldest first, each behind its function's earlier posted writes (R193, R363). -/
def State.hostPump (s : State) : State :=
  s.access.foldl (fun s a => if s.hostHeld a || !(s.access.any (fun x => x.id == a.id)) then s else s.hostPresent a) s

/-- A new access joins those in progress and goes on its way. -/
def State.hostStart (s : State) (a : HostAccess) : State := ((s.addAccess a).setAccess a).hostPump

/-- MB_DYN_RETRY (R161): the oldest waiting request of a bank is presented again; the host's next follow where it was awaited. -/
def execMbDynRetry (bank : Nat) (busy : Bool) (s : State) : Host.Outcome State Fault Refusal := .next (s.dynRetry bank busy).hostPump

/-- REFEREE_DECISION (R195). A grant that makes room lets the host's next beats in, so that a locked pair follows on (R193). -/
def execRefereeDecision (pc : Nat) (s : State) : Host.Outcome State Fault Refusal :=
  .next (if pc < 128 then (s.refereeCycle pc).hostPump else s)

/-- The answer to an access that is not served (R360, R361); firmware's is one to an offset that nothing maps (R37, R369). -/
def State.hostReject (s : State) (a : HostAccess) (bar : Nat) (st : ReqStatus) : State :=
  if a.fw then (s.miss .fw 0x000C a.offset a.write).hostAnswer a (List.replicate a.len 0) .ok
  else (s.hostFail a.fn a.write a.atomic bar a.offset st).hostAnswer a [] st

/-- An access to memory is served: firmware's wherever there is memory, a function's as R360 says. -/
def State.accessServed (s : State) (a : HostAccess) : Bool :=
  if a.fw then decide (a.offset + a.len ≤ apertureBase) || (decide (apertureBase ≤ a.offset) && decide (a.offset + a.len ≤ apertureEnd))
  else s.bar2Served a.fn a.offset a.len

/-- A read of memory starts (R360): HBM by aligned beats, model memory by words. -/
def State.readMemory (s : State) (a : HostAccess) : State :=
  if !s.accessServed a then s.hostReject a 1 .ur
  else if a.offset < apertureBase then
    let beats := (blocksOf 64 a.offset a.len).map (fun p =>
      (pcOf p, ({ offset := pcOffset p, write := false, data := [], lock := 1, id := a.id } : RefReq)))
    s.hostStart { a with todo := beats, left := beats.length }
  else
    let ws := (blocksOf 8 a.offset a.len).map apertureWord
    s.hostStart { a with words := ws, reqs := ws.map (fun (w : Nat × Nat) => ⟨a.src, w.1, w.2, .read, false⟩) }

/-- A TLP longer than the device accepts (R355) is malformed: it is discarded and reported through AER (PRESUMED, assumption 121). -/
def State.malformed (s : State) (fn : Nat) : State := s.aer fn 18

/-- BAR2_READ (R355, R360, R363). -/
def execBar2Read (fn offset size : Nat) (s : State) : Host.Outcome State Fault Refusal :=
  .next (if 4096 < size then s.malformed fn
    else (s.crossBar2 offset size false).readMemory { id := s.nextAccess, fn := fn, write := false, offset := offset, len := size })

/-- The bytes of a block that a write covers, with their places in it. -/
def HostAccess.cover (a : HostAccess) (p size : Nat) : List (Nat × Byte) :=
  (List.range size).filterMap (fun i =>
    if a.offset ≤ p + i ∧ p + i < a.offset + a.len ∧ !(a.gaps.contains (p + i)) then (a.data[p + i - a.offset]?).map (fun b => (i, b))
    else none)

/-- The beats of a write to a block (R193, R360): one for a whole block, else a locked read and the merged write. -/
def HostAccess.writeBeats (a : HostAccess) (p : Nat) : List (Nat × RefReq) :=
  let ws := a.cover p 64
  let w : RefReq := { offset := pcOffset p, write := true, data := ws.map (·.2), lock := 1, id := a.id }
  if ws.length = 64 then [(pcOf p, w)]
  else [(pcOf p, { w with write := false, data := [], lock := 2 }), (pcOf p, { w with data := [] })]

/-- The dynamic-port request of a write to a bank word (R164): whole, or masked. -/
def HostAccess.writeWord (a : HostAccess) (p : Nat) : DynReq :=
  let ws := a.cover p 8
  let d := BitVec.ofNat 64 (ws.foldl (fun n b => n + b.2.toNat * 256 ^ b.1) 0)
  let m := BitVec.ofNat 8 (ws.foldl (fun n b => n + 2 ^ b.1) 0)
  let at_ := apertureWord p
  ⟨a.src, at_.1, at_.2, if ws.length = 8 then .write d else .masked d m, false⟩

/-- A write of memory starts (R360). -/
def State.writeMemory (s : State) (a : HostAccess) : State :=
  if !s.accessServed a then s.hostReject a 1 .ur
  else if a.offset < apertureBase then
    let beats := (blocksOf 64 a.offset a.len).flatMap a.writeBeats
    s.hostStart { a with todo := beats, left := beats.length }
  else
    let rs := (blocksOf 8 a.offset a.len).map a.writeWord
    s.hostStart { a with words := rs.map (fun (r : DynReq) => (r.bank, r.word)), reqs := rs }

/-- BAR2_WRITE (R355, R360, R363). -/
def execBar2Write (fn offset : Nat) (bytes : List Byte) (s : State) : Host.Outcome State Fault Refusal :=
  let n := bytes.length
  .next (if 512 < n then s.malformed fn
    else (s.crossBar2 offset n true).writeMemory { id := s.nextAccess, fn := fn, write := true, offset := offset, len := n, data := bytes })

/-- The number by which PCIE_ERR_LAST names a BAR (R378). -/
def barCode (bar : Nat) : Nat := bar / 2

/-- An atomic starts (R163, R361): a 64-bit FetchAdd or Swap of an aligned model-memory word; any other completes with CA. -/
def State.atomicMemory (s : State) (a : HostAccess) (bar kind size : Nat) (operand : Dword) : State :=
  let fits := bar == 2 && decide (kind < 2) && size == 64 && a.offset % 8 == 0 && decide (apertureBase ≤ a.offset) &&
    decide (a.offset < apertureEnd)
  if !fits then s.hostReject a (barCode bar) .ca
  else if !s.accessServed a then s.hostReject a 1 .ur
  else
    let w := apertureWord a.offset
    s.hostStart { a with words := [w], reqs := [⟨a.src, w.1, w.2, if kind = 0 then .add operand else .swap operand, false⟩] }

/-- PCIE_ATOMIC (R361). -/
def execPcieAtomic (fn bar offset kind size : Nat) (operand : BitVec 64) (s : State) : Host.Outcome State Fault Refusal :=
  .next ((s.crossBar2 offset 8 false).atomicMemory
    { id := s.nextAccess, fn := fn, write := false, atomic := true, offset := offset, len := 8 } bar kind size operand)

/-! ### Completion of the hub requesters' HBM requests (R193, R362) -/

/-- The block of a merged write (R193): what was read, with the written bytes put in. -/
def HostAccess.merged (a : HostAccess) (p : Nat) : List Byte :=
  let old := ((a.got.find? (fun g => g.1 == p)).map (·.2)).getD []
  (a.cover p 64).foldl (fun bs b => bs.set b.1 b.2) (padTo 64 old)

/-- 64 bytes written to a pseudo-channel with a status: what an uncorrected error leaves is undefined (R191). -/
def State.hubWrite (s : State) (pc offset : Nat) (bs : List Byte) (st : ReqStatus) : State :=
  match st with
  | .ok => s.hbmWrite pc offset bs
  | .hbmUe => { s.hbmWrite pc offset (freeBytes s.free 64) with free := s.free + 1 }
  | _ => s

/-- A beat of an access performed (R360, R362, R268): one that meets an uncorrected error writes a whole block, and nothing of a
read-modify-write. -/
def State.hostBeat (s : State) (a : HostAccess) (pc : Nat) (req : RefReq) (st : ReqStatus) : State :=
  let p := hbmAddr pc req.offset
  let a' := { a with left := a.left - 1 }.meet p st
  if !req.write then
    s.setAccess (if st = .ok then { a' with got := a'.got ++ [(p, s.hbmRead pc req.offset 64)] } else a')
  else
    let merged := req.data.isEmpty
    let s := if merged then (if a.got.any (fun g => g.1 == p) ∧ st = .ok then s.hbmWrite pc req.offset (a.merged p) else s)
      else if st = .ok ∨ st = .hbmUe then s.hbmWrite pc req.offset req.data
      else s
    let s := s.setAccess a'
    if a.fw then s
    else match s.jobOfHbm p with
    | some j => s.unloggedWrite j
    | none => s

/-- The next request of a hub requester at a referee (R184, R193): the first that the controller's queue holds; with the stack off,
else the oldest head. -/
def State.nextHub (s : State) (pc : Nat) : Option (Nat × RefReq) :=
  let r := s.ref pc
  match r.ctl.find? (fun c => decide (16 ≤ c.1)) with
  | some c => some c
  | none =>
    if s.hbmOff pc then
      ([16, 17, 18, 19, 20, 21].findSome? (fun q => (r.fifo q).head?.map (fun p => (q, p.req))))
    else none

/-- A hub requester's request taken from the controller's queue or the head of its FIFO. -/
def Referee.take (r : Referee) (c : Nat × RefReq) : Referee :=
  if r.ctl.contains c then { r with ctl := r.ctl.erase c }.performed c.2
  else { r.setFifo c.1 (r.fifo c.1).tail with granted := if r.granted = some c.1 then none else r.granted }

/-- HBM_REQUEST_COMPLETE (R177, R191, R193, R362): a hub requester's request is performed. -/
def execHbmRequestComplete (pc : Nat) (result : HbmResult) (s : State) : Host.Outcome State Fault Refusal :=
  match s.nextHub pc with
  | none => .next s
  | some c =>
    let off := s.hbmOff pc
    let st := if off then .hbmOff else hbmStatus result
    let s := s.setRef pc ((s.ref pc).take c)
    let s := if off then s else s.rfmCount (pc / 32)
    let s := if result = .corrected ∧ !off then s.bump (hbmcAt (pc / 32) 0x4C) 15 0 1 else s
    let s := if st = .hbmUe then s.hbmUe pc c.2.offset else s
    if (c.1 = 20 ∨ c.1 = 21) ∧ hostId ≤ c.2.id then
      match s.access.find? (fun a => a.id == c.2.id) with
      | some a => .next (s.hostBeat a pc c.2 st).hostPump
      | none => .next s.hostPump
    else
      let bytes := if c.2.write then [] else if st = .ok then s.hbmRead pc c.2.offset 64 else List.replicate 64 0
      let s := if c.2.write then s.hubWrite pc c.2.offset c.2.data st else s
      let r := s.ref pc
      .next (if c.1 = 16 then s else s.setRef pc { r with done := r.done ++ [(c.1, c.2, st, bytes)] })

end Sys2Proof.Machine
end

