-- ==== Sys2Proof/Machine/Jtag.lean ====
section
/-! DEFINITION. The debug port (R457–R463, R510): the TAP's instructions, the boundary scan, the access queue and DBG_RST_N. -/

namespace Sys2Proof.Machine

/-! ### Instructions (R457, R458) -/

/-- An instruction loaded: the instruction register's capture value leaves at TDO. -/
def State.loadIr (s : State) (ir : Nat) : State := { s with tap := { s.tap with ir := ir } }.emit (.tdo 1 8)

/-- The IDCODE register: version 1, part 0xD004, manufacturer 0x278 (R457). -/
def idcodeValue : Nat := 0x1D0044F1

/-- IDCODE (R457). -/
def execIdcode (s : State) : Host.Outcome State Fault Refusal := .next ((s.loadIr 0x01).emit (.tdo idcodeValue 32))

/-- The bypass register selected: one bit, captured as 0. -/
def State.bypassed (s : State) : State := s.emit (.tdo 0 1)

/-- BYPASS (R458), and every other value of the instruction register, which selects the bypass register as it does: the command names no
value, and none of the TAP's answers tells them apart (DEDUCED, assumption 130). -/
def execBypass (s : State) : Host.Outcome State Fault Refusal := .next (s.loadIr 0xFF).bypassed

/-! ### Boundary scan (R458, R459, R510) -/

/-- SAMPLE/PRELOAD (R458): what the cells sample leaves at TDO, and the cells take the bits shifted in. -/
def execSamplePreload (pins shiftIn : BitVec 493) (s : State) : Host.Outcome State Fault Refusal :=
  let s := s.loadIr 0x02
  .next ({ s with tap := { s.tap with cells := shiftIn } }.emit (.tdo pins.toNat 493))

/-- A boundary instruction loaded with device reset released or not (R459): it acts, or it acts as BYPASS and bscan_refused reads 1. -/
def State.scanGate (s : State) (ir : Nat) (released : Bool) (body : State → State) : State :=
  let s := s.loadIr ir
  let s := { s with tap := { s.tap with refused := released } }
  if released then s.bypassed else body s

/-- EXTEST and its AC forms (R458, R459): the cells drive the pins, what they sample leaves at TDO, and the bits shifted in drive next.
Cell 288 samples SYS_RST_N (R510). -/
def State.scanTest (s : State) (ir : Nat) (drive : PadDrive) (pins shiftIn : BitVec 493) : State :=
  s.scanGate ir (pins.getLsbD 288) (fun s =>
    let s := (s.emit (.pads s.tap.cells drive)).emit (.tdo pins.toNat 493)
    { s with tap := { s.tap with cells := shiftIn } }.emit (.pads shiftIn drive))

/-- EXTEST (R459). -/
def execExtest (pins shiftIn : BitVec 493) (s : State) : Host.Outcome State Fault Refusal := .next (s.scanTest 0x03 .steady pins shiftIn)

/-- EXTEST_PULSE (R458, R459). -/
def execExtestPulse (pins shiftIn : BitVec 493) (s : State) : Host.Outcome State Fault Refusal :=
  .next (s.scanTest 0x04 .pulse pins shiftIn)

/-- EXTEST_TRAIN (R458, R459). -/
def execExtestTrain (pins shiftIn : BitVec 493) (s : State) : Host.Outcome State Fault Refusal :=
  .next (s.scanTest 0x05 .train pins shiftIn)

/-- CLAMP (R458, R459): the outputs are held from the cells, the bypass register selected. -/
def execClamp (sysRstN : Bool) (s : State) : Host.Outcome State Fault Refusal :=
  .next (s.scanGate 0x06 sysRstN (fun s => (s.emit (.pads s.tap.cells .steady)).bypassed))

/-- HIGHZ (R458, R459): every output of the chain is disabled, the bypass register selected. -/
def execHighz (sysRstN : Bool) (s : State) : Host.Outcome State Fault Refusal :=
  .next (s.scanGate 0x07 sysRstN (fun s => (s.emit (.pads s.tap.cells .off)).bypassed))

/-! ### DAP_STAT (R461) -/

/-- DAP_STAT: what lies in PD82 reads 0 while it is off. -/
def State.dapStatus (s : State) : Nat :=
  let on := s.domainOn 82
  let bit := fun (i : Nat) => boolNat (on && s.flag (dbgAt 0x44) i)
  boolNat on + bit 0 * 2 + bit 3 * 4 + boolNat (on && s.packageStands) * 8 + min 7 s.tap.queue.length * 2 ^ 4 +
    boolNat s.tap.refused * 2 ^ 7 + (if on then s.fld (hdr 0xA 0x1C) 7 0 else 0) * 2 ^ 8

/-- DAP_STAT (R461). -/
def execDapStat (s : State) : Host.Outcome State Fault Refusal :=
  let s := s.loadIr 0x21
  .next (s.emit (.tdo s.dapStatus 32))

/-! ### The access queue (R460) -/

/-- A request as its 72 bits spell it. -/
def dapRequest (bits : BitVec 72) : DapReq :=
  let v := bits.toNat
  { write := natBit v 11, data := BitVec.ofNat 32 (natBits v 71 40), addr := natBits v 39 16, space := natBits v 15 14
    seqNo := natBits v 13 12, answer := none }

/-- DAP_ACC_UPDATE (R460): Update-DR enqueues, or finds all four entries in use. -/
def execDapAccUpdate (bits : BitVec 72) (s : State) : Host.Outcome State Fault Refusal :=
  let t := { s.tap with ir := 0x20 }
  if !natBit bits.toNat 10 then .next { s with tap := { t with full := false } }
  else if 4 ≤ t.queue.length then .next { s with tap := { t with full := true } }
  else .next { s with tap := { t with queue := t.queue ++ [dapRequest bits], full := false } }

/-- The 72 bits that Capture-DR takes for a response; `n` requests remain. -/
def dapResponse (r : DapReq) (result : Nat) (data : Word) (n : Nat) : Nat :=
  (if r.write then 0 else data.toNat) * 2 ^ 40 + r.addr * 2 ^ 16 + r.space * 2 ^ 14 + r.seqNo * 2 ^ 12 + boolNat r.write * 2 ^ 11 +
    result * 2 ^ 7 + n * 2 ^ 4

/-- DAP_ACC_CAPTURE (R460): Capture-DR takes result 5 after a request that found the queue full, else the oldest response, which it
removes, or result 0. -/
def execDapAccCapture (s : State) : Host.Outcome State Fault Refusal :=
  let t := { s.tap with ir := 0x20, full := false }
  let n := t.queue.length
  if s.tap.full then .next ({ s with tap := t }.emit (.tdo (5 * 2 ^ 7 + n * 2 ^ 4) 72))
  else match t.queue with
    | r :: rest =>
      match r.answer with
      | some (result, data) =>
        .next ({ s with tap := { t with queue := rest } }.emit (.tdo (dapResponse r result data rest.length) 72))
      | none => .next ({ s with tap := t }.emit (.tdo (n * 2 ^ 4) 72))
    | [] => .next ({ s with tap := t }.emit (.tdo 0 72))

/-- A debug access to space 0 (R37, R56, R367, R463): its result, data and the state. -/
def State.dapBar0 (s : State) (r : DapReq) : Nat × Word × State :=
  let addr := r.addr * 4
  let s := s.cross .dbg addr r.write
  match s.accessFault .dbg addr with
  | some c => (if c = 0x000E then 4 else 2, 0, s.miss .dbg c addr r.write)
  | none =>
    if r.write then
      match s.writerFault .dbg addr with
      | some c => (3, 0, s.pgErr (addr / 0x1000) c .dbg addr)
      | none =>
        let info := hdr (addr / 0x1000) 0x1C
        let failed := ((s.setReg info 0).performWrite .dbg addr r.data).fld info 15 0 != 0
        (if failed then 2 else 1, 0, s.performWrite .dbg addr r.data)
    else
      let (v, t) := s.readWord .dbg (addr / 0x1000) (addr % 0x1000)
      (1, v, { t with free := t.free + 1 })

/-- The word of memory that a debug access names: of the shared window, or of the user core's TCM (R463). -/
def State.dapMem (s : State) (r : DapReq) : Nat × Word × State :=
  let a := r.addr * 4
  if !s.domainOn 80 then (4, 0, s)
  else
    let shared := decide (Config.sharedBase ≤ a) && decide (a < Config.sharedBase + 262144)
    let t := s.theham
    if r.write then
      let bs := leBytes 4 r.data.toNat
      (1, 0, if shared then { s with theham := { t with shared := t.shared.putBytes (a - Config.sharedBase) bs } }
        else { s with dbg := { s.dbg with uc := s.dbg.uc.putBytes a bs } })
    else (1, BitVec.ofNat 32 (if shared then t.shared.num (a - Config.sharedBase) 4 else s.dbg.uc.num a 4), s)

/-- A debug access to the firmware cores' memory, which an unlock whose scope includes it permits (R463, R464). -/
def State.dapFirmware (s : State) (r : DapReq) : Nat × Word × State :=
  if !(s.flag (dbgAt 0x44) 0 && s.flag (dbgAt 0x44) 2) then (3, 0, s.pgErr 0xA 0x01A0 .dbg 0)
  else if r.write then (1, 0, { s with dbg := { s.dbg with fw := s.dbg.fw.putBytes (r.addr * 4) (leBytes 4 r.data.toNat) } })
  else (1, BitVec.ofNat 32 (s.dbg.fw.num (r.addr * 4) 4), s)

/-- A debug access performed (R460, R462, R463). -/
def State.dapPerform (s : State) (r : DapReq) : Nat × Word × State :=
  if !s.domainOn 82 then (4, 0, s)
  else match r.space with
    | 0 => s.dapBar0 r
    | 1 => s.dapMem r
    | 2 => s.dapFirmware r
    | _ => (2, 0, s.pgErr 0xA 2 .dbg 0)

/-- The first request without an answer takes one. -/
def answerFirst (result : Nat) (data : Word) : List DapReq → List DapReq
  | [] => []
  | r :: rs => match r.answer with
    | some _ => r :: answerFirst result data rs
    | none => { r with answer := some (result, data) } :: rs

/-- DAP_ACCESS_DONE (R460, R462, R463): the oldest request that has not been performed is. -/
def execDapAccessDone (s : State) : Host.Outcome State Fault Refusal :=
  match s.tap.queue.find? (fun r => r.answer.isNone) with
  | none => .next s
  | some r =>
    let (result, data, t) := s.dapPerform r
    .next { t with tap := { t.tap with queue := answerFirst result data t.tap.queue } }

/-! ### DBG_RST_N (R457, R462, R465) -/

/-- DBG_RST_N (R457, R462): the TAP in Test-Logic-Reset with IDCODE, its queue empty, and the debug logic at reset. -/
def execDbgRstN (s : State) : Host.Outcome State Fault Refusal := .next { s.debugReset with tap := {} }

end Sys2Proof.Machine
end

