-- ==== Sys2Proof/Machine/Noc.lean ====
section
/-! DEFINITION. The endpoints of the on-chip network (R367–R373): what one does with a packet. Arbitration is time, which the model
leaves out but for what the counters show. -/

namespace Sys2Proof.Machine

/-! ### Register endpoints (R37, R369) -/

/-- The width and the data of an access to a register: the enabled bytes. -/
def nocRegAccess (p : NocPacket) : Nat × Dword :=
  let ps := nocPlaces p
  (8 * ps.length, BitVec.ofNat 64 (leNat ((ps.map (nocByte p)).take 8)))

/-- What an access to a register page answers: what is read stands at its place in the flit. A register takes no atomic operation; what
it answers to one is open. -/
def State.nocRegister (s : State) (p : NocPacket) (rq : Requester) (prio : Nat) : State :=
  let addr := nocFld p 127 64
  let there := decide (addr < 0x4000000) && pageRouter (addr / 0x1000) == some (nocFld p 2 0, nocFld p 5 3)
  let (width, data) := nocRegAccess p
  let answer := fun (s : State) (status operand : Nat) (data : List (BitVec 512)) => match responseCmd (nocFld p 19 16) with
    | some c => s.nocReply (nocResponse p c prio status operand data)
    | none => s
  match nocFld p 19 16 with
  | 1 =>
    let s := if there then s.readNow rq addr width else { s.miss rq 0x000C addr false with busRead := some (rq, addr, 0) }
    let v := (s.busRead.map (fun (b : Requester × Nat × Dword) => b.2.2)).getD 0
    answer s 0 0 [BitVec.ofNat 512 (v.toNat * 256 ^ (addr % 64 / (width / 8) * (width / 8)))]
  | 2 | 3 => answer (if there then s.writeNow rq addr width data else s.miss rq 0x000C addr true) 0 0 []
  | _ => answer { s with free := s.free + 1 } (Config.freeWord s.free).toNat (Config.freeDword s.free).toNat []

/-! ### The bridge to the memory crossbar (R360, R361, R367, R368) -/

/-- The access of a request at the bridge: the bytes from its first enabled place to its last, those between that no enable covers left
out. A host function's is its access to BAR2, any other requester's firmware's. -/
def State.bridgeAccess (s : State) (p : NocPacket) (rq : Requester) (write : Bool) : HostAccess :=
  let block := nocFld p 127 64 / 64 * 64
  let ps := nocPlaces p
  let lo := ps.headD 0
  let n := ps.getLastD 0 + 1 - lo
  let all := (List.range n).map (· + lo)
  let fw := match rq with
    | .pf | .vf _ => false
    | _ => true
  { id := s.nextAccess, fn := rqFn rq, fw := fw, packet := some p, write := write, offset := block + lo, len := if ps = [] then 0 else n
    data := if write then all.map (nocByte p) else [], gaps := (all.filter (fun i => !(ps.contains i))).map (· + block) }

/-- A request at the bridge (R360, R361, R368): firmware's goes to the referees as requester 21 and to the banks, a host function's is
its access to BAR2. Its response follows when it is performed. -/
def State.nocBridge (s : State) (p : NocPacket) (rq : Requester) : State :=
  let operand := BitVec.ofNat 64 (nocFld p 335 272)
  let atomic := fun (kind : Nat) =>
    s.atomicMemory { s.bridgeAccess p rq false with atomic := true, offset := nocFld p 127 64, len := 8, gaps := [] } 2 kind 64 operand
  match nocFld p 19 16 with
  | 1 => s.readMemory (s.bridgeAccess p rq false)
  | 4 => atomic 0
  | 5 => atomic 1
  | _ => s.writeMemory (s.bridgeAccess p rq true)

/-- The packet at another priority. -/
def nocAtPrio (p : NocPacket) (prio : Nat) : NocPacket := { p with header := BitVec.ofNat 512 (natPut p.header.toNat 22 20 prio) }

/-! ### The row -/

/-- NOC_PACKET (R37, R369, R370, R372): a packet crosses the mesh. A packet of priority 7 whose source may not send it is demoted and
counted; one with a reserved cmd or len is discarded and counted; a request acts and is answered; a response reaches the requester that
waits for it. What a management packet says is firmware's own, and it is answered; one for a router without endpoints is answered as
any request is there. -/
def execNocPacket (packet : NocPacket) (s : State) : Host.Outcome State Fault Refusal :=
  let p := packet
  let demoted := nocFld p 22 20 == 7 && !nocMayManage p
  let s := if demoted then s.bump (PageKind.noc.at 0x44) 15 0 1 else s
  let prio := if demoted then 6 else nocFld p 22 20
  let s := s.nocCarry p prio
  if nocBad p then .next (s.bump (PageKind.noc.at 0x58) 15 0 1)
  else match nocRequester p with
    | none => .next s
    | some rq =>
      match nocFld p 19 16 with
      | 6 =>
        let there := nocEndpoint (nocFld p 2 0) (nocFld p 5 3) (nocFld p 7 6)
        let s := if there then s else s.miss rq 0x000C (nocFld p 127 64) (nocFld p 41 35 != 0)
        .next (s.nocReply (nocResponse p 11 prio 0 0 []))
      | 1 | 2 | 3 | 4 | 5 =>
        .next (if (nocFld p 2 0, nocFld p 5 3) = (3, 3) then s.nocBridge (nocAtPrio p prio) rq else s.nocRegister p rq prio)
      | _ => .next s

end Sys2Proof.Machine
end

