-- ==== Sys2Proof/Machine/Mailbox.lean ====
section
/-! DEFINITION. The command rings (R431–R436, R441–R443, R495): doorbells, taking a command, reading its descriptor, and the order in
which commands start. -/

namespace Sys2Proof.Machine

/-! ### Doorbells (R364, R431, R432) -/

/-- A doorbell written (R364), in its function's order (R363). -/
def State.bar4Post (s : State) (fn off : Nat) (value : Word) : State :=
  let rq := fnRequester fn
  s.inTurn rq (bar4Base + off) 32 (value.setWidth 64) true (fun s => s.spaceWrite rq (bar4Base + off) 32 (value.setWidth 64))

/-- MBOX_DB_CMD (R364, R431, R432, R434). -/
def execMboxDbCmd (fn : Nat) (value : BitVec 32) (s : State) : Host.Outcome State Fault Refusal := .next (s.bar4Post fn 0 value)

/-- MBOX_DB_CPL (R364, R431, R432). -/
def execMboxDbCpl (fn : Nat) (value : BitVec 32) (s : State) : Host.Outcome State Fault Refusal := .next (s.bar4Post fn 8 value)

/-- DISPATCH_DOORBELL (R390). -/
def execDispatchDoorbell (fn handle : Nat) (pidx : BitVec 32) (s : State) : Host.Outcome State Fault Refusal :=
  .next (s.bar4Post fn (0x100000 + 8 * handle) pidx)

/-- AGENT_RING_POLL (R435): firmware, unless it is in reset (R26), reads the agent's posted and consumed counts in the shared window. -/
def execAgentRingPoll (posted consumed : BitVec 32) (s : State) : Host.Outcome State Fault Refusal :=
  let t := s.theham
  let sh := (t.shared.putBytes 0x2000 (leBytes 4 posted.toNat)).putBytes 0x2004 (leBytes 4 consumed.toNat)
  let seen := if s.fwUp then { t with posted := posted, consumed := consumed } else t
  .next { s with theham := { seen with shared := sh } }

/-- BMC_SUBMIT (R495). -/
def execBmcSubmit (descriptor : List Byte) (s : State) : Host.Outcome State Fault Refusal :=
  let t := s.theham
  if t.bmcBusy || t.bmcValid then .next { s with theham := { t with bmcOver := true } }
  else .next { s with theham := { t with bmcCmd := padTo 64 descriptor, bmcBusy := true } }

/-- BMC_ACK (R495). -/
def execBmcAck (s : State) : Host.Outcome State Fault Refusal := .next { s with theham := { s.theham with bmcValid := false } }

/-! ### Descriptors (R436–R438, R445, R447–R454) -/

/-- The bit ranges of a descriptor that a command's table names, first and last bit counted from byte 0; `none` for a reserved opcode. -/
def paramBits (op : Nat) : Option (List (Nat × Nat)) :=
  let job := (64, 69)
  match op with
  | 0x0101 | 0x0102 | 0x0106 | 0x0902 | 0x0903 | 0x0905 | 0x0C03 | 0x0C04 | 0x0C06 => some []
  | 0x0103 => some [(64, 70), (72, 73)]
  | 0x0104 => some [(64, 79)]
  | 0x0105 => some [(64, 65)]
  | 0x0107 => some [(64, 383)]
  | 0x0201 => some [(64, 133)]
  | 0x0202 => some [job, (72, 72)]
  | 0x0203 | 0x0303 | 0x0402 | 0x0403 | 0x0404 | 0x0602 | 0x0603 | 0x0702 => some [job]
  | 0x0204 => some [job, (96, 98), (112, 127)]
  | 0x0205 => some [job, (96, 98), (112, 159)]
  | 0x0301 => some [job, (72, 74), (128, 335)]
  | 0x0302 => some [job, (72, 73), (128, 351)]
  | 0x0401 => some [job, (96, 155)]
  | 0x0405 => some [job, (128, 191)]
  | 0x0501 | 0x0502 => some [job, (96, 191)]
  | 0x0601 => some [job, (96, 101), (104, 106), (112, 191)]
  | 0x0604 => some [job, (128, 207)]
  | 0x0605 => some [job, (72, 72), (128, 191)]
  | 0x0701 => some [job, (96, 101), (128, 159)]
  | 0x0801 => some [(64, 134), (144, 167), (176, 191)]
  | 0x0802 => some [(64, 127)]
  | 0x0803 | 0x0A01 | 0x0A02 | 0x0A03 => some [(128, 191)]
  | 0x0901 => some [(64, 143), (192, 255)]
  | 0x0904 => some [(64, 67), (128, 255)]
  | 0x0A04 => some [(128, 447)]
  | 0x0A05 => some [(128, 223)]
  | 0x0B01 => some [(64, 64), (96, 191)]
  | 0x0B02 => some [(64, 79), (128, 191)]
  | 0x0B03 => some [(64, 79), (96, 127)]
  | 0x0B04 | 0x0C02 => some [(64, 191)]
  | 0x0C01 => some [(64, 66), (96, 127)]
  | 0x0C05 => some [(64, 66)]
  | _ => none

/-- No reserved bit of a descriptor is set (R436–R438). -/
def reservedClear (d : Nat) (params : List (Nat × Nat)) : Bool :=
  let used := (0, 17) :: (32, 63) :: params
  (List.range 512).all (fun i => !natBit d i || used.any (fun r => decide (r.1 ≤ i) && decide (i ≤ r.2)))

/-- An opcode of the groups whose commands name a job at byte 8 (R447, R448, R451); JOB_CREATE names none. -/
def namesJob (op : Nat) : Bool := decide (0x0202 ≤ op) && decide (op < 0x0800)

/-- A command as its descriptor spells it (R436), taken at a count of its ring. -/
def queuedOf (ring : Ring) (index : Nat) (bufOk : Bool) (desc : List Byte) : Queued :=
  let d := leNat desc
  let op := natBits d 15 0
  { call := { ring := ring, index := index, tag := BitVec.ofNat 32 (natBits d 63 32), irq := natBit d 16, dmaOk := bufOk, lost := false }
    fence := natBit d 17, op := op, job := if namesJob op then natBits d 69 64 else 64, desc := desc }

/-! ### A command's effect -/

/-- The device, job and image commands of a descriptor `d` (R445, R447). -/
def runDevice (c : Call) (op d : Nat) (s : State) : Host.Outcome State Fault Refusal :=
  let f := natBits d
  let v := fun (hi lo : Nat) => BitVec.ofNat 64 (natBits d hi lo)
  let job := f 69 64
  match op with
  | 0x0101 => execDevInfo c s
  | 0x0102 => execDevStatus c s
  | 0x0103 => execDevPower c (f 70 64) (f 73 72) s
  | 0x0104 => execDevClock c (f 79 64) s
  | 0x0105 => execDevWhistle c (f 65 64) s
  | 0x0106 => execDevShutdown c s
  | 0x0107 => execDevNop c (leBytes 40 (f 383 64)) s
  | 0x0201 => execJobCreate c (v 127 64) (f 133 128) s
  | 0x0202 => execJobDestroy c job (natBit d 72) s
  | 0x0203 => execJobQuery c job s
  | 0x0204 => execJobWindowAlloc c job (f 98 96) (f 127 112) s
  | 0x0205 => execJobWindowFree c job (f 98 96) (f 127 112) (f 159 128) s
  | 0x0301 => execImgLoad c job (natBit d 72) (natBit d 73) (natBit d 74) (v 191 128) (f 255 192) (v 319 256) (f 335 320) s
  | 0x0302 => execImgReload c job (natBit d 72) (natBit d 73) (v 191 128) (f 255 192) (v 319 256) (f 335 320) (f 351 336) s
  | _ => execImgInfo c job s

/-- The run-control, state, checkpoint and capture commands of a descriptor (R448, R451). -/
def runControl (c : Call) (op d : Nat) (s : State) : Host.Outcome State Fault Refusal :=
  let f := natBits d
  let v := fun (hi lo : Nat) => BitVec.ofNat 64 (natBits d hi lo)
  let job := f 69 64
  match op with
  | 0x0401 => execRunStart c job (f 111 96) (f 127 112) (f 143 128) (f 147 144) (f 154 148) (natBit d 155) s
  | 0x0402 => execRunHalt c job s
  | 0x0403 => execRunResume c job s
  | 0x0404 => execRunStop c job s
  | 0x0405 => execRunUntil c job (v 191 128) s
  | 0x0501 => execStateRead c job (f 111 96) (f 127 112) (v 191 128) s
  | 0x0502 => execStateWrite c job (f 111 96) (f 127 112) (v 191 128) s
  | 0x0601 => execCkptEnable c job (f 101 96) (f 106 104) (f 119 112) (f 127 120) (v 191 128) s
  | 0x0602 => execCkptDisable c job s
  | 0x0603 => execCkptRequest c job s
  | 0x0604 => execCkptList c job (v 191 128) (f 207 192) s
  | 0x0605 => execCkptReplay c job (boolNat (natBit d 72)) (v 191 128) s
  | 0x0701 => execCapOpen c job (f 101 96) (f 159 128) s
  | _ => execCapClose c job s

/-- The lane, time, security, log and update commands of a descriptor (R453, R454). -/
def runService (c : Call) (op d : Nat) (s : State) : Host.Outcome State Fault Refusal :=
  let f := natBits d
  let v := fun (hi lo : Nat) => BitVec.ofNat 64 (natBits d hi lo)
  let w := fun (hi lo : Nat) => BitVec.ofNat 32 (natBits d hi lo)
  match op with
  | 0x0801 => execLaneUp c (v 127 64) (f 129 128) (f 130 130) (f 133 131) (natBit d 134) (f 159 144) (f 167 160) (f 191 176) s
  | 0x0802 => execLaneDown c (v 127 64) s
  | 0x0803 => execLaneStatus c (v 191 128) s
  | 0x0901 => execTimePtpOn c (v 127 64) (f 135 128) (f 143 136) (v 255 192) s
  | 0x0902 => execTimePtpOff c s
  | 0x0903 => execTimePtpStatus c s
  | 0x0904 => execTimeUnit c (f 67 64) (v 191 128) (w 223 192) (w 255 224) s
  | 0x0905 => execTimeArm c s
  | 0x0A01 => execSecOwner c (v 191 128) s
  | 0x0A02 => execSecKeySet c (v 191 128) s
  | 0x0A03 => execSecKeyClear c (v 191 128) s
  | 0x0A04 => execSecAttest c (BitVec.ofNat 256 (f 383 128)) (v 447 384) s
  | 0x0A05 => execSecIdentity c (v 191 128) (f 223 192) s
  | 0x0B01 => execLogRead c (natBit d 64) (f 127 96) (v 191 128) s
  | 0x0B02 => execLogAck c (f 79 64) (v 191 128) s
  | 0x0B03 => execLogRoute c (f 79 64) (w 127 96) s
  | 0x0B04 => execScoreRead c (f 95 64) (f 127 96) (v 191 128) s
  | 0x0C01 => execUpdBegin c (f 66 64) (f 127 96) s
  | 0x0C02 => execUpdData c (f 95 64) (f 127 96) (v 191 128) s
  | 0x0C03 => execUpdFinish c s
  | 0x0C04 => execUpdActivate c s
  | 0x0C05 => execUpdCommit c (f 66 64) s
  | _ => execUpdAbort c s

/-- A command that may start does (R438, R445): a reserved opcode and a reserved bit are refused. -/
def State.runCommand (s : State) (q : Queued) : State :=
  let d := leNat q.desc
  let c := q.call
  match paramBits q.op with
  | none => s.reply c q.op (if s.theham.shutdown then 0x0015 else 0x0010)
  | some params =>
    if !reservedClear d params then s.gate c q.op false id
    else
      let o := if q.op < 0x0400 then runDevice c q.op d s
        else if q.op < 0x0800 then runControl c q.op d s
        else runService c q.op d s
      match o with
      | .next t => t
      | _ => s

/-! ### Order (R441, R442) -/

/-- The commands that start ahead of their job's waiting commands: JOB_DESTROY, RUN_HALT, DEV_WHISTLE and DEV_SHUTDOWN. -/
def immediateOps : List Nat := [0x0202, 0x0402, 0x0105, 0x0106]

/-- The commands whose wait does not delay their job's next command: RUN_START, RUN_HALT (R442), RUN_UNTIL, IMG_RELOAD, CKPT_REQUEST and
CKPT_REPLAY. -/
def waitingOps : List Nat := [0x0401, 0x0402, 0x0405, 0x0302, 0x0603, 0x0605]

/-- The calls of the commands that have started and not completed. -/
def State.startedCalls (s : State) : List Call :=
  s.theham.waiting.map (fun (w : Waiting) => w.call) ++
  s.jobs.flatMap (fun e => (e.2.load.map (fun (l : LoadReq) => l.call)).toList ++ (e.2.reload.map (fun (l : Reload) => l.call)).toList) ++
  (s.pwr.busy ++ s.pwr.queue).filterMap (fun (x : PwrOp) => x.call)

/-- A command came before another on its ring. -/
def callBefore (a b : Call) : Bool :=
  a.ring == b.ring && !a.lost && a.index != b.index && decide ((b.index + 2 ^ 32 - a.index) % 2 ^ 32 < 2 ^ 31)

/-- A command of a job is under way that delays its next. -/
def State.jobBusy (s : State) (j : Nat) : Bool :=
  (s.job j).load.isSome || s.theham.waiting.any (fun w => w.job == j && !waitingOps.contains w.op)

/-- A taken command may start, given those taken before it that have not started (R436, R441). -/
def State.mayStart (s : State) (earlier : List Queued) (q : Queued) : Bool :=
  let fenceOk := !q.fence ||
    (!earlier.any (fun e => e.call.ring == q.call.ring) && !s.startedCalls.any (fun c => callBefore c q.call))
  let ringOk := !earlier.any (fun e => e.call.ring == q.call.ring)
  let jobOk := q.job == 64 || (!earlier.any (fun e => e.job == q.job) && !s.jobBusy q.job)
  fenceOk && (immediateOps.contains q.op || (ringOk && jobOk))

/-- The first taken command that may start, with those before and after it. -/
def State.nextStart (s : State) (earlier : List Queued) : List Queued → Option (List Queued × Queued × List Queued)
  | [] => none
  | q :: qs => if s.mayStart earlier q then some (earlier, q, qs) else s.nextStart (earlier ++ [q]) qs

/-- One command started, with those taken before it that still wait; those taken after it follow. -/
def State.startOne (s : State) (before : List Queued) (q : Queued) (after : List Queued) : State :=
  let t := { s with theham := { s.theham with queued := before } }.runCommand q
  { t with theham := { t.theham with queued := t.theham.queued ++ after } }

/-- At most `n` taken commands start, in order. -/
def State.startSome (s : State) : Nat → State
  | 0 => s
  | n + 1 => match s.nextStart [] s.theham.queued with
    | none => s
    | some (before, q, after) => (s.startOne before q after).startSome n

/-- Every taken command that may start does. -/
def State.startReady (s : State) : State := s.startSome s.theham.queued.length

/-! ### COMMAND_TAKE (R432, R435, R495) -/

/-- Firmware serves commands: it is out of reset, and boot has reached READY or recovery (R26, R414, R415). -/
def State.serving (s : State) : Bool := s.fwUp && s.fld (PageKind.dev.at 0x44) 1 0 != 0

/-- Fewer than 16 commands of the ring and 256 of the package are in progress (R432). -/
def State.roomFor (s : State) (r : Ring) : Bool :=
  decide (s.inProgress r < 16) && decide (s.startedCalls.length + s.theham.queued.length < 256)

/-- A taken command joins those that wait to start. -/
def State.enqueue (s : State) (q : Queued) : State := { s with theham := { s.theham with queued := s.theham.queued ++ [q] } }

/-- A command taken from a function's ring, if one may be (R431, R432). A doorbell value that a reset of the PCIe controller set to 0 is
no count above those taken (R366). -/
def State.takeHost (s : State) (fn : Nat) (dmaOk bufOk : Bool) : State :=
  let cidx := s.reg (mboxAt fn 0x54)
  let x := s.pcieFn fn
  let posted := countDiff x.dbCmd cidx
  let may := s.flag (mboxAt fn 0x50) 0 && !s.flag (mboxAt fn 0x5C) 0 && posted != 0 &&
    decide (posted ≤ 2 ^ s.fld (mboxAt fn 0x50) 7 4) && decide (countDiff cidx x.dbCpl < 2 ^ s.fld (mboxAt fn 0x50) 11 8) && s.roomFor (.host fn)
  if !may then s
  else if !dmaOk then s.ringError fn 4
  else
    let slot := cidx.toNat % 2 ^ s.fld (mboxAt fn 0x50) 7 4
    let desc := s.hostMem.bytes (s.reg64 (mboxAt fn 0x40) + 64 * slot) 64
    (s.setReg (mboxAt fn 0x54) (cidx + 1)).enqueue (queuedOf (.host fn) cidx.toNat bufOk desc)

/-- A command taken from the agent's ring (R435). -/
def State.takeAgent (s : State) (bufOk : Bool) : State :=
  let t := s.theham
  if t.posted != t.taken && decide (countDiff t.taken t.consumed < 64) && s.roomFor .agent then
    let desc := t.shared.bytes (64 * (t.taken.toNat % 64)) 64
    let next := t.taken + 1
    { s with theham := { t with taken := next, shared := t.shared.putBytes 0x2008 (leBytes 4 next.toNat) } }.enqueue
      (queuedOf .agent t.taken.toNat bufOk desc)
  else s

/-- The command in the board controller's register taken (R435, R495). -/
def State.takeBmc (s : State) : State :=
  let t := s.theham
  if t.bmcBusy && t.bmcCmd != [] && s.roomFor .bmc then
    { s with theham := { t with bmcCmd := [] } }.enqueue (queuedOf .bmc (t.bmcSent % 2 ^ 32) true t.bmcCmd)
  else s

/-- COMMAND_TAKE (R432, R441): one command is taken where its ring allows it, and every taken command that may start does. -/
def execCommandTake (ring : Ring) (dmaOk bufOk : Bool) (s : State) : Host.Outcome State Fault Refusal :=
  if !s.serving then .next s
  else
    let s := match ring with
      | .host fn => s.takeHost fn dmaOk bufOk
      | .agent => s.takeAgent bufOk
      | .bmc => s.takeBmc
    .next s.startReady

end Sys2Proof.Machine
end

