-- ==== Sys2Proof/Machine/Dispatch.lean ====
section
/-! DEFINITION. Dispatch: one arm per row of the table, each one call of the row's meaning on everything but the queue. -/

namespace Sys2Proof.Machine

/-- A command's effect on everything but the queue of waiting commands. -/
def exec (i : Instr) (s : State) : Host.Outcome State Fault Refusal :=
  match i with
  | .sequencerStep seg => Sys2Proof.Machine.execSequencerStep seg s
  | .padStep seg => Sys2Proof.Machine.execPadStep seg s
  | .holdStep job => Sys2Proof.Machine.execHoldStep job s
  | .haltTakesEffect job => Sys2Proof.Machine.execHaltTakesEffect job s
  | .holdTimeout job => Sys2Proof.Machine.execHoldTimeout job s
  | .nop cl bp => Sys2Proof.Machine.execNop cl bp s
  | .eval cl bp => Sys2Proof.Machine.execEval cl bp s
  | .shift cl bp => Sys2Proof.Machine.execShift cl bp s
  | .load cl bp => Sys2Proof.Machine.execLoad cl bp s
  | .istoreWriteback cl bp entry => Sys2Proof.Machine.execIstoreWriteback cl bp entry s
  | .bpEccInject rq cl value => Sys2Proof.Machine.execBpEccInject rq cl value s
  | .cwEccInject rq cl value => Sys2Proof.Machine.execCwEccInject rq cl value s
  | .netEccInject rq cl value => Sys2Proof.Machine.execNetEccInject rq cl value s
  | .wauLoad cl => Sys2Proof.Machine.execWauLoad cl s
  | .add64 cl => Sys2Proof.Machine.execAdd64 cl s
  | .mul32 cl => Sys2Proof.Machine.execMul32 cl s
  | .cmul16 cl => Sys2Proof.Machine.execCmul16 cl s
  | .mac48 cl => Sys2Proof.Machine.execMac48 cl s
  | .norm64 cl => Sys2Proof.Machine.execNorm64 cl s
  | .expx cl => Sys2Proof.Machine.execExpx cl s
  | .clz64 cl => Sys2Proof.Machine.execClz64 cl s
  | .wauResult cl => Sys2Proof.Machine.execWauResult cl s
  | .bankRead cl bank => Sys2Proof.Machine.execBankRead cl bank s
  | .bankWriteGather cl bank => Sys2Proof.Machine.execBankWriteGather cl bank s
  | .bankWriteResult cl bank => Sys2Proof.Machine.execBankWriteResult cl bank s
  | .wauPortRead cl bank => Sys2Proof.Machine.execWauPortRead cl bank s
  | .mbEccWriteback bank => Sys2Proof.Machine.execMbEccWriteback bank s
  | .mbEccInject rq cl value => Sys2Proof.Machine.execMbEccInject rq cl value s
  | .mbDynRead src bank word busy => Sys2Proof.Machine.execMbDynRead src bank word busy s
  | .mbDynWrite src bank word data busy => Sys2Proof.Machine.execMbDynWrite src bank word data busy s
  | .mbDynMaskedWrite src bank word data mask busy => Sys2Proof.Machine.execMbDynMaskedWrite src bank word data mask busy s
  | .mbDynAdd src bank word operand busy => Sys2Proof.Machine.execMbDynAdd src bank word operand busy s
  | .mbDynSwap src bank word operand busy => Sys2Proof.Machine.execMbDynSwap src bank word operand busy s
  | .mbDynRetry bank busy => Sys2Proof.Machine.execMbDynRetry bank busy s
  | .bulkClearDone job => Sys2Proof.Machine.execBulkClearDone job s
  | .bankWakeDone seg => Sys2Proof.Machine.execBankWakeDone seg s
  | .mqIssueRead cl => Sys2Proof.Machine.execMqIssueRead cl s
  | .mqIssueWrite cl => Sys2Proof.Machine.execMqIssueWrite cl s
  | .mqTagGrant cg => Sys2Proof.Machine.execMqTagGrant cg s
  | .mqWait cl => Sys2Proof.Machine.execMqWait cl s
  | .mqReturnTake cl => Sys2Proof.Machine.execMqReturnTake cl s
  | .mqCompletion tag result => Sys2Proof.Machine.execMqCompletion tag result s
  | .refereeRequestArrive pc requester req => Sys2Proof.Machine.execRefereeRequestArrive pc requester req s
  | .refereeDecision pc => Sys2Proof.Machine.execRefereeDecision pc s
  | .requestWithdraw pc requester => Sys2Proof.Machine.execRequestWithdraw pc requester s
  | .refCntClr rq pc value => Sys2Proof.Machine.execRefCntClr rq pc value s
  | .hbmRefreshRateChange stack degC => Sys2Proof.Machine.execHbmRefreshRateChange stack degC s
  | .pcOutOfService pc => Sys2Proof.Machine.execPcOutOfService pc s
  | .undoLogCapture pc port => Sys2Proof.Machine.execUndoLogCapture pc port s
  | .regWrite rq addr width data => Sys2Proof.Machine.execRegWrite rq addr width data s
  | .rcRead rq addr width => Sys2Proof.Machine.execRcRead rq addr width s
  | .lowWordRead rq addr => Sys2Proof.Machine.execLowWordRead rq addr s
  | .debugRead addr width => Sys2Proof.Machine.execDebugRead addr width s
  | .unmappedAccess rq addr write => Sys2Proof.Machine.execUnmappedAccess rq addr write s
  | .pairTimeout page group => Sys2Proof.Machine.execPairTimeout page group s
  | .softReset rq page => Sys2Proof.Machine.execSoftReset rq page s
  | .pgEnableWrite rq page enable => Sys2Proof.Machine.execPgEnableWrite rq page enable s
  | .pgIrqClear rq page value => Sys2Proof.Machine.execPgIrqClear rq page value s
  | .pgIrqSet rq page value => Sys2Proof.Machine.execPgIrqSet rq page value s
  | .pgTxnBegin rq page timeoutUs => Sys2Proof.Machine.execPgTxnBegin rq page timeoutUs s
  | .pgTxnCommit rq page => Sys2Proof.Machine.execPgTxnCommit rq page s
  | .pgTxnRollback rq page => Sys2Proof.Machine.execPgTxnRollback rq page s
  | .devTxnBegin rq slot => Sys2Proof.Machine.execDevTxnBegin rq slot s
  | .devTxnCommit rq slot => Sys2Proof.Machine.execDevTxnCommit rq slot s
  | .devTxnRollback rq slot => Sys2Proof.Machine.execDevTxnRollback rq slot s
  | .txnTimeout slot n => Sys2Proof.Machine.execTxnTimeout slot n s
  | .linePulse rq seg value => Sys2Proof.Machine.execLinePulse rq seg value s
  | .stepclkPllUnlock die => Sys2Proof.Machine.execStepclkPllUnlock die s
  | .hubPllUnlock => Sys2Proof.Machine.execHubPllUnlock s
  | .pllRelock pll => Sys2Proof.Machine.execPllRelock pll s
  | .clkStepWrite rq n => Sys2Proof.Machine.execClkStepWrite rq n s
  | .stepclkRelock => Sys2Proof.Machine.execStepclkRelock s
  | .linkTraining link ok => Sys2Proof.Machine.execLinkTraining link ok s
  | .linkUe link => Sys2Proof.Machine.execLinkUe link s
  | .scrubSweepStart => Sys2Proof.Machine.execScrubSweepStart s
  | .scrubPiece => Sys2Proof.Machine.execScrubPiece s
  | .scrubPatrolRead => Sys2Proof.Machine.execScrubPatrolRead s
  | .scrubTmrFix vote rewriteHolds => Sys2Proof.Machine.execScrubTmrFix vote rewriteHolds s
  | .scrubSigCheck => Sys2Proof.Machine.execScrubSigCheck s
  | .eccCounterPoll => Sys2Proof.Machine.execEccCounterPoll s
  | .faultHandlingStart job => Sys2Proof.Machine.execFaultHandlingStart job s
  | .rollbackStart job => Sys2Proof.Machine.execRollbackStart job s
  | .restoreComplete job corrupt => Sys2Proof.Machine.execRestoreComplete job corrupt s
  | .ckptCopyComplete job pauseNs => Sys2Proof.Machine.execCkptCopyComplete job pauseNs s
  | .ckptRetireAge job => Sys2Proof.Machine.execCkptRetireAge job s
  | .replayLogThreshold job fill => Sys2Proof.Machine.execReplayLogThreshold job fill s
  | .compareSignatures job => Sys2Proof.Machine.execCompareSignatures job s
  | .ckAnnounce job => Sys2Proof.Machine.execCkAnnounce job s
  | .laneUpWrite rq lane value => Sys2Proof.Machine.execLaneUpWrite rq lane value s
  | .signalDetected lane => Sys2Proof.Machine.execSignalDetected lane s
  | .alignDone lane => Sys2Proof.Machine.execAlignDone lane s
  | .alignTimeout lane => Sys2Proof.Machine.execAlignTimeout lane s
  | .trainDone lane => Sys2Proof.Machine.execTrainDone lane s
  | .trainTimeout lane => Sys2Proof.Machine.execTrainTimeout lane s
  | .measureDone lane => Sys2Proof.Machine.execMeasureDone lane s
  | .lockLost lane => Sys2Proof.Machine.execLockLost lane s
  | .lanePllUnlock group => Sys2Proof.Machine.execLanePllUnlock group s
  | .frameTransmit lane stamp => Sys2Proof.Machine.execFrameTransmit lane stamp s
  | .codewordMessageRx lane msg rsOk corrected stamp => Sys2Proof.Machine.execCodewordMessageRx lane msg rsOk corrected stamp s
  | .controlFrameRx lane frame => Sys2Proof.Machine.execControlFrameRx lane frame s
  | .replayMarkerRx lane m attempt => Sys2Proof.Machine.execReplayMarkerRx lane m attempt s
  | .fomUpdate lane fom => Sys2Proof.Machine.execFomUpdate lane fom s
  | .patternCheckerLock heard => Sys2Proof.Machine.execPatternCheckerLock heard s
  | .lanePatClr rq lane => Sys2Proof.Machine.execLanePatClr rq lane s
  | .laneInjFire rq lane => Sys2Proof.Machine.execLaneInjFire rq lane s
  | .timerefTick => Sys2Proof.Machine.execTimerefTick s
  | .timeNowLatch rq => Sys2Proof.Machine.execTimeNowLatch rq s
  | .timeSet rq => Sys2Proof.Machine.execTimeSet rq s
  | .timeAdj rq => Sys2Proof.Machine.execTimeAdj rq s
  | .timeCmdArm rq => Sys2Proof.Machine.execTimeCmdArm rq s
  | .timeCancel rq => Sys2Proof.Machine.execTimeCancel rq s
  | .timeCompareFire j => Sys2Proof.Machine.execTimeCompareFire j s
  | .timeCmpPulseEnd j => Sys2Proof.Machine.execTimeCmpPulseEnd j s
  | .timeCaptureEdge k rising ns frac low => Sys2Proof.Machine.execTimeCaptureEdge k rising ns frac low s
  | .timeCapRead rq k => Sys2Proof.Machine.execTimeCapRead rq k s
  | .capBoundaryMarker seg => Sys2Proof.Machine.execCapBoundaryMarker seg s
  | .capRecordAssemble => Sys2Proof.Machine.execCapRecordAssemble s
  | .capRearmDone => Sys2Proof.Machine.execCapRearmDone s
  | .capGap => Sys2Proof.Machine.execCapGap s
  | .capArm rq => Sys2Proof.Machine.execCapArm rq s
  | .capStop rq => Sys2Proof.Machine.execCapStop rq s
  | .capTrigger rq => Sys2Proof.Machine.execCapTrigger rq s
  | .pcieLinkTraining partnerSpeed width mode => Sys2Proof.Machine.execPcieLinkTraining partnerSpeed width mode s
  | .pcieReset kind => Sys2Proof.Machine.execPcieReset kind s
  | .flr fn => Sys2Proof.Machine.execFlr fn s
  | .bar2Read fn offset size => Sys2Proof.Machine.execBar2Read fn offset size s
  | .bar2Write fn offset bytes => Sys2Proof.Machine.execBar2Write fn offset bytes s
  | .pcieAtomic fn bar offset kind size operand => Sys2Proof.Machine.execPcieAtomic fn bar offset kind size operand s
  | .msixUnmask fn vector => Sys2Proof.Machine.execMsixUnmask fn vector s
  | .nocPacket packet => Sys2Proof.Machine.execNocPacket packet s
  | .devWhistleAssert rq => Sys2Proof.Machine.execDevWhistleAssert rq s
  | .devWhistleClear rq => Sys2Proof.Machine.execDevWhistleClear rq s
  | .whistleIn => Sys2Proof.Machine.execWhistleIn s
  | .mboxDbCmd fn value => Sys2Proof.Machine.execMboxDbCmd fn value s
  | .mboxDbCpl fn value => Sys2Proof.Machine.execMboxDbCpl fn value s
  | .mboxRingEnable rq fn => Sys2Proof.Machine.execMboxRingEnable rq fn s
  | .commandTake ring dmaOk bufOk => Sys2Proof.Machine.execCommandTake ring dmaOk bufOk s
  | .agentRingPoll posted consumed => Sys2Proof.Machine.execAgentRingPoll posted consumed s
  | .bmcSubmit descriptor => Sys2Proof.Machine.execBmcSubmit descriptor s
  | .bmcAck => Sys2Proof.Machine.execBmcAck s
  | .dispatchDoorbell fn handle pidx => Sys2Proof.Machine.execDispatchDoorbell fn handle pidx s
  | .engineSelect engine => Sys2Proof.Machine.execEngineSelect engine s
  | .enginePacketDone engine dmaOk => Sys2Proof.Machine.execEnginePacketDone engine dmaOk s
  | .d2hTake job port => Sys2Proof.Machine.execD2hTake job port s
  | .flowCreate fn job port channel group ringBase ringLog2 cidxWb vector irqEvery => Sys2Proof.Machine.execFlowCreate fn job port channel group ringBase ringLog2 cidxWb vector irqEvery s
  | .flowRestart fn handle => Sys2Proof.Machine.execFlowRestart fn handle s
  | .flowDestroy fn handle => Sys2Proof.Machine.execFlowDestroy fn handle s
  | .lockstepFault => Sys2Proof.Machine.execLockstepFault s
  | .wdt1Expire early => Sys2Proof.Machine.execWdt1Expire early s
  | .wdt0Expire => Sys2Proof.Machine.execWdt0Expire s
  | .wdt0Kick rq key => Sys2Proof.Machine.execWdt0Kick rq key s
  | .agentFault => Sys2Proof.Machine.execAgentFault s
  | .sensorSample reading => Sys2Proof.Machine.execSensorSample reading s
  | .voltRecovered => Sys2Proof.Machine.execVoltRecovered s
  | .eventRaise source code job severity detail => Sys2Proof.Machine.execEventRaise source code job severity detail s
  | .logFlush => Sys2Proof.Machine.execLogFlush s
  | .scoreboardSample hour => Sys2Proof.Machine.execScoreboardSample hour s
  | .scoreboardWrite => Sys2Proof.Machine.execScoreboardWrite s
  | .devInfo c => Sys2Proof.Machine.execDevInfo c s
  | .devStatus c => Sys2Proof.Machine.execDevStatus c s
  | .devPower c domain op => Sys2Proof.Machine.execDevPower c domain op s
  | .devClock c n => Sys2Proof.Machine.execDevClock c n s
  | .devWhistle c op => Sys2Proof.Machine.execDevWhistle c op s
  | .devShutdown c => Sys2Proof.Machine.execDevShutdown c s
  | .devNop c data => Sys2Proof.Machine.execDevNop c data s
  | .jobCreate c mask fn => Sys2Proof.Machine.execJobCreate c mask fn s
  | .jobDestroy c job keep => Sys2Proof.Machine.execJobDestroy c job keep s
  | .jobQuery c job => Sys2Proof.Machine.execJobQuery c job s
  | .jobWindowAlloc c job octant units => Sys2Proof.Machine.execJobWindowAlloc c job octant units s
  | .jobWindowFree c job octant units offset => Sys2Proof.Machine.execJobWindowFree c job octant units offset s
  | .imgLoad c job hbm shift compare address len report capacity => Sys2Proof.Machine.execImgLoad c job hbm shift compare address len report capacity s
  | .imgReload c job hbm shift address len report capacity boundaries => Sys2Proof.Machine.execImgReload c job hbm shift address len report capacity boundaries s
  | .regionStoresWritten job => Sys2Proof.Machine.execRegionStoresWritten job s
  | .imgInfo c job => Sys2Proof.Machine.execImgInfo c job s
  | .runStart c job d1 d2 d3 lag ckLead pinGate => Sys2Proof.Machine.execRunStart c job d1 d2 d3 lag ckLead pinGate s
  | .runHalt c job => Sys2Proof.Machine.execRunHalt c job s
  | .runResume c job => Sys2Proof.Machine.execRunResume c job s
  | .runStop c job => Sys2Proof.Machine.execRunStop c job s
  | .runUntil c job target => Sys2Proof.Machine.execRunUntil c job target s
  | .stateRead c job first count buffer => Sys2Proof.Machine.execStateRead c job first count buffer s
  | .stateWrite c job first count buffer => Sys2Proof.Machine.execStateWrite c job first count buffer s
  | .ckptEnable c job intervalLog2 replayLimit logGib storeGib ext => Sys2Proof.Machine.execCkptEnable c job intervalLog2 replayLimit logGib storeGib ext s
  | .ckptDisable c job => Sys2Proof.Machine.execCkptDisable c job s
  | .ckptRequest c job => Sys2Proof.Machine.execCkptRequest c job s
  | .ckptList c job buffer capacity => Sys2Proof.Machine.execCkptList c job buffer capacity s
  | .ckptReplay c job mode target => Sys2Proof.Machine.execCkptReplay c job mode target s
  | .capOpen c job sizeLog2 count => Sys2Proof.Machine.execCapOpen c job sizeLog2 count s
  | .capClose c job => Sys2Proof.Machine.execCapClose c job s
  | .laneUp c lanes coding reach preset autoRetrain lambda pkg timeoutMs => Sys2Proof.Machine.execLaneUp c lanes coding reach preset autoRetrain lambda pkg timeoutMs s
  | .laneDown c lanes => Sys2Proof.Machine.execLaneDown c lanes s
  | .laneStatus c buffer => Sys2Proof.Machine.execLaneStatus c buffer s
  | .timePtpOn c lanes domain pps asymmetry => Sys2Proof.Machine.execTimePtpOn c lanes domain pps asymmetry s
  | .timePtpOff c => Sys2Proof.Machine.execTimePtpOff c s
  | .timePtpStatus c => Sys2Proof.Machine.execTimePtpStatus c s
  | .timeUnit c unit target period control => Sys2Proof.Machine.execTimeUnit c unit target period control s
  | .timeArm c => Sys2Proof.Machine.execTimeArm c s
  | .secOwner c buffer => Sys2Proof.Machine.execSecOwner c buffer s
  | .secKeySet c buffer => Sys2Proof.Machine.execSecKeySet c buffer s
  | .secKeyClear c buffer => Sys2Proof.Machine.execSecKeyClear c buffer s
  | .secAttest c nonce buffer => Sys2Proof.Machine.execSecAttest c nonce buffer s
  | .secIdentity c buffer capacity => Sys2Proof.Machine.execSecIdentity c buffer capacity s
  | .logRead c fromCursor maxEntries buffer => Sys2Proof.Machine.execLogRead c fromCursor maxEntries buffer s
  | .logAck c first mask => Sys2Proof.Machine.execLogAck c first mask s
  | .logRoute c source value => Sys2Proof.Machine.execLogRoute c source value s
  | .scoreRead c offset len buffer => Sys2Proof.Machine.execScoreRead c offset len buffer s
  | .updBegin c kind len => Sys2Proof.Machine.execUpdBegin c kind len s
  | .updData c offset len buffer => Sys2Proof.Machine.execUpdData c offset len buffer s
  | .updFinish c => Sys2Proof.Machine.execUpdFinish c s
  | .updActivate c => Sys2Proof.Machine.execUpdActivate c s
  | .updCommit c kind => Sys2Proof.Machine.execUpdCommit c kind s
  | .updAbort c => Sys2Proof.Machine.execUpdAbort c s
  | .idcode => Sys2Proof.Machine.execIdcode s
  | .samplePreload pins shiftIn => Sys2Proof.Machine.execSamplePreload pins shiftIn s
  | .extest pins shiftIn => Sys2Proof.Machine.execExtest pins shiftIn s
  | .extestPulse pins shiftIn => Sys2Proof.Machine.execExtestPulse pins shiftIn s
  | .extestTrain pins shiftIn => Sys2Proof.Machine.execExtestTrain pins shiftIn s
  | .clamp sysRstN => Sys2Proof.Machine.execClamp sysRstN s
  | .highz sysRstN => Sys2Proof.Machine.execHighz sysRstN s
  | .bypass => Sys2Proof.Machine.execBypass s
  | .dapStat => Sys2Proof.Machine.execDapStat s
  | .dapAccUpdate bits => Sys2Proof.Machine.execDapAccUpdate bits s
  | .dapAccCapture => Sys2Proof.Machine.execDapAccCapture s
  | .dapAccessDone => Sys2Proof.Machine.execDapAccessDone s
  | .dbgRstN => Sys2Proof.Machine.execDbgRstN s
  | .dbgAuthChallenge rq => Sys2Proof.Machine.execDbgAuthChallenge rq s
  | .dbgAuthVerify rq scope => Sys2Proof.Machine.execDbgAuthVerify rq scope s
  | .dbgAuthVerifyDone => Sys2Proof.Machine.execDbgAuthVerifyDone s
  | .dbgAuthLock rq => Sys2Proof.Machine.execDbgAuthLock rq s
  | .dbgChallengeExpire => Sys2Proof.Machine.execDbgChallengeExpire s
  | .packageHalt rq => Sys2Proof.Machine.execPackageHalt rq s
  | .packageResume rq => Sys2Proof.Machine.execPackageResume rq s
  | .ucHaltRequest rq pc mode reserved => Sys2Proof.Machine.execUcHaltRequest rq pc mode reserved s
  | .ebreak pc mode => Sys2Proof.Machine.execEbreak pc mode s
  | .comparatorMatch what n pc mode => Sys2Proof.Machine.execComparatorMatch what n pc mode s
  | .monitorExit ctl => Sys2Proof.Machine.execMonitorExit ctl s
  | .stepEvent pc mode => Sys2Proof.Machine.execStepEvent pc mode s
  | .dccTxPush word => Sys2Proof.Machine.execDccTxPush word s
  | .dccTxRead rq => Sys2Proof.Machine.execDccTxRead rq s
  | .dccTxPop rq => Sys2Proof.Machine.execDccTxPop rq s
  | .dccRxPush rq word => Sys2Proof.Machine.execDccRxPush rq word s
  | .dccRxRead => Sys2Proof.Machine.execDccRxRead s
  | .traceStart rq => Sys2Proof.Machine.execTraceStart rq s
  | .traceStop rq => Sys2Proof.Machine.execTraceStop rq s
  | .traceTrigger source => Sys2Proof.Machine.execTraceTrigger source s
  | .traceWindowDone => Sys2Proof.Machine.execTraceWindowDone s
  | .traceSinkFull => Sys2Proof.Machine.execTraceSinkFull s
  | .ucSleep cycles => Sys2Proof.Machine.execUcSleep cycles s
  | .ucWake pc mode => Sys2Proof.Machine.execUcWake pc mode s
  | .gpioSet rq w bits => Sys2Proof.Machine.execGpioSet rq w bits s
  | .gpioClr rq w bits => Sys2Proof.Machine.execGpioClr rq w bits s
  | .gpioTgl rq w bits => Sys2Proof.Machine.execGpioTgl rq w bits s
  | .gpioXbarSelWrite rq pin sel => Sys2Proof.Machine.execGpioXbarSelWrite rq pin sel s
  | .pwrReqGo rq value => Sys2Proof.Machine.execPwrReqGo rq value s
  | .domainSwitchOnDone pd => Sys2Proof.Machine.execDomainSwitchOnDone pd s
  | .domainSwitchOffDone pd => Sys2Proof.Machine.execDomainSwitchOffDone pd s
  | .rstCmd rq key boot => Sys2Proof.Machine.execRstCmd rq key boot s
  | .deviceReset cause boot => Sys2Proof.Machine.execDeviceReset cause boot s
  | .powerOnReset boot => Sys2Proof.Machine.execPowerOnReset boot s
  | .thermalTrip => Sys2Proof.Machine.execThermalTrip s
  | .refclkLoss clk => Sys2Proof.Machine.execRefclkLoss clk s
  | .loadingComplete job => Sys2Proof.Machine.execLoadingComplete job s
  | .preloadComplete job => Sys2Proof.Machine.execPreloadComplete job s
  | .destroyComplete job => Sys2Proof.Machine.execDestroyComplete job s
  | .laneUpTimeout => Sys2Proof.Machine.execLaneUpTimeout s
  | .whistleInFall => Sys2Proof.Machine.execWhistleInFall s
  | .hbmRequestComplete pc result => Sys2Proof.Machine.execHbmRequestComplete pc result s
  | .retiredInstruction r => Sys2Proof.Machine.execRetiredInstruction r s

end Sys2Proof.Machine
end

