-- ==== Sys2Proof/Laws/Sparse.lean ====
section
/-! SUPPORT. Sparse tables: what reads back from each operation, and that every operation keeps the canonical form. -/

namespace Sys2Proof.Machine

variable {α : Type}

/-! ### Read after write -/

theorem Sparse.get_erase (d : α) (m : Sparse α) (i j : Nat) :
    Sparse.get d (Sparse.erase m i) j = if j = i then d else Sparse.get d m j := by
  induction m with
  | nil => simp [Sparse.erase, Sparse.get]
  | cons e t ih =>
    obtain ⟨k, v⟩ := e
    by_cases hik : i = k <;> by_cases hjk : j = k <;> simp_all [Sparse.erase, Sparse.get]
    intro h; exact absurd h.symm hik

theorem Sparse.get_insert (d : α) (m : Sparse α) (i j : Nat) (v : α) :
    Sparse.get d (Sparse.insert m i v) j = if j = i then v else Sparse.get d m j := by
  induction m with
  | nil => simp [Sparse.insert, Sparse.get]
  | cons e t ih =>
    obtain ⟨k, w⟩ := e
    unfold Sparse.insert
    split
    · subst i; by_cases h : j = k <;> simp [Sparse.get, h]
    · split
      · by_cases h : j = i <;> simp [Sparse.get, h]
      · by_cases h : j = k
        · subst h; simp [Sparse.get]; intro h'; exact absurd h'.symm ‹_›
        · simp [Sparse.get, h, ih]

/-- A read after a write gives the value written at its key and what stood there at every other. -/
@[simp] theorem Sparse.get_set [DecidableEq α] (d : α) (m : Sparse α) (i j : Nat) (v : α) :
    Sparse.get d (Sparse.set d m i v) j = if j = i then v else Sparse.get d m j := by
  unfold Sparse.set
  split
  · rename_i h; rw [Sparse.get_erase, h]
  · exact Sparse.get_insert ..

@[simp] theorem Sparse.get_nil (d : α) (i : Nat) : Sparse.get d [] i = d := rfl

/-- Filtering a table by its keys keeps the entries of the keys kept. -/
theorem Sparse.get_filter (d : α) (m : Sparse α) (p : Nat → Bool) (i : Nat) :
    Sparse.get d (m.filter (fun e => p e.1)) i = if p i then Sparse.get d m i else d := by
  induction m with
  | nil => simp
  | cons e t ih =>
    obtain ⟨k, v⟩ := e
    by_cases hk : p k <;> by_cases hi : i = k <;> simp_all [Sparse.get]

/-- Bytes stored from `a` on leave every byte outside them as it was. -/
theorem Sparse.get_putBytes_of_not_mem (m : Sparse Byte) (a : Nat) (bs : List Byte) (i : Nat)
    (h : i < a ∨ a + bs.length ≤ i) : Sparse.get 0 (Sparse.putBytes m a bs) i = Sparse.get 0 m i := by
  induction bs generalizing m a with
  | nil => rfl
  | cons b bs ih =>
    simp only [List.length_cons] at h
    rw [Sparse.putBytes, ih _ _ (by omega), Sparse.get_set, if_neg (by omega)]

/-- Bytes stored from `a` on read back. -/
theorem Sparse.get_putBytes_of_mem (m : Sparse Byte) (a : Nat) (bs : List Byte) (n : Nat) (h : n < bs.length) :
    Sparse.get 0 (Sparse.putBytes m a bs) (a + n) = bs[n] := by
  induction bs generalizing m a n with
  | nil => simp at h
  | cons b bs ih =>
    rw [Sparse.putBytes]
    cases n with
    | zero =>
      rw [Sparse.get_putBytes_of_not_mem _ _ _ _ (by omega), Sparse.get_set, if_pos (by omega)]; rfl
    | succ n =>
      have := ih (Sparse.set 0 m a b) (a + 1) n (by simpa using h)
      rw [show a + (n + 1) = a + 1 + n by omega, this]; rfl

/-! ### The canonical form -/

theorem Sparse.above_erase (m : Sparse α) (i k : Nat) (h : Sparse.above m k = true) :
    Sparse.above (Sparse.erase m i) k = true := by
  induction m with
  | nil => rfl
  | cons e t ih =>
    simp only [Sparse.above, List.all_cons, Bool.and_eq_true] at h ih
    unfold Sparse.erase
    split
    · exact ih h.2
    · simpa [Sparse.above, h.1] using ih h.2

theorem Sparse.above_insert (m : Sparse α) (i k : Nat) (v : α) (hk : k < i) (h : Sparse.above m k = true) :
    Sparse.above (Sparse.insert m i v) k = true := by
  induction m with
  | nil => simpa [Sparse.insert, Sparse.above] using hk
  | cons e t ih =>
    have h' := h
    simp only [Sparse.above, List.all_cons, Bool.and_eq_true] at h ih
    unfold Sparse.insert
    split
    · simpa [Sparse.above, hk] using h.2
    · split
      · simpa [Sparse.above, hk] using h'
      · simpa [Sparse.above, h.1] using ih h.2

theorem Sparse.above_trans (m : Sparse α) (i k : Nat) (hk : k ≤ i) (h : Sparse.above m i = true) :
    Sparse.above m k = true := by
  simp only [Sparse.above, List.all_eq_true, decide_eq_true_eq] at h ⊢
  exact fun e he => Nat.lt_of_le_of_lt hk (h e he)

variable [DecidableEq α]

theorem Sparse.wf_erase (d : α) (m : Sparse α) (i : Nat) (h : Sparse.wf d m = true) :
    Sparse.wf d (Sparse.erase m i) = true := by
  induction m with
  | nil => rfl
  | cons e t ih =>
    simp only [Sparse.wf, Bool.and_eq_true] at h
    unfold Sparse.erase
    split
    · exact ih h.2
    · simp only [Sparse.wf, Bool.and_eq_true]
      exact ⟨⟨Sparse.above_erase _ _ _ h.1.1, h.1.2⟩, ih h.2⟩

theorem Sparse.wf_insert (d : α) (m : Sparse α) (i : Nat) (v : α) (hv : v ≠ d) (h : Sparse.wf d m = true) :
    Sparse.wf d (Sparse.insert m i v) = true := by
  induction m with
  | nil => simp [Sparse.insert, Sparse.wf, Sparse.above, hv]
  | cons e t ih =>
    obtain ⟨k, w⟩ := e
    have h' := h
    simp only [Sparse.wf, Bool.and_eq_true] at h
    unfold Sparse.insert
    split
    · subst i; simpa [Sparse.wf, hv, h.2] using h.1.1
    · split
      · rename_i hik
        simp only [Sparse.wf, Bool.and_eq_true]
        refine ⟨⟨?_, by simp [hv]⟩, h⟩
        simp only [Sparse.above, List.all_cons, Bool.and_eq_true, decide_eq_true_eq]
        exact ⟨hik, Sparse.above_trans t k i (by omega) h.1.1⟩
      · simp only [Sparse.wf, Bool.and_eq_true]
        exact ⟨⟨Sparse.above_insert _ _ _ _ (by omega) h.1.1, h.1.2⟩, ih h.2⟩

/-- A write keeps the canonical form. -/
theorem Sparse.wf_set (d : α) (m : Sparse α) (i : Nat) (v : α) (h : Sparse.wf d m = true) :
    Sparse.wf d (Sparse.set d m i v) = true := by
  unfold Sparse.set
  split
  · exact Sparse.wf_erase _ _ _ h
  · exact Sparse.wf_insert _ _ _ _ ‹_› h

/-- Removing entries keeps the canonical form. -/
theorem Sparse.wf_filter (d : α) (m : Sparse α) (p : Nat × α → Bool) (h : Sparse.wf d m = true) :
    Sparse.wf d (m.filter p) = true := by
  induction m with
  | nil => rfl
  | cons e t ih =>
    simp only [Sparse.wf, Bool.and_eq_true] at h
    by_cases hp : p e
    · rw [List.filter_cons_of_pos hp]
      simp only [Sparse.wf, Bool.and_eq_true]
      refine ⟨⟨?_, h.1.2⟩, ih h.2⟩
      have h1 := h.1.1
      simp only [Sparse.above, List.all_eq_true] at h1 ⊢
      exact fun x hx => h1 x (List.mem_filter.mp hx).1
    · rw [List.filter_cons_of_neg hp]; exact ih h.2

/-- Storing bytes keeps a memory's canonical form. -/
theorem Memory.wf_putBytes (m : Sparse Byte) (a : Nat) (bs : List Byte) (h : Memory.wf m = true) :
    Memory.wf (Sparse.putBytes m a bs) = true := by
  induction bs generalizing m a with
  | nil => exact h
  | cons b bs ih => exact ih _ _ (Sparse.wf_set _ _ _ _ h)

end Sys2Proof.Machine
end

