-- ==== Sys2Proof/Laws/State.lean ====
section
/-! SUPPORT. What each named update of the state leaves alone: one lemma per field outside its footprint, so that no later
proof unfolds a record update; and what reads back from each update. -/

namespace Sys2Proof.Machine.State



/-! ### A conditional update -/

theorem ite_regs {c : Prop} [Decidable c] {a b s : State} (ha : a.regs = s.regs) (hb : b.regs = s.regs) :
    (if c then a else b).regs = s.regs := by split <;> assumption
theorem ite_pages {c : Prop} [Decidable c] {a b s : State} (ha : a.pages = s.pages) (hb : b.pages = s.pages) :
    (if c then a else b).pages = s.pages := by split <;> assumption
theorem ite_slots {c : Prop} [Decidable c] {a b s : State} (ha : a.slots = s.slots) (hb : b.slots = s.slots) :
    (if c then a else b).slots = s.slots := by split <;> assumption
theorem ite_busRead {c : Prop} [Decidable c] {a b s : State} (ha : a.busRead = s.busRead) (hb : b.busRead = s.busRead) :
    (if c then a else b).busRead = s.busRead := by split <;> assumption
theorem ite_fab {c : Prop} [Decidable c] {a b s : State} (ha : a.fab = s.fab) (hb : b.fab = s.fab) :
    (if c then a else b).fab = s.fab := by split <;> assumption
theorem ite_jobs {c : Prop} [Decidable c] {a b s : State} (ha : a.jobs = s.jobs) (hb : b.jobs = s.jobs) :
    (if c then a else b).jobs = s.jobs := by split <;> assumption
theorem ite_refs {c : Prop} [Decidable c] {a b s : State} (ha : a.refs = s.refs) (hb : b.refs = s.refs) :
    (if c then a else b).refs = s.refs := by split <;> assumption
theorem ite_lanes {c : Prop} [Decidable c] {a b s : State} (ha : a.lanes = s.lanes) (hb : b.lanes = s.lanes) :
    (if c then a else b).lanes = s.lanes := by split <;> assumption
theorem ite_hbm {c : Prop} [Decidable c] {a b s : State} (ha : a.hbm = s.hbm) (hb : b.hbm = s.hbm) :
    (if c then a else b).hbm = s.hbm := by split <;> assumption
theorem ite_hostMem {c : Prop} [Decidable c] {a b s : State} (ha : a.hostMem = s.hostMem) (hb : b.hostMem = s.hostMem) :
    (if c then a else b).hostMem = s.hostMem := by split <;> assumption
theorem ite_time {c : Prop} [Decidable c] {a b s : State} (ha : a.time = s.time) (hb : b.time = s.time) :
    (if c then a else b).time = s.time := by split <;> assumption
theorem ite_cap {c : Prop} [Decidable c] {a b s : State} (ha : a.cap = s.cap) (hb : b.cap = s.cap) :
    (if c then a else b).cap = s.cap := by split <;> assumption
theorem ite_fns {c : Prop} [Decidable c] {a b s : State} (ha : a.fns = s.fns) (hb : b.fns = s.fns) :
    (if c then a else b).fns = s.fns := by split <;> assumption
theorem ite_access {c : Prop} [Decidable c] {a b s : State} (ha : a.access = s.access) (hb : b.access = s.access) :
    (if c then a else b).access = s.access := by split <;> assumption
theorem ite_out {c : Prop} [Decidable c] {a b s : State} (ha : a.out = s.out) (hb : b.out = s.out) :
    (if c then a else b).out = s.out := by split <;> assumption
theorem ite_disp {c : Prop} [Decidable c] {a b s : State} (ha : a.disp = s.disp) (hb : b.disp = s.disp) :
    (if c then a else b).disp = s.disp := by split <;> assumption
theorem ite_theham {c : Prop} [Decidable c] {a b s : State} (ha : a.theham = s.theham) (hb : b.theham = s.theham) :
    (if c then a else b).theham = s.theham := by split <;> assumption
theorem ite_scrub {c : Prop} [Decidable c] {a b s : State} (ha : a.scrub = s.scrub) (hb : b.scrub = s.scrub) :
    (if c then a else b).scrub = s.scrub := by split <;> assumption
theorem ite_tap {c : Prop} [Decidable c] {a b s : State} (ha : a.tap = s.tap) (hb : b.tap = s.tap) :
    (if c then a else b).tap = s.tap := by split <;> assumption
theorem ite_dbg {c : Prop} [Decidable c] {a b s : State} (ha : a.dbg = s.dbg) (hb : b.dbg = s.dbg) :
    (if c then a else b).dbg = s.dbg := by split <;> assumption
theorem ite_trace {c : Prop} [Decidable c] {a b s : State} (ha : a.trace = s.trace) (hb : b.trace = s.trace) :
    (if c then a else b).trace = s.trace := by split <;> assumption
theorem ite_pwr {c : Prop} [Decidable c] {a b s : State} (ha : a.pwr = s.pwr) (hb : b.pwr = s.pwr) :
    (if c then a else b).pwr = s.pwr := by split <;> assumption
theorem ite_pins {c : Prop} [Decidable c] {a b s : State} (ha : a.pins = s.pins) (hb : b.pins = s.pins) :
    (if c then a else b).pins = s.pins := by split <;> assumption
theorem ite_noc {c : Prop} [Decidable c] {a b s : State} (ha : a.noc = s.noc) (hb : b.noc = s.noc) :
    (if c then a else b).noc = s.noc := by split <;> assumption
theorem ite_periph {c : Prop} [Decidable c] {a b s : State} (ha : a.periph = s.periph) (hb : b.periph = s.periph) :
    (if c then a else b).periph = s.periph := by split <;> assumption
theorem ite_allocs {c : Prop} [Decidable c] {a b s : State} (ha : a.allocs = s.allocs) (hb : b.allocs = s.allocs) :
    (if c then a else b).allocs = s.allocs := by split <;> assumption
theorem ite_pkgHalt {c : Prop} [Decidable c] {a b s : State} (ha : a.pkgHalt = s.pkgHalt) (hb : b.pkgHalt = s.pkgHalt) :
    (if c then a else b).pkgHalt = s.pkgHalt := by split <;> assumption
theorem ite_free {c : Prop} [Decidable c] {a b s : State} (ha : a.free = s.free) (hb : b.free = s.free) :
    (if c then a else b).free = s.free := by split <;> assumption
theorem ite_pending {c : Prop} [Decidable c] {a b s : State} (ha : a.pending = s.pending) (hb : b.pending = s.pending) :
    (if c then a else b).pending = s.pending := by split <;> assumption
section
variable (s : State) (addr : Nat) (v : Word)

@[simp] theorem setReg_pages : (s.setReg addr v).pages = s.pages := (rfl)
@[simp] theorem setReg_slots : (s.setReg addr v).slots = s.slots := (rfl)
@[simp] theorem setReg_busRead : (s.setReg addr v).busRead = s.busRead := (rfl)
@[simp] theorem setReg_fab : (s.setReg addr v).fab = s.fab := (rfl)
@[simp] theorem setReg_jobs : (s.setReg addr v).jobs = s.jobs := (rfl)
@[simp] theorem setReg_refs : (s.setReg addr v).refs = s.refs := (rfl)
@[simp] theorem setReg_lanes : (s.setReg addr v).lanes = s.lanes := (rfl)
@[simp] theorem setReg_hbm : (s.setReg addr v).hbm = s.hbm := (rfl)
@[simp] theorem setReg_hostMem : (s.setReg addr v).hostMem = s.hostMem := (rfl)
@[simp] theorem setReg_time : (s.setReg addr v).time = s.time := (rfl)
@[simp] theorem setReg_cap : (s.setReg addr v).cap = s.cap := (rfl)
@[simp] theorem setReg_fns : (s.setReg addr v).fns = s.fns := (rfl)
@[simp] theorem setReg_access : (s.setReg addr v).access = s.access := (rfl)
@[simp] theorem setReg_out : (s.setReg addr v).out = s.out := (rfl)
@[simp] theorem setReg_disp : (s.setReg addr v).disp = s.disp := (rfl)
@[simp] theorem setReg_theham : (s.setReg addr v).theham = s.theham := (rfl)
@[simp] theorem setReg_scrub : (s.setReg addr v).scrub = s.scrub := (rfl)
@[simp] theorem setReg_tap : (s.setReg addr v).tap = s.tap := (rfl)
@[simp] theorem setReg_dbg : (s.setReg addr v).dbg = s.dbg := (rfl)
@[simp] theorem setReg_trace : (s.setReg addr v).trace = s.trace := (rfl)
@[simp] theorem setReg_pwr : (s.setReg addr v).pwr = s.pwr := (rfl)
@[simp] theorem setReg_pins : (s.setReg addr v).pins = s.pins := (rfl)
@[simp] theorem setReg_noc : (s.setReg addr v).noc = s.noc := (rfl)
@[simp] theorem setReg_periph : (s.setReg addr v).periph = s.periph := (rfl)
@[simp] theorem setReg_allocs : (s.setReg addr v).allocs = s.allocs := (rfl)
@[simp] theorem setReg_pkgHalt : (s.setReg addr v).pkgHalt = s.pkgHalt := (rfl)
@[simp] theorem setReg_free : (s.setReg addr v).free = s.free := (rfl)
@[simp] theorem setReg_pending : (s.setReg addr v).pending = s.pending := (rfl)

end

section
variable (s : State) (addr hi lo v : Nat)

@[simp] theorem setFld_pages : (s.setFld addr hi lo v).pages = s.pages := (rfl)
@[simp] theorem setFld_slots : (s.setFld addr hi lo v).slots = s.slots := (rfl)
@[simp] theorem setFld_busRead : (s.setFld addr hi lo v).busRead = s.busRead := (rfl)
@[simp] theorem setFld_fab : (s.setFld addr hi lo v).fab = s.fab := (rfl)
@[simp] theorem setFld_jobs : (s.setFld addr hi lo v).jobs = s.jobs := (rfl)
@[simp] theorem setFld_refs : (s.setFld addr hi lo v).refs = s.refs := (rfl)
@[simp] theorem setFld_lanes : (s.setFld addr hi lo v).lanes = s.lanes := (rfl)
@[simp] theorem setFld_hbm : (s.setFld addr hi lo v).hbm = s.hbm := (rfl)
@[simp] theorem setFld_hostMem : (s.setFld addr hi lo v).hostMem = s.hostMem := (rfl)
@[simp] theorem setFld_time : (s.setFld addr hi lo v).time = s.time := (rfl)
@[simp] theorem setFld_cap : (s.setFld addr hi lo v).cap = s.cap := (rfl)
@[simp] theorem setFld_fns : (s.setFld addr hi lo v).fns = s.fns := (rfl)
@[simp] theorem setFld_access : (s.setFld addr hi lo v).access = s.access := (rfl)
@[simp] theorem setFld_out : (s.setFld addr hi lo v).out = s.out := (rfl)
@[simp] theorem setFld_disp : (s.setFld addr hi lo v).disp = s.disp := (rfl)
@[simp] theorem setFld_theham : (s.setFld addr hi lo v).theham = s.theham := (rfl)
@[simp] theorem setFld_scrub : (s.setFld addr hi lo v).scrub = s.scrub := (rfl)
@[simp] theorem setFld_tap : (s.setFld addr hi lo v).tap = s.tap := (rfl)
@[simp] theorem setFld_dbg : (s.setFld addr hi lo v).dbg = s.dbg := (rfl)
@[simp] theorem setFld_trace : (s.setFld addr hi lo v).trace = s.trace := (rfl)
@[simp] theorem setFld_pwr : (s.setFld addr hi lo v).pwr = s.pwr := (rfl)
@[simp] theorem setFld_pins : (s.setFld addr hi lo v).pins = s.pins := (rfl)
@[simp] theorem setFld_noc : (s.setFld addr hi lo v).noc = s.noc := (rfl)
@[simp] theorem setFld_periph : (s.setFld addr hi lo v).periph = s.periph := (rfl)
@[simp] theorem setFld_allocs : (s.setFld addr hi lo v).allocs = s.allocs := (rfl)
@[simp] theorem setFld_pkgHalt : (s.setFld addr hi lo v).pkgHalt = s.pkgHalt := (rfl)
@[simp] theorem setFld_free : (s.setFld addr hi lo v).free = s.free := (rfl)
@[simp] theorem setFld_pending : (s.setFld addr hi lo v).pending = s.pending := (rfl)

end

section
variable (s : State) (addr n : Nat) (v : Bool)

@[simp] theorem setFlag_pages : (s.setFlag addr n v).pages = s.pages := (rfl)
@[simp] theorem setFlag_slots : (s.setFlag addr n v).slots = s.slots := (rfl)
@[simp] theorem setFlag_busRead : (s.setFlag addr n v).busRead = s.busRead := (rfl)
@[simp] theorem setFlag_fab : (s.setFlag addr n v).fab = s.fab := (rfl)
@[simp] theorem setFlag_jobs : (s.setFlag addr n v).jobs = s.jobs := (rfl)
@[simp] theorem setFlag_refs : (s.setFlag addr n v).refs = s.refs := (rfl)
@[simp] theorem setFlag_lanes : (s.setFlag addr n v).lanes = s.lanes := (rfl)
@[simp] theorem setFlag_hbm : (s.setFlag addr n v).hbm = s.hbm := (rfl)
@[simp] theorem setFlag_hostMem : (s.setFlag addr n v).hostMem = s.hostMem := (rfl)
@[simp] theorem setFlag_time : (s.setFlag addr n v).time = s.time := (rfl)
@[simp] theorem setFlag_cap : (s.setFlag addr n v).cap = s.cap := (rfl)
@[simp] theorem setFlag_fns : (s.setFlag addr n v).fns = s.fns := (rfl)
@[simp] theorem setFlag_access : (s.setFlag addr n v).access = s.access := (rfl)
@[simp] theorem setFlag_out : (s.setFlag addr n v).out = s.out := (rfl)
@[simp] theorem setFlag_disp : (s.setFlag addr n v).disp = s.disp := (rfl)
@[simp] theorem setFlag_theham : (s.setFlag addr n v).theham = s.theham := (rfl)
@[simp] theorem setFlag_scrub : (s.setFlag addr n v).scrub = s.scrub := (rfl)
@[simp] theorem setFlag_tap : (s.setFlag addr n v).tap = s.tap := (rfl)
@[simp] theorem setFlag_dbg : (s.setFlag addr n v).dbg = s.dbg := (rfl)
@[simp] theorem setFlag_trace : (s.setFlag addr n v).trace = s.trace := (rfl)
@[simp] theorem setFlag_pwr : (s.setFlag addr n v).pwr = s.pwr := (rfl)
@[simp] theorem setFlag_pins : (s.setFlag addr n v).pins = s.pins := (rfl)
@[simp] theorem setFlag_noc : (s.setFlag addr n v).noc = s.noc := (rfl)
@[simp] theorem setFlag_periph : (s.setFlag addr n v).periph = s.periph := (rfl)
@[simp] theorem setFlag_allocs : (s.setFlag addr n v).allocs = s.allocs := (rfl)
@[simp] theorem setFlag_pkgHalt : (s.setFlag addr n v).pkgHalt = s.pkgHalt := (rfl)
@[simp] theorem setFlag_free : (s.setFlag addr n v).free = s.free := (rfl)
@[simp] theorem setFlag_pending : (s.setFlag addr n v).pending = s.pending := (rfl)

end

section
variable (s : State) (addr hi lo n : Nat)

@[simp] theorem bump_pages : (s.bump addr hi lo n).pages = s.pages := (rfl)
@[simp] theorem bump_slots : (s.bump addr hi lo n).slots = s.slots := (rfl)
@[simp] theorem bump_busRead : (s.bump addr hi lo n).busRead = s.busRead := (rfl)
@[simp] theorem bump_fab : (s.bump addr hi lo n).fab = s.fab := (rfl)
@[simp] theorem bump_jobs : (s.bump addr hi lo n).jobs = s.jobs := (rfl)
@[simp] theorem bump_refs : (s.bump addr hi lo n).refs = s.refs := (rfl)
@[simp] theorem bump_lanes : (s.bump addr hi lo n).lanes = s.lanes := (rfl)
@[simp] theorem bump_hbm : (s.bump addr hi lo n).hbm = s.hbm := (rfl)
@[simp] theorem bump_hostMem : (s.bump addr hi lo n).hostMem = s.hostMem := (rfl)
@[simp] theorem bump_time : (s.bump addr hi lo n).time = s.time := (rfl)
@[simp] theorem bump_cap : (s.bump addr hi lo n).cap = s.cap := (rfl)
@[simp] theorem bump_fns : (s.bump addr hi lo n).fns = s.fns := (rfl)
@[simp] theorem bump_access : (s.bump addr hi lo n).access = s.access := (rfl)
@[simp] theorem bump_out : (s.bump addr hi lo n).out = s.out := (rfl)
@[simp] theorem bump_disp : (s.bump addr hi lo n).disp = s.disp := (rfl)
@[simp] theorem bump_theham : (s.bump addr hi lo n).theham = s.theham := (rfl)
@[simp] theorem bump_scrub : (s.bump addr hi lo n).scrub = s.scrub := (rfl)
@[simp] theorem bump_tap : (s.bump addr hi lo n).tap = s.tap := (rfl)
@[simp] theorem bump_dbg : (s.bump addr hi lo n).dbg = s.dbg := (rfl)
@[simp] theorem bump_trace : (s.bump addr hi lo n).trace = s.trace := (rfl)
@[simp] theorem bump_pwr : (s.bump addr hi lo n).pwr = s.pwr := (rfl)
@[simp] theorem bump_pins : (s.bump addr hi lo n).pins = s.pins := (rfl)
@[simp] theorem bump_noc : (s.bump addr hi lo n).noc = s.noc := (rfl)
@[simp] theorem bump_periph : (s.bump addr hi lo n).periph = s.periph := (rfl)
@[simp] theorem bump_allocs : (s.bump addr hi lo n).allocs = s.allocs := (rfl)
@[simp] theorem bump_pkgHalt : (s.bump addr hi lo n).pkgHalt = s.pkgHalt := (rfl)
@[simp] theorem bump_free : (s.bump addr hi lo n).free = s.free := (rfl)
@[simp] theorem bump_pending : (s.bump addr hi lo n).pending = s.pending := (rfl)

end

section
variable (s : State) (addr hi lo n : Nat)

@[simp] theorem peak_pages : (s.peak addr hi lo n).pages = s.pages := (rfl)
@[simp] theorem peak_slots : (s.peak addr hi lo n).slots = s.slots := (rfl)
@[simp] theorem peak_busRead : (s.peak addr hi lo n).busRead = s.busRead := (rfl)
@[simp] theorem peak_fab : (s.peak addr hi lo n).fab = s.fab := (rfl)
@[simp] theorem peak_jobs : (s.peak addr hi lo n).jobs = s.jobs := (rfl)
@[simp] theorem peak_refs : (s.peak addr hi lo n).refs = s.refs := (rfl)
@[simp] theorem peak_lanes : (s.peak addr hi lo n).lanes = s.lanes := (rfl)
@[simp] theorem peak_hbm : (s.peak addr hi lo n).hbm = s.hbm := (rfl)
@[simp] theorem peak_hostMem : (s.peak addr hi lo n).hostMem = s.hostMem := (rfl)
@[simp] theorem peak_time : (s.peak addr hi lo n).time = s.time := (rfl)
@[simp] theorem peak_cap : (s.peak addr hi lo n).cap = s.cap := (rfl)
@[simp] theorem peak_fns : (s.peak addr hi lo n).fns = s.fns := (rfl)
@[simp] theorem peak_access : (s.peak addr hi lo n).access = s.access := (rfl)
@[simp] theorem peak_out : (s.peak addr hi lo n).out = s.out := (rfl)
@[simp] theorem peak_disp : (s.peak addr hi lo n).disp = s.disp := (rfl)
@[simp] theorem peak_theham : (s.peak addr hi lo n).theham = s.theham := (rfl)
@[simp] theorem peak_scrub : (s.peak addr hi lo n).scrub = s.scrub := (rfl)
@[simp] theorem peak_tap : (s.peak addr hi lo n).tap = s.tap := (rfl)
@[simp] theorem peak_dbg : (s.peak addr hi lo n).dbg = s.dbg := (rfl)
@[simp] theorem peak_trace : (s.peak addr hi lo n).trace = s.trace := (rfl)
@[simp] theorem peak_pwr : (s.peak addr hi lo n).pwr = s.pwr := (rfl)
@[simp] theorem peak_pins : (s.peak addr hi lo n).pins = s.pins := (rfl)
@[simp] theorem peak_noc : (s.peak addr hi lo n).noc = s.noc := (rfl)
@[simp] theorem peak_periph : (s.peak addr hi lo n).periph = s.periph := (rfl)
@[simp] theorem peak_allocs : (s.peak addr hi lo n).allocs = s.allocs := (rfl)
@[simp] theorem peak_pkgHalt : (s.peak addr hi lo n).pkgHalt = s.pkgHalt := (rfl)
@[simp] theorem peak_free : (s.peak addr hi lo n).free = s.free := (rfl)
@[simp] theorem peak_pending : (s.peak addr hi lo n).pending = s.pending := (rfl)

end

section
variable (s : State) (addr v : Nat)

@[simp] theorem setReg64_pages : (s.setReg64 addr v).pages = s.pages := (rfl)
@[simp] theorem setReg64_slots : (s.setReg64 addr v).slots = s.slots := (rfl)
@[simp] theorem setReg64_busRead : (s.setReg64 addr v).busRead = s.busRead := (rfl)
@[simp] theorem setReg64_fab : (s.setReg64 addr v).fab = s.fab := (rfl)
@[simp] theorem setReg64_jobs : (s.setReg64 addr v).jobs = s.jobs := (rfl)
@[simp] theorem setReg64_refs : (s.setReg64 addr v).refs = s.refs := (rfl)
@[simp] theorem setReg64_lanes : (s.setReg64 addr v).lanes = s.lanes := (rfl)
@[simp] theorem setReg64_hbm : (s.setReg64 addr v).hbm = s.hbm := (rfl)
@[simp] theorem setReg64_hostMem : (s.setReg64 addr v).hostMem = s.hostMem := (rfl)
@[simp] theorem setReg64_time : (s.setReg64 addr v).time = s.time := (rfl)
@[simp] theorem setReg64_cap : (s.setReg64 addr v).cap = s.cap := (rfl)
@[simp] theorem setReg64_fns : (s.setReg64 addr v).fns = s.fns := (rfl)
@[simp] theorem setReg64_access : (s.setReg64 addr v).access = s.access := (rfl)
@[simp] theorem setReg64_out : (s.setReg64 addr v).out = s.out := (rfl)
@[simp] theorem setReg64_disp : (s.setReg64 addr v).disp = s.disp := (rfl)
@[simp] theorem setReg64_theham : (s.setReg64 addr v).theham = s.theham := (rfl)
@[simp] theorem setReg64_scrub : (s.setReg64 addr v).scrub = s.scrub := (rfl)
@[simp] theorem setReg64_tap : (s.setReg64 addr v).tap = s.tap := (rfl)
@[simp] theorem setReg64_dbg : (s.setReg64 addr v).dbg = s.dbg := (rfl)
@[simp] theorem setReg64_trace : (s.setReg64 addr v).trace = s.trace := (rfl)
@[simp] theorem setReg64_pwr : (s.setReg64 addr v).pwr = s.pwr := (rfl)
@[simp] theorem setReg64_pins : (s.setReg64 addr v).pins = s.pins := (rfl)
@[simp] theorem setReg64_noc : (s.setReg64 addr v).noc = s.noc := (rfl)
@[simp] theorem setReg64_periph : (s.setReg64 addr v).periph = s.periph := (rfl)
@[simp] theorem setReg64_allocs : (s.setReg64 addr v).allocs = s.allocs := (rfl)
@[simp] theorem setReg64_pkgHalt : (s.setReg64 addr v).pkgHalt = s.pkgHalt := (rfl)
@[simp] theorem setReg64_free : (s.setReg64 addr v).free = s.free := (rfl)
@[simp] theorem setReg64_pending : (s.setReg64 addr v).pending = s.pending := (rfl)

end

section
variable (s : State) (page : Nat) (rq : Requester)

@[simp] theorem setOwner_pages : (s.setOwner page rq).pages = s.pages := (rfl)
@[simp] theorem setOwner_slots : (s.setOwner page rq).slots = s.slots := (rfl)
@[simp] theorem setOwner_busRead : (s.setOwner page rq).busRead = s.busRead := (rfl)
@[simp] theorem setOwner_fab : (s.setOwner page rq).fab = s.fab := (rfl)
@[simp] theorem setOwner_jobs : (s.setOwner page rq).jobs = s.jobs := (rfl)
@[simp] theorem setOwner_refs : (s.setOwner page rq).refs = s.refs := (rfl)
@[simp] theorem setOwner_lanes : (s.setOwner page rq).lanes = s.lanes := (rfl)
@[simp] theorem setOwner_hbm : (s.setOwner page rq).hbm = s.hbm := (rfl)
@[simp] theorem setOwner_hostMem : (s.setOwner page rq).hostMem = s.hostMem := (rfl)
@[simp] theorem setOwner_time : (s.setOwner page rq).time = s.time := (rfl)
@[simp] theorem setOwner_cap : (s.setOwner page rq).cap = s.cap := (rfl)
@[simp] theorem setOwner_fns : (s.setOwner page rq).fns = s.fns := (rfl)
@[simp] theorem setOwner_access : (s.setOwner page rq).access = s.access := (rfl)
@[simp] theorem setOwner_out : (s.setOwner page rq).out = s.out := (rfl)
@[simp] theorem setOwner_disp : (s.setOwner page rq).disp = s.disp := (rfl)
@[simp] theorem setOwner_theham : (s.setOwner page rq).theham = s.theham := (rfl)
@[simp] theorem setOwner_scrub : (s.setOwner page rq).scrub = s.scrub := (rfl)
@[simp] theorem setOwner_tap : (s.setOwner page rq).tap = s.tap := (rfl)
@[simp] theorem setOwner_dbg : (s.setOwner page rq).dbg = s.dbg := (rfl)
@[simp] theorem setOwner_trace : (s.setOwner page rq).trace = s.trace := (rfl)
@[simp] theorem setOwner_pwr : (s.setOwner page rq).pwr = s.pwr := (rfl)
@[simp] theorem setOwner_pins : (s.setOwner page rq).pins = s.pins := (rfl)
@[simp] theorem setOwner_noc : (s.setOwner page rq).noc = s.noc := (rfl)
@[simp] theorem setOwner_periph : (s.setOwner page rq).periph = s.periph := (rfl)
@[simp] theorem setOwner_allocs : (s.setOwner page rq).allocs = s.allocs := (rfl)
@[simp] theorem setOwner_pkgHalt : (s.setOwner page rq).pkgHalt = s.pkgHalt := (rfl)
@[simp] theorem setOwner_free : (s.setOwner page rq).free = s.free := (rfl)
@[simp] theorem setOwner_pending : (s.setOwner page rq).pending = s.pending := (rfl)

end

section
variable (s : State) (o : Out)

@[simp] theorem emit_regs : (s.emit o).regs = s.regs := (rfl)
@[simp] theorem emit_pages : (s.emit o).pages = s.pages := (rfl)
@[simp] theorem emit_slots : (s.emit o).slots = s.slots := (rfl)
@[simp] theorem emit_busRead : (s.emit o).busRead = s.busRead := (rfl)
@[simp] theorem emit_fab : (s.emit o).fab = s.fab := (rfl)
@[simp] theorem emit_jobs : (s.emit o).jobs = s.jobs := (rfl)
@[simp] theorem emit_refs : (s.emit o).refs = s.refs := (rfl)
@[simp] theorem emit_lanes : (s.emit o).lanes = s.lanes := (rfl)
@[simp] theorem emit_hbm : (s.emit o).hbm = s.hbm := (rfl)
@[simp] theorem emit_hostMem : (s.emit o).hostMem = s.hostMem := (rfl)
@[simp] theorem emit_time : (s.emit o).time = s.time := (rfl)
@[simp] theorem emit_cap : (s.emit o).cap = s.cap := (rfl)
@[simp] theorem emit_fns : (s.emit o).fns = s.fns := (rfl)
@[simp] theorem emit_access : (s.emit o).access = s.access := (rfl)
@[simp] theorem emit_disp : (s.emit o).disp = s.disp := (rfl)
@[simp] theorem emit_theham : (s.emit o).theham = s.theham := (rfl)
@[simp] theorem emit_scrub : (s.emit o).scrub = s.scrub := (rfl)
@[simp] theorem emit_tap : (s.emit o).tap = s.tap := (rfl)
@[simp] theorem emit_dbg : (s.emit o).dbg = s.dbg := (rfl)
@[simp] theorem emit_trace : (s.emit o).trace = s.trace := (rfl)
@[simp] theorem emit_pwr : (s.emit o).pwr = s.pwr := (rfl)
@[simp] theorem emit_pins : (s.emit o).pins = s.pins := (rfl)
@[simp] theorem emit_noc : (s.emit o).noc = s.noc := (rfl)
@[simp] theorem emit_periph : (s.emit o).periph = s.periph := (rfl)
@[simp] theorem emit_allocs : (s.emit o).allocs = s.allocs := (rfl)
@[simp] theorem emit_pkgHalt : (s.emit o).pkgHalt = s.pkgHalt := (rfl)
@[simp] theorem emit_free : (s.emit o).free = s.free := (rfl)
@[simp] theorem emit_pending : (s.emit o).pending = s.pending := (rfl)

end

section
variable (s : State) (fn : Nat) (x : PcieFn)

@[simp] theorem setPcieFn_regs : (s.setPcieFn fn x).regs = s.regs := (rfl)
@[simp] theorem setPcieFn_pages : (s.setPcieFn fn x).pages = s.pages := (rfl)
@[simp] theorem setPcieFn_slots : (s.setPcieFn fn x).slots = s.slots := (rfl)
@[simp] theorem setPcieFn_busRead : (s.setPcieFn fn x).busRead = s.busRead := (rfl)
@[simp] theorem setPcieFn_fab : (s.setPcieFn fn x).fab = s.fab := (rfl)
@[simp] theorem setPcieFn_jobs : (s.setPcieFn fn x).jobs = s.jobs := (rfl)
@[simp] theorem setPcieFn_refs : (s.setPcieFn fn x).refs = s.refs := (rfl)
@[simp] theorem setPcieFn_lanes : (s.setPcieFn fn x).lanes = s.lanes := (rfl)
@[simp] theorem setPcieFn_hbm : (s.setPcieFn fn x).hbm = s.hbm := (rfl)
@[simp] theorem setPcieFn_hostMem : (s.setPcieFn fn x).hostMem = s.hostMem := (rfl)
@[simp] theorem setPcieFn_time : (s.setPcieFn fn x).time = s.time := (rfl)
@[simp] theorem setPcieFn_cap : (s.setPcieFn fn x).cap = s.cap := (rfl)
@[simp] theorem setPcieFn_access : (s.setPcieFn fn x).access = s.access := (rfl)
@[simp] theorem setPcieFn_out : (s.setPcieFn fn x).out = s.out := (rfl)
@[simp] theorem setPcieFn_disp : (s.setPcieFn fn x).disp = s.disp := (rfl)
@[simp] theorem setPcieFn_theham : (s.setPcieFn fn x).theham = s.theham := (rfl)
@[simp] theorem setPcieFn_scrub : (s.setPcieFn fn x).scrub = s.scrub := (rfl)
@[simp] theorem setPcieFn_tap : (s.setPcieFn fn x).tap = s.tap := (rfl)
@[simp] theorem setPcieFn_dbg : (s.setPcieFn fn x).dbg = s.dbg := (rfl)
@[simp] theorem setPcieFn_trace : (s.setPcieFn fn x).trace = s.trace := (rfl)
@[simp] theorem setPcieFn_pwr : (s.setPcieFn fn x).pwr = s.pwr := (rfl)
@[simp] theorem setPcieFn_pins : (s.setPcieFn fn x).pins = s.pins := (rfl)
@[simp] theorem setPcieFn_noc : (s.setPcieFn fn x).noc = s.noc := (rfl)
@[simp] theorem setPcieFn_periph : (s.setPcieFn fn x).periph = s.periph := (rfl)
@[simp] theorem setPcieFn_allocs : (s.setPcieFn fn x).allocs = s.allocs := (rfl)
@[simp] theorem setPcieFn_pkgHalt : (s.setPcieFn fn x).pkgHalt = s.pkgHalt := (rfl)
@[simp] theorem setPcieFn_free : (s.setPcieFn fn x).free = s.free := (rfl)
@[simp] theorem setPcieFn_pending : (s.setPcieFn fn x).pending = s.pending := (rfl)

end

section
variable (s : State) (page : Nat) (d : PageDyn)

@[simp] theorem setPage_regs : (s.setPage page d).regs = s.regs := (rfl)
@[simp] theorem setPage_slots : (s.setPage page d).slots = s.slots := (rfl)
@[simp] theorem setPage_busRead : (s.setPage page d).busRead = s.busRead := (rfl)
@[simp] theorem setPage_fab : (s.setPage page d).fab = s.fab := (rfl)
@[simp] theorem setPage_jobs : (s.setPage page d).jobs = s.jobs := (rfl)
@[simp] theorem setPage_refs : (s.setPage page d).refs = s.refs := (rfl)
@[simp] theorem setPage_lanes : (s.setPage page d).lanes = s.lanes := (rfl)
@[simp] theorem setPage_hbm : (s.setPage page d).hbm = s.hbm := (rfl)
@[simp] theorem setPage_hostMem : (s.setPage page d).hostMem = s.hostMem := (rfl)
@[simp] theorem setPage_time : (s.setPage page d).time = s.time := (rfl)
@[simp] theorem setPage_cap : (s.setPage page d).cap = s.cap := (rfl)
@[simp] theorem setPage_fns : (s.setPage page d).fns = s.fns := (rfl)
@[simp] theorem setPage_access : (s.setPage page d).access = s.access := (rfl)
@[simp] theorem setPage_out : (s.setPage page d).out = s.out := (rfl)
@[simp] theorem setPage_disp : (s.setPage page d).disp = s.disp := (rfl)
@[simp] theorem setPage_theham : (s.setPage page d).theham = s.theham := (rfl)
@[simp] theorem setPage_scrub : (s.setPage page d).scrub = s.scrub := (rfl)
@[simp] theorem setPage_tap : (s.setPage page d).tap = s.tap := (rfl)
@[simp] theorem setPage_dbg : (s.setPage page d).dbg = s.dbg := (rfl)
@[simp] theorem setPage_trace : (s.setPage page d).trace = s.trace := (rfl)
@[simp] theorem setPage_pwr : (s.setPage page d).pwr = s.pwr := (rfl)
@[simp] theorem setPage_pins : (s.setPage page d).pins = s.pins := (rfl)
@[simp] theorem setPage_noc : (s.setPage page d).noc = s.noc := (rfl)
@[simp] theorem setPage_periph : (s.setPage page d).periph = s.periph := (rfl)
@[simp] theorem setPage_allocs : (s.setPage page d).allocs = s.allocs := (rfl)
@[simp] theorem setPage_pkgHalt : (s.setPage page d).pkgHalt = s.pkgHalt := (rfl)
@[simp] theorem setPage_free : (s.setPage page d).free = s.free := (rfl)
@[simp] theorem setPage_pending : (s.setPage page d).pending = s.pending := (rfl)

end

section
variable (s : State) (j : Nat) (x : Job)

@[simp] theorem setJob_regs : (s.setJob j x).regs = s.regs := (rfl)
@[simp] theorem setJob_pages : (s.setJob j x).pages = s.pages := (rfl)
@[simp] theorem setJob_slots : (s.setJob j x).slots = s.slots := (rfl)
@[simp] theorem setJob_busRead : (s.setJob j x).busRead = s.busRead := (rfl)
@[simp] theorem setJob_fab : (s.setJob j x).fab = s.fab := (rfl)
@[simp] theorem setJob_refs : (s.setJob j x).refs = s.refs := (rfl)
@[simp] theorem setJob_lanes : (s.setJob j x).lanes = s.lanes := (rfl)
@[simp] theorem setJob_hbm : (s.setJob j x).hbm = s.hbm := (rfl)
@[simp] theorem setJob_hostMem : (s.setJob j x).hostMem = s.hostMem := (rfl)
@[simp] theorem setJob_time : (s.setJob j x).time = s.time := (rfl)
@[simp] theorem setJob_cap : (s.setJob j x).cap = s.cap := (rfl)
@[simp] theorem setJob_fns : (s.setJob j x).fns = s.fns := (rfl)
@[simp] theorem setJob_access : (s.setJob j x).access = s.access := (rfl)
@[simp] theorem setJob_out : (s.setJob j x).out = s.out := (rfl)
@[simp] theorem setJob_disp : (s.setJob j x).disp = s.disp := (rfl)
@[simp] theorem setJob_theham : (s.setJob j x).theham = s.theham := (rfl)
@[simp] theorem setJob_scrub : (s.setJob j x).scrub = s.scrub := (rfl)
@[simp] theorem setJob_tap : (s.setJob j x).tap = s.tap := (rfl)
@[simp] theorem setJob_dbg : (s.setJob j x).dbg = s.dbg := (rfl)
@[simp] theorem setJob_trace : (s.setJob j x).trace = s.trace := (rfl)
@[simp] theorem setJob_pwr : (s.setJob j x).pwr = s.pwr := (rfl)
@[simp] theorem setJob_pins : (s.setJob j x).pins = s.pins := (rfl)
@[simp] theorem setJob_noc : (s.setJob j x).noc = s.noc := (rfl)
@[simp] theorem setJob_periph : (s.setJob j x).periph = s.periph := (rfl)
@[simp] theorem setJob_allocs : (s.setJob j x).allocs = s.allocs := (rfl)
@[simp] theorem setJob_pkgHalt : (s.setJob j x).pkgHalt = s.pkgHalt := (rfl)
@[simp] theorem setJob_free : (s.setJob j x).free = s.free := (rfl)
@[simp] theorem setJob_pending : (s.setJob j x).pending = s.pending := (rfl)

end

section
variable (s : State) (g : Nat) (q : Seq)

@[simp] theorem setSeq_regs : (s.setSeq g q).regs = s.regs := (rfl)
@[simp] theorem setSeq_pages : (s.setSeq g q).pages = s.pages := (rfl)
@[simp] theorem setSeq_slots : (s.setSeq g q).slots = s.slots := (rfl)
@[simp] theorem setSeq_busRead : (s.setSeq g q).busRead = s.busRead := (rfl)
@[simp] theorem setSeq_jobs : (s.setSeq g q).jobs = s.jobs := (rfl)
@[simp] theorem setSeq_refs : (s.setSeq g q).refs = s.refs := (rfl)
@[simp] theorem setSeq_lanes : (s.setSeq g q).lanes = s.lanes := (rfl)
@[simp] theorem setSeq_hbm : (s.setSeq g q).hbm = s.hbm := (rfl)
@[simp] theorem setSeq_hostMem : (s.setSeq g q).hostMem = s.hostMem := (rfl)
@[simp] theorem setSeq_time : (s.setSeq g q).time = s.time := (rfl)
@[simp] theorem setSeq_cap : (s.setSeq g q).cap = s.cap := (rfl)
@[simp] theorem setSeq_fns : (s.setSeq g q).fns = s.fns := (rfl)
@[simp] theorem setSeq_access : (s.setSeq g q).access = s.access := (rfl)
@[simp] theorem setSeq_out : (s.setSeq g q).out = s.out := (rfl)
@[simp] theorem setSeq_disp : (s.setSeq g q).disp = s.disp := (rfl)
@[simp] theorem setSeq_theham : (s.setSeq g q).theham = s.theham := (rfl)
@[simp] theorem setSeq_scrub : (s.setSeq g q).scrub = s.scrub := (rfl)
@[simp] theorem setSeq_tap : (s.setSeq g q).tap = s.tap := (rfl)
@[simp] theorem setSeq_dbg : (s.setSeq g q).dbg = s.dbg := (rfl)
@[simp] theorem setSeq_trace : (s.setSeq g q).trace = s.trace := (rfl)
@[simp] theorem setSeq_pwr : (s.setSeq g q).pwr = s.pwr := (rfl)
@[simp] theorem setSeq_pins : (s.setSeq g q).pins = s.pins := (rfl)
@[simp] theorem setSeq_noc : (s.setSeq g q).noc = s.noc := (rfl)
@[simp] theorem setSeq_periph : (s.setSeq g q).periph = s.periph := (rfl)
@[simp] theorem setSeq_allocs : (s.setSeq g q).allocs = s.allocs := (rfl)
@[simp] theorem setSeq_pkgHalt : (s.setSeq g q).pkgHalt = s.pkgHalt := (rfl)
@[simp] theorem setSeq_free : (s.setSeq g q).free = s.free := (rfl)
@[simp] theorem setSeq_pending : (s.setSeq g q).pending = s.pending := (rfl)

end

section
variable (s : State) (cl q : Nat) (x : Mq)

@[simp] theorem setMq_regs : (s.setMq cl q x).regs = s.regs := (rfl)
@[simp] theorem setMq_pages : (s.setMq cl q x).pages = s.pages := (rfl)
@[simp] theorem setMq_slots : (s.setMq cl q x).slots = s.slots := (rfl)
@[simp] theorem setMq_busRead : (s.setMq cl q x).busRead = s.busRead := (rfl)
@[simp] theorem setMq_jobs : (s.setMq cl q x).jobs = s.jobs := (rfl)
@[simp] theorem setMq_refs : (s.setMq cl q x).refs = s.refs := (rfl)
@[simp] theorem setMq_lanes : (s.setMq cl q x).lanes = s.lanes := (rfl)
@[simp] theorem setMq_hbm : (s.setMq cl q x).hbm = s.hbm := (rfl)
@[simp] theorem setMq_hostMem : (s.setMq cl q x).hostMem = s.hostMem := (rfl)
@[simp] theorem setMq_time : (s.setMq cl q x).time = s.time := (rfl)
@[simp] theorem setMq_cap : (s.setMq cl q x).cap = s.cap := (rfl)
@[simp] theorem setMq_fns : (s.setMq cl q x).fns = s.fns := (rfl)
@[simp] theorem setMq_access : (s.setMq cl q x).access = s.access := (rfl)
@[simp] theorem setMq_out : (s.setMq cl q x).out = s.out := (rfl)
@[simp] theorem setMq_disp : (s.setMq cl q x).disp = s.disp := (rfl)
@[simp] theorem setMq_theham : (s.setMq cl q x).theham = s.theham := (rfl)
@[simp] theorem setMq_scrub : (s.setMq cl q x).scrub = s.scrub := (rfl)
@[simp] theorem setMq_tap : (s.setMq cl q x).tap = s.tap := (rfl)
@[simp] theorem setMq_dbg : (s.setMq cl q x).dbg = s.dbg := (rfl)
@[simp] theorem setMq_trace : (s.setMq cl q x).trace = s.trace := (rfl)
@[simp] theorem setMq_pwr : (s.setMq cl q x).pwr = s.pwr := (rfl)
@[simp] theorem setMq_pins : (s.setMq cl q x).pins = s.pins := (rfl)
@[simp] theorem setMq_noc : (s.setMq cl q x).noc = s.noc := (rfl)
@[simp] theorem setMq_periph : (s.setMq cl q x).periph = s.periph := (rfl)
@[simp] theorem setMq_allocs : (s.setMq cl q x).allocs = s.allocs := (rfl)
@[simp] theorem setMq_pkgHalt : (s.setMq cl q x).pkgHalt = s.pkgHalt := (rfl)
@[simp] theorem setMq_free : (s.setMq cl q x).free = s.free := (rfl)
@[simp] theorem setMq_pending : (s.setMq cl q x).pending = s.pending := (rfl)

end

section
variable (s : State) (n : Nat) (x : Lane)

@[simp] theorem setLane_regs : (s.setLane n x).regs = s.regs := (rfl)
@[simp] theorem setLane_pages : (s.setLane n x).pages = s.pages := (rfl)
@[simp] theorem setLane_slots : (s.setLane n x).slots = s.slots := (rfl)
@[simp] theorem setLane_busRead : (s.setLane n x).busRead = s.busRead := (rfl)
@[simp] theorem setLane_fab : (s.setLane n x).fab = s.fab := (rfl)
@[simp] theorem setLane_jobs : (s.setLane n x).jobs = s.jobs := (rfl)
@[simp] theorem setLane_refs : (s.setLane n x).refs = s.refs := (rfl)
@[simp] theorem setLane_hbm : (s.setLane n x).hbm = s.hbm := (rfl)
@[simp] theorem setLane_hostMem : (s.setLane n x).hostMem = s.hostMem := (rfl)
@[simp] theorem setLane_time : (s.setLane n x).time = s.time := (rfl)
@[simp] theorem setLane_cap : (s.setLane n x).cap = s.cap := (rfl)
@[simp] theorem setLane_fns : (s.setLane n x).fns = s.fns := (rfl)
@[simp] theorem setLane_access : (s.setLane n x).access = s.access := (rfl)
@[simp] theorem setLane_out : (s.setLane n x).out = s.out := (rfl)
@[simp] theorem setLane_disp : (s.setLane n x).disp = s.disp := (rfl)
@[simp] theorem setLane_theham : (s.setLane n x).theham = s.theham := (rfl)
@[simp] theorem setLane_scrub : (s.setLane n x).scrub = s.scrub := (rfl)
@[simp] theorem setLane_tap : (s.setLane n x).tap = s.tap := (rfl)
@[simp] theorem setLane_dbg : (s.setLane n x).dbg = s.dbg := (rfl)
@[simp] theorem setLane_trace : (s.setLane n x).trace = s.trace := (rfl)
@[simp] theorem setLane_pwr : (s.setLane n x).pwr = s.pwr := (rfl)
@[simp] theorem setLane_pins : (s.setLane n x).pins = s.pins := (rfl)
@[simp] theorem setLane_noc : (s.setLane n x).noc = s.noc := (rfl)
@[simp] theorem setLane_periph : (s.setLane n x).periph = s.periph := (rfl)
@[simp] theorem setLane_allocs : (s.setLane n x).allocs = s.allocs := (rfl)
@[simp] theorem setLane_pkgHalt : (s.setLane n x).pkgHalt = s.pkgHalt := (rfl)
@[simp] theorem setLane_free : (s.setLane n x).free = s.free := (rfl)
@[simp] theorem setLane_pending : (s.setLane n x).pending = s.pending := (rfl)

end

section
variable (s : State) (n : Nat) (r : Referee)

@[simp] theorem setRef_regs : (s.setRef n r).regs = s.regs := (rfl)
@[simp] theorem setRef_pages : (s.setRef n r).pages = s.pages := (rfl)
@[simp] theorem setRef_slots : (s.setRef n r).slots = s.slots := (rfl)
@[simp] theorem setRef_busRead : (s.setRef n r).busRead = s.busRead := (rfl)
@[simp] theorem setRef_fab : (s.setRef n r).fab = s.fab := (rfl)
@[simp] theorem setRef_jobs : (s.setRef n r).jobs = s.jobs := (rfl)
@[simp] theorem setRef_lanes : (s.setRef n r).lanes = s.lanes := (rfl)
@[simp] theorem setRef_hbm : (s.setRef n r).hbm = s.hbm := (rfl)
@[simp] theorem setRef_hostMem : (s.setRef n r).hostMem = s.hostMem := (rfl)
@[simp] theorem setRef_time : (s.setRef n r).time = s.time := (rfl)
@[simp] theorem setRef_cap : (s.setRef n r).cap = s.cap := (rfl)
@[simp] theorem setRef_fns : (s.setRef n r).fns = s.fns := (rfl)
@[simp] theorem setRef_access : (s.setRef n r).access = s.access := (rfl)
@[simp] theorem setRef_out : (s.setRef n r).out = s.out := (rfl)
@[simp] theorem setRef_disp : (s.setRef n r).disp = s.disp := (rfl)
@[simp] theorem setRef_theham : (s.setRef n r).theham = s.theham := (rfl)
@[simp] theorem setRef_scrub : (s.setRef n r).scrub = s.scrub := (rfl)
@[simp] theorem setRef_tap : (s.setRef n r).tap = s.tap := (rfl)
@[simp] theorem setRef_dbg : (s.setRef n r).dbg = s.dbg := (rfl)
@[simp] theorem setRef_trace : (s.setRef n r).trace = s.trace := (rfl)
@[simp] theorem setRef_pwr : (s.setRef n r).pwr = s.pwr := (rfl)
@[simp] theorem setRef_pins : (s.setRef n r).pins = s.pins := (rfl)
@[simp] theorem setRef_noc : (s.setRef n r).noc = s.noc := (rfl)
@[simp] theorem setRef_periph : (s.setRef n r).periph = s.periph := (rfl)
@[simp] theorem setRef_allocs : (s.setRef n r).allocs = s.allocs := (rfl)
@[simp] theorem setRef_pkgHalt : (s.setRef n r).pkgHalt = s.pkgHalt := (rfl)
@[simp] theorem setRef_free : (s.setRef n r).free = s.free := (rfl)
@[simp] theorem setRef_pending : (s.setRef n r).pending = s.pending := (rfl)

end

section
variable (s : State) (x : Flow)

@[simp] theorem setFlow_regs : (s.setFlow x).regs = s.regs := (rfl)
@[simp] theorem setFlow_pages : (s.setFlow x).pages = s.pages := (rfl)
@[simp] theorem setFlow_slots : (s.setFlow x).slots = s.slots := (rfl)
@[simp] theorem setFlow_busRead : (s.setFlow x).busRead = s.busRead := (rfl)
@[simp] theorem setFlow_fab : (s.setFlow x).fab = s.fab := (rfl)
@[simp] theorem setFlow_jobs : (s.setFlow x).jobs = s.jobs := (rfl)
@[simp] theorem setFlow_refs : (s.setFlow x).refs = s.refs := (rfl)
@[simp] theorem setFlow_lanes : (s.setFlow x).lanes = s.lanes := (rfl)
@[simp] theorem setFlow_hbm : (s.setFlow x).hbm = s.hbm := (rfl)
@[simp] theorem setFlow_hostMem : (s.setFlow x).hostMem = s.hostMem := (rfl)
@[simp] theorem setFlow_time : (s.setFlow x).time = s.time := (rfl)
@[simp] theorem setFlow_cap : (s.setFlow x).cap = s.cap := (rfl)
@[simp] theorem setFlow_fns : (s.setFlow x).fns = s.fns := (rfl)
@[simp] theorem setFlow_access : (s.setFlow x).access = s.access := (rfl)
@[simp] theorem setFlow_out : (s.setFlow x).out = s.out := (rfl)
@[simp] theorem setFlow_theham : (s.setFlow x).theham = s.theham := (rfl)
@[simp] theorem setFlow_scrub : (s.setFlow x).scrub = s.scrub := (rfl)
@[simp] theorem setFlow_tap : (s.setFlow x).tap = s.tap := (rfl)
@[simp] theorem setFlow_dbg : (s.setFlow x).dbg = s.dbg := (rfl)
@[simp] theorem setFlow_trace : (s.setFlow x).trace = s.trace := (rfl)
@[simp] theorem setFlow_pwr : (s.setFlow x).pwr = s.pwr := (rfl)
@[simp] theorem setFlow_pins : (s.setFlow x).pins = s.pins := (rfl)
@[simp] theorem setFlow_noc : (s.setFlow x).noc = s.noc := (rfl)
@[simp] theorem setFlow_periph : (s.setFlow x).periph = s.periph := (rfl)
@[simp] theorem setFlow_allocs : (s.setFlow x).allocs = s.allocs := (rfl)
@[simp] theorem setFlow_pkgHalt : (s.setFlow x).pkgHalt = s.pkgHalt := (rfl)
@[simp] theorem setFlow_free : (s.setFlow x).free = s.free := (rfl)
@[simp] theorem setFlow_pending : (s.setFlow x).pending = s.pending := (rfl)

end

section
variable (s : State) (j p : Nat) (x : Port)

@[simp] theorem setPort_regs : (s.setPort j p x).regs = s.regs := (rfl)
@[simp] theorem setPort_pages : (s.setPort j p x).pages = s.pages := (rfl)
@[simp] theorem setPort_slots : (s.setPort j p x).slots = s.slots := (rfl)
@[simp] theorem setPort_busRead : (s.setPort j p x).busRead = s.busRead := (rfl)
@[simp] theorem setPort_fab : (s.setPort j p x).fab = s.fab := (rfl)
@[simp] theorem setPort_jobs : (s.setPort j p x).jobs = s.jobs := (rfl)
@[simp] theorem setPort_refs : (s.setPort j p x).refs = s.refs := (rfl)
@[simp] theorem setPort_lanes : (s.setPort j p x).lanes = s.lanes := (rfl)
@[simp] theorem setPort_hbm : (s.setPort j p x).hbm = s.hbm := (rfl)
@[simp] theorem setPort_hostMem : (s.setPort j p x).hostMem = s.hostMem := (rfl)
@[simp] theorem setPort_time : (s.setPort j p x).time = s.time := (rfl)
@[simp] theorem setPort_cap : (s.setPort j p x).cap = s.cap := (rfl)
@[simp] theorem setPort_fns : (s.setPort j p x).fns = s.fns := (rfl)
@[simp] theorem setPort_access : (s.setPort j p x).access = s.access := (rfl)
@[simp] theorem setPort_out : (s.setPort j p x).out = s.out := (rfl)
@[simp] theorem setPort_theham : (s.setPort j p x).theham = s.theham := (rfl)
@[simp] theorem setPort_scrub : (s.setPort j p x).scrub = s.scrub := (rfl)
@[simp] theorem setPort_tap : (s.setPort j p x).tap = s.tap := (rfl)
@[simp] theorem setPort_dbg : (s.setPort j p x).dbg = s.dbg := (rfl)
@[simp] theorem setPort_trace : (s.setPort j p x).trace = s.trace := (rfl)
@[simp] theorem setPort_pwr : (s.setPort j p x).pwr = s.pwr := (rfl)
@[simp] theorem setPort_pins : (s.setPort j p x).pins = s.pins := (rfl)
@[simp] theorem setPort_noc : (s.setPort j p x).noc = s.noc := (rfl)
@[simp] theorem setPort_periph : (s.setPort j p x).periph = s.periph := (rfl)
@[simp] theorem setPort_allocs : (s.setPort j p x).allocs = s.allocs := (rfl)
@[simp] theorem setPort_pkgHalt : (s.setPort j p x).pkgHalt = s.pkgHalt := (rfl)
@[simp] theorem setPort_free : (s.setPort j p x).free = s.free := (rfl)
@[simp] theorem setPort_pending : (s.setPort j p x).pending = s.pending := (rfl)

end

section
variable (s : State) (unit : Nat) (xs : List Effect)

@[simp] theorem stage_regs : (s.stage unit xs).regs = s.regs := by
  unfold State.stage
  with_reducible exact ite_regs rfl rfl
@[simp] theorem stage_pages : (s.stage unit xs).pages = s.pages := by
  unfold State.stage
  with_reducible exact ite_pages rfl rfl
@[simp] theorem stage_slots : (s.stage unit xs).slots = s.slots := by
  unfold State.stage
  with_reducible exact ite_slots rfl rfl
@[simp] theorem stage_busRead : (s.stage unit xs).busRead = s.busRead := by
  unfold State.stage
  with_reducible exact ite_busRead rfl rfl
@[simp] theorem stage_jobs : (s.stage unit xs).jobs = s.jobs := by
  unfold State.stage
  with_reducible exact ite_jobs rfl rfl
@[simp] theorem stage_refs : (s.stage unit xs).refs = s.refs := by
  unfold State.stage
  with_reducible exact ite_refs rfl rfl
@[simp] theorem stage_lanes : (s.stage unit xs).lanes = s.lanes := by
  unfold State.stage
  with_reducible exact ite_lanes rfl rfl
@[simp] theorem stage_hbm : (s.stage unit xs).hbm = s.hbm := by
  unfold State.stage
  with_reducible exact ite_hbm rfl rfl
@[simp] theorem stage_hostMem : (s.stage unit xs).hostMem = s.hostMem := by
  unfold State.stage
  with_reducible exact ite_hostMem rfl rfl
@[simp] theorem stage_time : (s.stage unit xs).time = s.time := by
  unfold State.stage
  with_reducible exact ite_time rfl rfl
@[simp] theorem stage_cap : (s.stage unit xs).cap = s.cap := by
  unfold State.stage
  with_reducible exact ite_cap rfl rfl
@[simp] theorem stage_fns : (s.stage unit xs).fns = s.fns := by
  unfold State.stage
  with_reducible exact ite_fns rfl rfl
@[simp] theorem stage_access : (s.stage unit xs).access = s.access := by
  unfold State.stage
  with_reducible exact ite_access rfl rfl
@[simp] theorem stage_out : (s.stage unit xs).out = s.out := by
  unfold State.stage
  with_reducible exact ite_out rfl rfl
@[simp] theorem stage_disp : (s.stage unit xs).disp = s.disp := by
  unfold State.stage
  with_reducible exact ite_disp rfl rfl
@[simp] theorem stage_theham : (s.stage unit xs).theham = s.theham := by
  unfold State.stage
  with_reducible exact ite_theham rfl rfl
@[simp] theorem stage_scrub : (s.stage unit xs).scrub = s.scrub := by
  unfold State.stage
  with_reducible exact ite_scrub rfl rfl
@[simp] theorem stage_tap : (s.stage unit xs).tap = s.tap := by
  unfold State.stage
  with_reducible exact ite_tap rfl rfl
@[simp] theorem stage_dbg : (s.stage unit xs).dbg = s.dbg := by
  unfold State.stage
  with_reducible exact ite_dbg rfl rfl
@[simp] theorem stage_trace : (s.stage unit xs).trace = s.trace := by
  unfold State.stage
  with_reducible exact ite_trace rfl rfl
@[simp] theorem stage_pwr : (s.stage unit xs).pwr = s.pwr := by
  unfold State.stage
  with_reducible exact ite_pwr rfl rfl
@[simp] theorem stage_pins : (s.stage unit xs).pins = s.pins := by
  unfold State.stage
  with_reducible exact ite_pins rfl rfl
@[simp] theorem stage_noc : (s.stage unit xs).noc = s.noc := by
  unfold State.stage
  with_reducible exact ite_noc rfl rfl
@[simp] theorem stage_periph : (s.stage unit xs).periph = s.periph := by
  unfold State.stage
  with_reducible exact ite_periph rfl rfl
@[simp] theorem stage_allocs : (s.stage unit xs).allocs = s.allocs := by
  unfold State.stage
  with_reducible exact ite_allocs rfl rfl
@[simp] theorem stage_pkgHalt : (s.stage unit xs).pkgHalt = s.pkgHalt := by
  unfold State.stage
  with_reducible exact ite_pkgHalt rfl rfl
@[simp] theorem stage_free : (s.stage unit xs).free = s.free := by
  unfold State.stage
  with_reducible exact ite_free rfl rfl
@[simp] theorem stage_pending : (s.stage unit xs).pending = s.pending := by
  unfold State.stage
  with_reducible exact ite_pending rfl rfl

end

section
variable (s : State) (w n : Nat)

@[simp] theorem scoreAdd_regs : (s.scoreAdd w n).regs = s.regs := (rfl)
@[simp] theorem scoreAdd_pages : (s.scoreAdd w n).pages = s.pages := (rfl)
@[simp] theorem scoreAdd_slots : (s.scoreAdd w n).slots = s.slots := (rfl)
@[simp] theorem scoreAdd_busRead : (s.scoreAdd w n).busRead = s.busRead := (rfl)
@[simp] theorem scoreAdd_fab : (s.scoreAdd w n).fab = s.fab := (rfl)
@[simp] theorem scoreAdd_jobs : (s.scoreAdd w n).jobs = s.jobs := (rfl)
@[simp] theorem scoreAdd_refs : (s.scoreAdd w n).refs = s.refs := (rfl)
@[simp] theorem scoreAdd_lanes : (s.scoreAdd w n).lanes = s.lanes := (rfl)
@[simp] theorem scoreAdd_hbm : (s.scoreAdd w n).hbm = s.hbm := (rfl)
@[simp] theorem scoreAdd_hostMem : (s.scoreAdd w n).hostMem = s.hostMem := (rfl)
@[simp] theorem scoreAdd_time : (s.scoreAdd w n).time = s.time := (rfl)
@[simp] theorem scoreAdd_cap : (s.scoreAdd w n).cap = s.cap := (rfl)
@[simp] theorem scoreAdd_fns : (s.scoreAdd w n).fns = s.fns := (rfl)
@[simp] theorem scoreAdd_access : (s.scoreAdd w n).access = s.access := (rfl)
@[simp] theorem scoreAdd_out : (s.scoreAdd w n).out = s.out := (rfl)
@[simp] theorem scoreAdd_disp : (s.scoreAdd w n).disp = s.disp := (rfl)
@[simp] theorem scoreAdd_scrub : (s.scoreAdd w n).scrub = s.scrub := (rfl)
@[simp] theorem scoreAdd_tap : (s.scoreAdd w n).tap = s.tap := (rfl)
@[simp] theorem scoreAdd_dbg : (s.scoreAdd w n).dbg = s.dbg := (rfl)
@[simp] theorem scoreAdd_trace : (s.scoreAdd w n).trace = s.trace := (rfl)
@[simp] theorem scoreAdd_pwr : (s.scoreAdd w n).pwr = s.pwr := (rfl)
@[simp] theorem scoreAdd_pins : (s.scoreAdd w n).pins = s.pins := (rfl)
@[simp] theorem scoreAdd_noc : (s.scoreAdd w n).noc = s.noc := (rfl)
@[simp] theorem scoreAdd_periph : (s.scoreAdd w n).periph = s.periph := (rfl)
@[simp] theorem scoreAdd_allocs : (s.scoreAdd w n).allocs = s.allocs := (rfl)
@[simp] theorem scoreAdd_pkgHalt : (s.scoreAdd w n).pkgHalt = s.pkgHalt := (rfl)
@[simp] theorem scoreAdd_free : (s.scoreAdd w n).free = s.free := (rfl)
@[simp] theorem scoreAdd_pending : (s.scoreAdd w n).pending = s.pending := (rfl)

end

section
variable (s : State) (w : Waiting)

@[simp] theorem await_regs : (s.await w).regs = s.regs := (rfl)
@[simp] theorem await_pages : (s.await w).pages = s.pages := (rfl)
@[simp] theorem await_slots : (s.await w).slots = s.slots := (rfl)
@[simp] theorem await_busRead : (s.await w).busRead = s.busRead := (rfl)
@[simp] theorem await_fab : (s.await w).fab = s.fab := (rfl)
@[simp] theorem await_jobs : (s.await w).jobs = s.jobs := (rfl)
@[simp] theorem await_refs : (s.await w).refs = s.refs := (rfl)
@[simp] theorem await_lanes : (s.await w).lanes = s.lanes := (rfl)
@[simp] theorem await_hbm : (s.await w).hbm = s.hbm := (rfl)
@[simp] theorem await_hostMem : (s.await w).hostMem = s.hostMem := (rfl)
@[simp] theorem await_time : (s.await w).time = s.time := (rfl)
@[simp] theorem await_cap : (s.await w).cap = s.cap := (rfl)
@[simp] theorem await_fns : (s.await w).fns = s.fns := (rfl)
@[simp] theorem await_access : (s.await w).access = s.access := (rfl)
@[simp] theorem await_out : (s.await w).out = s.out := (rfl)
@[simp] theorem await_disp : (s.await w).disp = s.disp := (rfl)
@[simp] theorem await_scrub : (s.await w).scrub = s.scrub := (rfl)
@[simp] theorem await_tap : (s.await w).tap = s.tap := (rfl)
@[simp] theorem await_dbg : (s.await w).dbg = s.dbg := (rfl)
@[simp] theorem await_trace : (s.await w).trace = s.trace := (rfl)
@[simp] theorem await_pwr : (s.await w).pwr = s.pwr := (rfl)
@[simp] theorem await_pins : (s.await w).pins = s.pins := (rfl)
@[simp] theorem await_noc : (s.await w).noc = s.noc := (rfl)
@[simp] theorem await_periph : (s.await w).periph = s.periph := (rfl)
@[simp] theorem await_allocs : (s.await w).allocs = s.allocs := (rfl)
@[simp] theorem await_pkgHalt : (s.await w).pkgHalt = s.pkgHalt := (rfl)
@[simp] theorem await_free : (s.await w).free = s.free := (rfl)
@[simp] theorem await_pending : (s.await w).pending = s.pending := (rfl)

end

section
variable (s : State) (source code job sev : Nat) (detail : List Word)

@[simp] theorem logEvent_regs : (s.logEvent source code job sev detail).regs = s.regs := by unfold State.logEvent; with_reducible rfl
@[simp] theorem logEvent_pages : (s.logEvent source code job sev detail).pages = s.pages := by unfold State.logEvent; with_reducible rfl
@[simp] theorem logEvent_slots : (s.logEvent source code job sev detail).slots = s.slots := by unfold State.logEvent; with_reducible rfl
@[simp] theorem logEvent_busRead : (s.logEvent source code job sev detail).busRead = s.busRead := by unfold State.logEvent; with_reducible rfl
@[simp] theorem logEvent_fab : (s.logEvent source code job sev detail).fab = s.fab := by unfold State.logEvent; with_reducible rfl
@[simp] theorem logEvent_jobs : (s.logEvent source code job sev detail).jobs = s.jobs := by unfold State.logEvent; with_reducible rfl
@[simp] theorem logEvent_refs : (s.logEvent source code job sev detail).refs = s.refs := by unfold State.logEvent; with_reducible rfl
@[simp] theorem logEvent_lanes : (s.logEvent source code job sev detail).lanes = s.lanes := by unfold State.logEvent; with_reducible rfl
@[simp] theorem logEvent_hbm : (s.logEvent source code job sev detail).hbm = s.hbm := by unfold State.logEvent; with_reducible rfl
@[simp] theorem logEvent_hostMem : (s.logEvent source code job sev detail).hostMem = s.hostMem := by unfold State.logEvent; with_reducible rfl
@[simp] theorem logEvent_time : (s.logEvent source code job sev detail).time = s.time := by unfold State.logEvent; with_reducible rfl
@[simp] theorem logEvent_cap : (s.logEvent source code job sev detail).cap = s.cap := by unfold State.logEvent; with_reducible rfl
@[simp] theorem logEvent_fns : (s.logEvent source code job sev detail).fns = s.fns := by unfold State.logEvent; with_reducible rfl
@[simp] theorem logEvent_access : (s.logEvent source code job sev detail).access = s.access := by unfold State.logEvent; with_reducible rfl
@[simp] theorem logEvent_out : (s.logEvent source code job sev detail).out = s.out := by unfold State.logEvent; with_reducible rfl
@[simp] theorem logEvent_disp : (s.logEvent source code job sev detail).disp = s.disp := by unfold State.logEvent; with_reducible rfl
@[simp] theorem logEvent_scrub : (s.logEvent source code job sev detail).scrub = s.scrub := by unfold State.logEvent; with_reducible rfl
@[simp] theorem logEvent_tap : (s.logEvent source code job sev detail).tap = s.tap := by unfold State.logEvent; with_reducible rfl
@[simp] theorem logEvent_dbg : (s.logEvent source code job sev detail).dbg = s.dbg := by unfold State.logEvent; with_reducible rfl
@[simp] theorem logEvent_trace : (s.logEvent source code job sev detail).trace = s.trace := by unfold State.logEvent; with_reducible rfl
@[simp] theorem logEvent_pwr : (s.logEvent source code job sev detail).pwr = s.pwr := by unfold State.logEvent; with_reducible rfl
@[simp] theorem logEvent_pins : (s.logEvent source code job sev detail).pins = s.pins := by unfold State.logEvent; with_reducible rfl
@[simp] theorem logEvent_noc : (s.logEvent source code job sev detail).noc = s.noc := by unfold State.logEvent; with_reducible rfl
@[simp] theorem logEvent_periph : (s.logEvent source code job sev detail).periph = s.periph := by unfold State.logEvent; with_reducible rfl
@[simp] theorem logEvent_allocs : (s.logEvent source code job sev detail).allocs = s.allocs := by unfold State.logEvent; with_reducible rfl
@[simp] theorem logEvent_pkgHalt : (s.logEvent source code job sev detail).pkgHalt = s.pkgHalt := by unfold State.logEvent; with_reducible rfl
@[simp] theorem logEvent_free : (s.logEvent source code job sev detail).free = s.free := by unfold State.logEvent; with_reducible rfl
@[simp] theorem logEvent_pending : (s.logEvent source code job sev detail).pending = s.pending := by unfold State.logEvent; with_reducible rfl

end

section
variable (s : State) (fn vec : Nat)

@[simp] theorem msix_regs : (s.msix fn vec).regs = s.regs := by
  unfold State.msix
  repeat' (first | with_reducible rfl | with_reducible refine ite_regs ?_ ?_ | simp only [setPcieFn_regs, emit_regs] | split)
@[simp] theorem msix_pages : (s.msix fn vec).pages = s.pages := by
  unfold State.msix
  repeat' (first | with_reducible rfl | with_reducible refine ite_pages ?_ ?_ | simp only [setPcieFn_pages, emit_pages] | split)
@[simp] theorem msix_slots : (s.msix fn vec).slots = s.slots := by
  unfold State.msix
  repeat' (first | with_reducible rfl | with_reducible refine ite_slots ?_ ?_ | simp only [setPcieFn_slots, emit_slots] | split)
@[simp] theorem msix_busRead : (s.msix fn vec).busRead = s.busRead := by
  unfold State.msix
  repeat' (first | with_reducible rfl | with_reducible refine ite_busRead ?_ ?_ | simp only [setPcieFn_busRead, emit_busRead] | split)
@[simp] theorem msix_fab : (s.msix fn vec).fab = s.fab := by
  unfold State.msix
  repeat' (first | with_reducible rfl | with_reducible refine ite_fab ?_ ?_ | simp only [setPcieFn_fab, emit_fab] | split)
@[simp] theorem msix_jobs : (s.msix fn vec).jobs = s.jobs := by
  unfold State.msix
  repeat' (first | with_reducible rfl | with_reducible refine ite_jobs ?_ ?_ | simp only [setPcieFn_jobs, emit_jobs] | split)
@[simp] theorem msix_refs : (s.msix fn vec).refs = s.refs := by
  unfold State.msix
  repeat' (first | with_reducible rfl | with_reducible refine ite_refs ?_ ?_ | simp only [setPcieFn_refs, emit_refs] | split)
@[simp] theorem msix_lanes : (s.msix fn vec).lanes = s.lanes := by
  unfold State.msix
  repeat' (first | with_reducible rfl | with_reducible refine ite_lanes ?_ ?_ | simp only [setPcieFn_lanes, emit_lanes] | split)
@[simp] theorem msix_hbm : (s.msix fn vec).hbm = s.hbm := by
  unfold State.msix
  repeat' (first | with_reducible rfl | with_reducible refine ite_hbm ?_ ?_ | simp only [setPcieFn_hbm, emit_hbm] | split)
@[simp] theorem msix_hostMem : (s.msix fn vec).hostMem = s.hostMem := by
  unfold State.msix
  repeat' (first | with_reducible rfl | with_reducible refine ite_hostMem ?_ ?_ | simp only [setPcieFn_hostMem, emit_hostMem] | split)
@[simp] theorem msix_time : (s.msix fn vec).time = s.time := by
  unfold State.msix
  repeat' (first | with_reducible rfl | with_reducible refine ite_time ?_ ?_ | simp only [setPcieFn_time, emit_time] | split)
@[simp] theorem msix_cap : (s.msix fn vec).cap = s.cap := by
  unfold State.msix
  repeat' (first | with_reducible rfl | with_reducible refine ite_cap ?_ ?_ | simp only [setPcieFn_cap, emit_cap] | split)
@[simp] theorem msix_access : (s.msix fn vec).access = s.access := by
  unfold State.msix
  repeat' (first | with_reducible rfl | with_reducible refine ite_access ?_ ?_ | simp only [setPcieFn_access, emit_access] | split)
@[simp] theorem msix_disp : (s.msix fn vec).disp = s.disp := by
  unfold State.msix
  repeat' (first | with_reducible rfl | with_reducible refine ite_disp ?_ ?_ | simp only [setPcieFn_disp, emit_disp] | split)
@[simp] theorem msix_theham : (s.msix fn vec).theham = s.theham := by
  unfold State.msix
  repeat' (first | with_reducible rfl | with_reducible refine ite_theham ?_ ?_ | simp only [setPcieFn_theham, emit_theham] | split)
@[simp] theorem msix_scrub : (s.msix fn vec).scrub = s.scrub := by
  unfold State.msix
  repeat' (first | with_reducible rfl | with_reducible refine ite_scrub ?_ ?_ | simp only [setPcieFn_scrub, emit_scrub] | split)
@[simp] theorem msix_tap : (s.msix fn vec).tap = s.tap := by
  unfold State.msix
  repeat' (first | with_reducible rfl | with_reducible refine ite_tap ?_ ?_ | simp only [setPcieFn_tap, emit_tap] | split)
@[simp] theorem msix_dbg : (s.msix fn vec).dbg = s.dbg := by
  unfold State.msix
  repeat' (first | with_reducible rfl | with_reducible refine ite_dbg ?_ ?_ | simp only [setPcieFn_dbg, emit_dbg] | split)
@[simp] theorem msix_trace : (s.msix fn vec).trace = s.trace := by
  unfold State.msix
  repeat' (first | with_reducible rfl | with_reducible refine ite_trace ?_ ?_ | simp only [setPcieFn_trace, emit_trace] | split)
@[simp] theorem msix_pwr : (s.msix fn vec).pwr = s.pwr := by
  unfold State.msix
  repeat' (first | with_reducible rfl | with_reducible refine ite_pwr ?_ ?_ | simp only [setPcieFn_pwr, emit_pwr] | split)
@[simp] theorem msix_pins : (s.msix fn vec).pins = s.pins := by
  unfold State.msix
  repeat' (first | with_reducible rfl | with_reducible refine ite_pins ?_ ?_ | simp only [setPcieFn_pins, emit_pins] | split)
@[simp] theorem msix_noc : (s.msix fn vec).noc = s.noc := by
  unfold State.msix
  repeat' (first | with_reducible rfl | with_reducible refine ite_noc ?_ ?_ | simp only [setPcieFn_noc, emit_noc] | split)
@[simp] theorem msix_periph : (s.msix fn vec).periph = s.periph := by
  unfold State.msix
  repeat' (first | with_reducible rfl | with_reducible refine ite_periph ?_ ?_ | simp only [setPcieFn_periph, emit_periph] | split)
@[simp] theorem msix_allocs : (s.msix fn vec).allocs = s.allocs := by
  unfold State.msix
  repeat' (first | with_reducible rfl | with_reducible refine ite_allocs ?_ ?_ | simp only [setPcieFn_allocs, emit_allocs] | split)
@[simp] theorem msix_pkgHalt : (s.msix fn vec).pkgHalt = s.pkgHalt := by
  unfold State.msix
  repeat' (first | with_reducible rfl | with_reducible refine ite_pkgHalt ?_ ?_ | simp only [setPcieFn_pkgHalt, emit_pkgHalt] | split)
@[simp] theorem msix_free : (s.msix fn vec).free = s.free := by
  unfold State.msix
  repeat' (first | with_reducible rfl | with_reducible refine ite_free ?_ ?_ | simp only [setPcieFn_free, emit_free] | split)
@[simp] theorem msix_pending : (s.msix fn vec).pending = s.pending := by
  unfold State.msix
  repeat' (first | with_reducible rfl | with_reducible refine ite_pending ?_ ?_ | simp only [setPcieFn_pending, emit_pending] | split)

end

section
variable (s : State) (c : UserCore) (source prio : Nat)

@[simp] theorem setCore_regs : (s.setCore c).regs = s.regs := (rfl)
@[simp] theorem setCore_pages : (s.setCore c).pages = s.pages := (rfl)
@[simp] theorem setCore_slots : (s.setCore c).slots = s.slots := (rfl)
@[simp] theorem setCore_busRead : (s.setCore c).busRead = s.busRead := (rfl)
@[simp] theorem setCore_fab : (s.setCore c).fab = s.fab := (rfl)
@[simp] theorem setCore_jobs : (s.setCore c).jobs = s.jobs := (rfl)
@[simp] theorem setCore_refs : (s.setCore c).refs = s.refs := (rfl)
@[simp] theorem setCore_lanes : (s.setCore c).lanes = s.lanes := (rfl)
@[simp] theorem setCore_hbm : (s.setCore c).hbm = s.hbm := (rfl)
@[simp] theorem setCore_hostMem : (s.setCore c).hostMem = s.hostMem := (rfl)
@[simp] theorem setCore_time : (s.setCore c).time = s.time := (rfl)
@[simp] theorem setCore_cap : (s.setCore c).cap = s.cap := (rfl)
@[simp] theorem setCore_fns : (s.setCore c).fns = s.fns := (rfl)
@[simp] theorem setCore_access : (s.setCore c).access = s.access := (rfl)
@[simp] theorem setCore_out : (s.setCore c).out = s.out := (rfl)
@[simp] theorem setCore_disp : (s.setCore c).disp = s.disp := (rfl)
@[simp] theorem setCore_theham : (s.setCore c).theham = s.theham := (rfl)
@[simp] theorem setCore_scrub : (s.setCore c).scrub = s.scrub := (rfl)
@[simp] theorem setCore_tap : (s.setCore c).tap = s.tap := (rfl)
@[simp] theorem setCore_trace : (s.setCore c).trace = s.trace := (rfl)
@[simp] theorem setCore_pwr : (s.setCore c).pwr = s.pwr := (rfl)
@[simp] theorem setCore_pins : (s.setCore c).pins = s.pins := (rfl)
@[simp] theorem setCore_noc : (s.setCore c).noc = s.noc := (rfl)
@[simp] theorem setCore_periph : (s.setCore c).periph = s.periph := (rfl)
@[simp] theorem setCore_allocs : (s.setCore c).allocs = s.allocs := (rfl)
@[simp] theorem setCore_pkgHalt : (s.setCore c).pkgHalt = s.pkgHalt := (rfl)
@[simp] theorem setCore_free : (s.setCore c).free = s.free := (rfl)
@[simp] theorem setCore_pending : (s.setCore c).pending = s.pending := (rfl)

@[simp] theorem ucInterrupt_regs : (s.ucInterrupt source prio).regs = s.regs := by
  unfold State.ucInterrupt; with_reducible exact ite_regs (setCore_regs ..) (emit_regs ..)
@[simp] theorem ucInterrupt_pages : (s.ucInterrupt source prio).pages = s.pages := by
  unfold State.ucInterrupt; with_reducible exact ite_pages (setCore_pages ..) (emit_pages ..)
@[simp] theorem ucInterrupt_slots : (s.ucInterrupt source prio).slots = s.slots := by
  unfold State.ucInterrupt; with_reducible exact ite_slots (setCore_slots ..) (emit_slots ..)
@[simp] theorem ucInterrupt_busRead : (s.ucInterrupt source prio).busRead = s.busRead := by
  unfold State.ucInterrupt; with_reducible exact ite_busRead (setCore_busRead ..) (emit_busRead ..)
@[simp] theorem ucInterrupt_fab : (s.ucInterrupt source prio).fab = s.fab := by
  unfold State.ucInterrupt; with_reducible exact ite_fab (setCore_fab ..) (emit_fab ..)
@[simp] theorem ucInterrupt_jobs : (s.ucInterrupt source prio).jobs = s.jobs := by
  unfold State.ucInterrupt; with_reducible exact ite_jobs (setCore_jobs ..) (emit_jobs ..)
@[simp] theorem ucInterrupt_refs : (s.ucInterrupt source prio).refs = s.refs := by
  unfold State.ucInterrupt; with_reducible exact ite_refs (setCore_refs ..) (emit_refs ..)
@[simp] theorem ucInterrupt_lanes : (s.ucInterrupt source prio).lanes = s.lanes := by
  unfold State.ucInterrupt; with_reducible exact ite_lanes (setCore_lanes ..) (emit_lanes ..)
@[simp] theorem ucInterrupt_hbm : (s.ucInterrupt source prio).hbm = s.hbm := by
  unfold State.ucInterrupt; with_reducible exact ite_hbm (setCore_hbm ..) (emit_hbm ..)
@[simp] theorem ucInterrupt_hostMem : (s.ucInterrupt source prio).hostMem = s.hostMem := by
  unfold State.ucInterrupt; with_reducible exact ite_hostMem (setCore_hostMem ..) (emit_hostMem ..)
@[simp] theorem ucInterrupt_time : (s.ucInterrupt source prio).time = s.time := by
  unfold State.ucInterrupt; with_reducible exact ite_time (setCore_time ..) (emit_time ..)
@[simp] theorem ucInterrupt_cap : (s.ucInterrupt source prio).cap = s.cap := by
  unfold State.ucInterrupt; with_reducible exact ite_cap (setCore_cap ..) (emit_cap ..)
@[simp] theorem ucInterrupt_fns : (s.ucInterrupt source prio).fns = s.fns := by
  unfold State.ucInterrupt; with_reducible exact ite_fns (setCore_fns ..) (emit_fns ..)
@[simp] theorem ucInterrupt_access : (s.ucInterrupt source prio).access = s.access := by
  unfold State.ucInterrupt; with_reducible exact ite_access (setCore_access ..) (emit_access ..)
@[simp] theorem ucInterrupt_disp : (s.ucInterrupt source prio).disp = s.disp := by
  unfold State.ucInterrupt; with_reducible exact ite_disp (setCore_disp ..) (emit_disp ..)
@[simp] theorem ucInterrupt_theham : (s.ucInterrupt source prio).theham = s.theham := by
  unfold State.ucInterrupt; with_reducible exact ite_theham (setCore_theham ..) (emit_theham ..)
@[simp] theorem ucInterrupt_scrub : (s.ucInterrupt source prio).scrub = s.scrub := by
  unfold State.ucInterrupt; with_reducible exact ite_scrub (setCore_scrub ..) (emit_scrub ..)
@[simp] theorem ucInterrupt_tap : (s.ucInterrupt source prio).tap = s.tap := by
  unfold State.ucInterrupt; with_reducible exact ite_tap (setCore_tap ..) (emit_tap ..)
@[simp] theorem ucInterrupt_trace : (s.ucInterrupt source prio).trace = s.trace := by
  unfold State.ucInterrupt; with_reducible exact ite_trace (setCore_trace ..) (emit_trace ..)
@[simp] theorem ucInterrupt_pwr : (s.ucInterrupt source prio).pwr = s.pwr := by
  unfold State.ucInterrupt; with_reducible exact ite_pwr (setCore_pwr ..) (emit_pwr ..)
@[simp] theorem ucInterrupt_pins : (s.ucInterrupt source prio).pins = s.pins := by
  unfold State.ucInterrupt; with_reducible exact ite_pins (setCore_pins ..) (emit_pins ..)
@[simp] theorem ucInterrupt_noc : (s.ucInterrupt source prio).noc = s.noc := by
  unfold State.ucInterrupt; with_reducible exact ite_noc (setCore_noc ..) (emit_noc ..)
@[simp] theorem ucInterrupt_periph : (s.ucInterrupt source prio).periph = s.periph := by
  unfold State.ucInterrupt; with_reducible exact ite_periph (setCore_periph ..) (emit_periph ..)
@[simp] theorem ucInterrupt_allocs : (s.ucInterrupt source prio).allocs = s.allocs := by
  unfold State.ucInterrupt; with_reducible exact ite_allocs (setCore_allocs ..) (emit_allocs ..)
@[simp] theorem ucInterrupt_pkgHalt : (s.ucInterrupt source prio).pkgHalt = s.pkgHalt := by
  unfold State.ucInterrupt; with_reducible exact ite_pkgHalt (setCore_pkgHalt ..) (emit_pkgHalt ..)
@[simp] theorem ucInterrupt_free : (s.ucInterrupt source prio).free = s.free := by
  unfold State.ucInterrupt; with_reducible exact ite_free (setCore_free ..) (emit_free ..)
@[simp] theorem ucInterrupt_pending : (s.ucInterrupt source prio).pending = s.pending := by
  unfold State.ucInterrupt; with_reducible exact ite_pending (setCore_pending ..) (emit_pending ..)

end

section
variable (s : State) (source code job sev : Nat) (detail : List Word)

@[simp] theorem raiseEvent_pages : (s.raiseEvent source code job sev detail).pages = s.pages := by
  unfold State.raiseEvent
  repeat' (first | with_reducible rfl | with_reducible refine ite_pages ?_ ?_ | simp only [logEvent_pages, setFlag_pages, msix_pages, ucInterrupt_pages] | split)
@[simp] theorem raiseEvent_slots : (s.raiseEvent source code job sev detail).slots = s.slots := by
  unfold State.raiseEvent
  repeat' (first | with_reducible rfl | with_reducible refine ite_slots ?_ ?_ | simp only [logEvent_slots, setFlag_slots, msix_slots, ucInterrupt_slots] | split)
@[simp] theorem raiseEvent_busRead : (s.raiseEvent source code job sev detail).busRead = s.busRead := by
  unfold State.raiseEvent
  repeat' (first | with_reducible rfl | with_reducible refine ite_busRead ?_ ?_ | simp only [logEvent_busRead, setFlag_busRead, msix_busRead, ucInterrupt_busRead] | split)
@[simp] theorem raiseEvent_fab : (s.raiseEvent source code job sev detail).fab = s.fab := by
  unfold State.raiseEvent
  repeat' (first | with_reducible rfl | with_reducible refine ite_fab ?_ ?_ | simp only [logEvent_fab, setFlag_fab, msix_fab, ucInterrupt_fab] | split)
@[simp] theorem raiseEvent_jobs : (s.raiseEvent source code job sev detail).jobs = s.jobs := by
  unfold State.raiseEvent
  repeat' (first | with_reducible rfl | with_reducible refine ite_jobs ?_ ?_ | simp only [logEvent_jobs, setFlag_jobs, msix_jobs, ucInterrupt_jobs] | split)
@[simp] theorem raiseEvent_refs : (s.raiseEvent source code job sev detail).refs = s.refs := by
  unfold State.raiseEvent
  repeat' (first | with_reducible rfl | with_reducible refine ite_refs ?_ ?_ | simp only [logEvent_refs, setFlag_refs, msix_refs, ucInterrupt_refs] | split)
@[simp] theorem raiseEvent_lanes : (s.raiseEvent source code job sev detail).lanes = s.lanes := by
  unfold State.raiseEvent
  repeat' (first | with_reducible rfl | with_reducible refine ite_lanes ?_ ?_ | simp only [logEvent_lanes, setFlag_lanes, msix_lanes, ucInterrupt_lanes] | split)
@[simp] theorem raiseEvent_hbm : (s.raiseEvent source code job sev detail).hbm = s.hbm := by
  unfold State.raiseEvent
  repeat' (first | with_reducible rfl | with_reducible refine ite_hbm ?_ ?_ | simp only [logEvent_hbm, setFlag_hbm, msix_hbm, ucInterrupt_hbm] | split)
@[simp] theorem raiseEvent_hostMem : (s.raiseEvent source code job sev detail).hostMem = s.hostMem := by
  unfold State.raiseEvent
  repeat' (first | with_reducible rfl | with_reducible refine ite_hostMem ?_ ?_ | simp only [logEvent_hostMem, setFlag_hostMem, msix_hostMem, ucInterrupt_hostMem] | split)
@[simp] theorem raiseEvent_time : (s.raiseEvent source code job sev detail).time = s.time := by
  unfold State.raiseEvent
  repeat' (first | with_reducible rfl | with_reducible refine ite_time ?_ ?_ | simp only [logEvent_time, setFlag_time, msix_time, ucInterrupt_time] | split)
@[simp] theorem raiseEvent_cap : (s.raiseEvent source code job sev detail).cap = s.cap := by
  unfold State.raiseEvent
  repeat' (first | with_reducible rfl | with_reducible refine ite_cap ?_ ?_ | simp only [logEvent_cap, setFlag_cap, msix_cap, ucInterrupt_cap] | split)
@[simp] theorem raiseEvent_access : (s.raiseEvent source code job sev detail).access = s.access := by
  unfold State.raiseEvent
  repeat' (first | with_reducible rfl | with_reducible refine ite_access ?_ ?_ | simp only [logEvent_access, setFlag_access, msix_access, ucInterrupt_access] | split)
@[simp] theorem raiseEvent_disp : (s.raiseEvent source code job sev detail).disp = s.disp := by
  unfold State.raiseEvent
  repeat' (first | with_reducible rfl | with_reducible refine ite_disp ?_ ?_ | simp only [logEvent_disp, setFlag_disp, msix_disp, ucInterrupt_disp] | split)
@[simp] theorem raiseEvent_scrub : (s.raiseEvent source code job sev detail).scrub = s.scrub := by
  unfold State.raiseEvent
  repeat' (first | with_reducible rfl | with_reducible refine ite_scrub ?_ ?_ | simp only [logEvent_scrub, setFlag_scrub, msix_scrub, ucInterrupt_scrub] | split)
@[simp] theorem raiseEvent_tap : (s.raiseEvent source code job sev detail).tap = s.tap := by
  unfold State.raiseEvent
  repeat' (first | with_reducible rfl | with_reducible refine ite_tap ?_ ?_ | simp only [logEvent_tap, setFlag_tap, msix_tap, ucInterrupt_tap] | split)
@[simp] theorem raiseEvent_trace : (s.raiseEvent source code job sev detail).trace = s.trace := by
  unfold State.raiseEvent
  repeat' (first | with_reducible rfl | with_reducible refine ite_trace ?_ ?_ | simp only [logEvent_trace, setFlag_trace, msix_trace, ucInterrupt_trace] | split)
@[simp] theorem raiseEvent_pwr : (s.raiseEvent source code job sev detail).pwr = s.pwr := by
  unfold State.raiseEvent
  repeat' (first | with_reducible rfl | with_reducible refine ite_pwr ?_ ?_ | simp only [logEvent_pwr, setFlag_pwr, msix_pwr, ucInterrupt_pwr] | split)
@[simp] theorem raiseEvent_pins : (s.raiseEvent source code job sev detail).pins = s.pins := by
  unfold State.raiseEvent
  repeat' (first | with_reducible rfl | with_reducible refine ite_pins ?_ ?_ | simp only [logEvent_pins, setFlag_pins, msix_pins, ucInterrupt_pins] | split)
@[simp] theorem raiseEvent_noc : (s.raiseEvent source code job sev detail).noc = s.noc := by
  unfold State.raiseEvent
  repeat' (first | with_reducible rfl | with_reducible refine ite_noc ?_ ?_ | simp only [logEvent_noc, setFlag_noc, msix_noc, ucInterrupt_noc] | split)
@[simp] theorem raiseEvent_periph : (s.raiseEvent source code job sev detail).periph = s.periph := by
  unfold State.raiseEvent
  repeat' (first | with_reducible rfl | with_reducible refine ite_periph ?_ ?_ | simp only [logEvent_periph, setFlag_periph, msix_periph, ucInterrupt_periph] | split)
@[simp] theorem raiseEvent_allocs : (s.raiseEvent source code job sev detail).allocs = s.allocs := by
  unfold State.raiseEvent
  repeat' (first | with_reducible rfl | with_reducible refine ite_allocs ?_ ?_ | simp only [logEvent_allocs, setFlag_allocs, msix_allocs, ucInterrupt_allocs] | split)
@[simp] theorem raiseEvent_pkgHalt : (s.raiseEvent source code job sev detail).pkgHalt = s.pkgHalt := by
  unfold State.raiseEvent
  repeat' (first | with_reducible rfl | with_reducible refine ite_pkgHalt ?_ ?_ | simp only [logEvent_pkgHalt, setFlag_pkgHalt, msix_pkgHalt, ucInterrupt_pkgHalt] | split)
@[simp] theorem raiseEvent_free : (s.raiseEvent source code job sev detail).free = s.free := by
  unfold State.raiseEvent
  repeat' (first | with_reducible rfl | with_reducible refine ite_free ?_ ?_ | simp only [logEvent_free, setFlag_free, msix_free, ucInterrupt_free] | split)
@[simp] theorem raiseEvent_pending : (s.raiseEvent source code job sev detail).pending = s.pending := by
  unfold State.raiseEvent
  repeat' (first | with_reducible rfl | with_reducible refine ite_pending ?_ ?_ | simp only [logEvent_pending, setFlag_pending, msix_pending, ucInterrupt_pending] | split)

end

section
variable (s : State) (source code job : Nat) (detail : List Word)

@[simp] theorem event_pages : (s.event source code job detail).pages = s.pages := raiseEvent_pages ..
@[simp] theorem event_slots : (s.event source code job detail).slots = s.slots := raiseEvent_slots ..
@[simp] theorem event_busRead : (s.event source code job detail).busRead = s.busRead := raiseEvent_busRead ..
@[simp] theorem event_fab : (s.event source code job detail).fab = s.fab := raiseEvent_fab ..
@[simp] theorem event_jobs : (s.event source code job detail).jobs = s.jobs := raiseEvent_jobs ..
@[simp] theorem event_refs : (s.event source code job detail).refs = s.refs := raiseEvent_refs ..
@[simp] theorem event_lanes : (s.event source code job detail).lanes = s.lanes := raiseEvent_lanes ..
@[simp] theorem event_hbm : (s.event source code job detail).hbm = s.hbm := raiseEvent_hbm ..
@[simp] theorem event_hostMem : (s.event source code job detail).hostMem = s.hostMem := raiseEvent_hostMem ..
@[simp] theorem event_time : (s.event source code job detail).time = s.time := raiseEvent_time ..
@[simp] theorem event_cap : (s.event source code job detail).cap = s.cap := raiseEvent_cap ..
@[simp] theorem event_access : (s.event source code job detail).access = s.access := raiseEvent_access ..
@[simp] theorem event_disp : (s.event source code job detail).disp = s.disp := raiseEvent_disp ..
@[simp] theorem event_scrub : (s.event source code job detail).scrub = s.scrub := raiseEvent_scrub ..
@[simp] theorem event_tap : (s.event source code job detail).tap = s.tap := raiseEvent_tap ..
@[simp] theorem event_trace : (s.event source code job detail).trace = s.trace := raiseEvent_trace ..
@[simp] theorem event_pwr : (s.event source code job detail).pwr = s.pwr := raiseEvent_pwr ..
@[simp] theorem event_pins : (s.event source code job detail).pins = s.pins := raiseEvent_pins ..
@[simp] theorem event_noc : (s.event source code job detail).noc = s.noc := raiseEvent_noc ..
@[simp] theorem event_periph : (s.event source code job detail).periph = s.periph := raiseEvent_periph ..
@[simp] theorem event_allocs : (s.event source code job detail).allocs = s.allocs := raiseEvent_allocs ..
@[simp] theorem event_pkgHalt : (s.event source code job detail).pkgHalt = s.pkgHalt := raiseEvent_pkgHalt ..
@[simp] theorem event_free : (s.event source code job detail).free = s.free := raiseEvent_free ..
@[simp] theorem event_pending : (s.event source code job detail).pending = s.pending := raiseEvent_pending ..

end

section
variable (s : State) (page bit : Nat)

@[simp] theorem raiseIrq_pages : (s.raiseIrq page bit).pages = s.pages := by
  unfold State.raiseIrq
  repeat' (first | with_reducible rfl | with_reducible refine ite_pages ?_ ?_ | simp only [setFlag_pages, event_pages] | split)
@[simp] theorem raiseIrq_slots : (s.raiseIrq page bit).slots = s.slots := by
  unfold State.raiseIrq
  repeat' (first | with_reducible rfl | with_reducible refine ite_slots ?_ ?_ | simp only [setFlag_slots, event_slots] | split)
@[simp] theorem raiseIrq_busRead : (s.raiseIrq page bit).busRead = s.busRead := by
  unfold State.raiseIrq
  repeat' (first | with_reducible rfl | with_reducible refine ite_busRead ?_ ?_ | simp only [setFlag_busRead, event_busRead] | split)
@[simp] theorem raiseIrq_fab : (s.raiseIrq page bit).fab = s.fab := by
  unfold State.raiseIrq
  repeat' (first | with_reducible rfl | with_reducible refine ite_fab ?_ ?_ | simp only [setFlag_fab, event_fab] | split)
@[simp] theorem raiseIrq_jobs : (s.raiseIrq page bit).jobs = s.jobs := by
  unfold State.raiseIrq
  repeat' (first | with_reducible rfl | with_reducible refine ite_jobs ?_ ?_ | simp only [setFlag_jobs, event_jobs] | split)
@[simp] theorem raiseIrq_refs : (s.raiseIrq page bit).refs = s.refs := by
  unfold State.raiseIrq
  repeat' (first | with_reducible rfl | with_reducible refine ite_refs ?_ ?_ | simp only [setFlag_refs, event_refs] | split)
@[simp] theorem raiseIrq_lanes : (s.raiseIrq page bit).lanes = s.lanes := by
  unfold State.raiseIrq
  repeat' (first | with_reducible rfl | with_reducible refine ite_lanes ?_ ?_ | simp only [setFlag_lanes, event_lanes] | split)
@[simp] theorem raiseIrq_hbm : (s.raiseIrq page bit).hbm = s.hbm := by
  unfold State.raiseIrq
  repeat' (first | with_reducible rfl | with_reducible refine ite_hbm ?_ ?_ | simp only [setFlag_hbm, event_hbm] | split)
@[simp] theorem raiseIrq_hostMem : (s.raiseIrq page bit).hostMem = s.hostMem := by
  unfold State.raiseIrq
  repeat' (first | with_reducible rfl | with_reducible refine ite_hostMem ?_ ?_ | simp only [setFlag_hostMem, event_hostMem] | split)
@[simp] theorem raiseIrq_time : (s.raiseIrq page bit).time = s.time := by
  unfold State.raiseIrq
  repeat' (first | with_reducible rfl | with_reducible refine ite_time ?_ ?_ | simp only [setFlag_time, event_time] | split)
@[simp] theorem raiseIrq_cap : (s.raiseIrq page bit).cap = s.cap := by
  unfold State.raiseIrq
  repeat' (first | with_reducible rfl | with_reducible refine ite_cap ?_ ?_ | simp only [setFlag_cap, event_cap] | split)
@[simp] theorem raiseIrq_access : (s.raiseIrq page bit).access = s.access := by
  unfold State.raiseIrq
  repeat' (first | with_reducible rfl | with_reducible refine ite_access ?_ ?_ | simp only [setFlag_access, event_access] | split)
@[simp] theorem raiseIrq_disp : (s.raiseIrq page bit).disp = s.disp := by
  unfold State.raiseIrq
  repeat' (first | with_reducible rfl | with_reducible refine ite_disp ?_ ?_ | simp only [setFlag_disp, event_disp] | split)
@[simp] theorem raiseIrq_scrub : (s.raiseIrq page bit).scrub = s.scrub := by
  unfold State.raiseIrq
  repeat' (first | with_reducible rfl | with_reducible refine ite_scrub ?_ ?_ | simp only [setFlag_scrub, event_scrub] | split)
@[simp] theorem raiseIrq_tap : (s.raiseIrq page bit).tap = s.tap := by
  unfold State.raiseIrq
  repeat' (first | with_reducible rfl | with_reducible refine ite_tap ?_ ?_ | simp only [setFlag_tap, event_tap] | split)
@[simp] theorem raiseIrq_trace : (s.raiseIrq page bit).trace = s.trace := by
  unfold State.raiseIrq
  repeat' (first | with_reducible rfl | with_reducible refine ite_trace ?_ ?_ | simp only [setFlag_trace, event_trace] | split)
@[simp] theorem raiseIrq_pwr : (s.raiseIrq page bit).pwr = s.pwr := by
  unfold State.raiseIrq
  repeat' (first | with_reducible rfl | with_reducible refine ite_pwr ?_ ?_ | simp only [setFlag_pwr, event_pwr] | split)
@[simp] theorem raiseIrq_pins : (s.raiseIrq page bit).pins = s.pins := by
  unfold State.raiseIrq
  repeat' (first | with_reducible rfl | with_reducible refine ite_pins ?_ ?_ | simp only [setFlag_pins, event_pins] | split)
@[simp] theorem raiseIrq_noc : (s.raiseIrq page bit).noc = s.noc := by
  unfold State.raiseIrq
  repeat' (first | with_reducible rfl | with_reducible refine ite_noc ?_ ?_ | simp only [setFlag_noc, event_noc] | split)
@[simp] theorem raiseIrq_periph : (s.raiseIrq page bit).periph = s.periph := by
  unfold State.raiseIrq
  repeat' (first | with_reducible rfl | with_reducible refine ite_periph ?_ ?_ | simp only [setFlag_periph, event_periph] | split)
@[simp] theorem raiseIrq_allocs : (s.raiseIrq page bit).allocs = s.allocs := by
  unfold State.raiseIrq
  repeat' (first | with_reducible rfl | with_reducible refine ite_allocs ?_ ?_ | simp only [setFlag_allocs, event_allocs] | split)
@[simp] theorem raiseIrq_pkgHalt : (s.raiseIrq page bit).pkgHalt = s.pkgHalt := by
  unfold State.raiseIrq
  repeat' (first | with_reducible rfl | with_reducible refine ite_pkgHalt ?_ ?_ | simp only [setFlag_pkgHalt, event_pkgHalt] | split)
@[simp] theorem raiseIrq_free : (s.raiseIrq page bit).free = s.free := by
  unfold State.raiseIrq
  repeat' (first | with_reducible rfl | with_reducible refine ite_free ?_ ?_ | simp only [setFlag_free, event_free] | split)
@[simp] theorem raiseIrq_pending : (s.raiseIrq page bit).pending = s.pending := by
  unfold State.raiseIrq
  repeat' (first | with_reducible rfl | with_reducible refine ite_pending ?_ ?_ | simp only [setFlag_pending, event_pending] | split)

end

section
variable (s : State) (page code cls vf off : Nat)

@[simp] theorem pgErrRaw_pages : (s.pgErrRaw page code cls vf off).pages = s.pages := by
  unfold State.pgErrRaw
  repeat' (first | with_reducible rfl | with_reducible refine ite_pages ?_ ?_ | simp only [setFlag_pages, setFld_pages, setReg_pages, raiseIrq_pages] | split)
@[simp] theorem pgErrRaw_slots : (s.pgErrRaw page code cls vf off).slots = s.slots := by
  unfold State.pgErrRaw
  repeat' (first | with_reducible rfl | with_reducible refine ite_slots ?_ ?_ | simp only [setFlag_slots, setFld_slots, setReg_slots, raiseIrq_slots] | split)
@[simp] theorem pgErrRaw_busRead : (s.pgErrRaw page code cls vf off).busRead = s.busRead := by
  unfold State.pgErrRaw
  repeat' (first | with_reducible rfl | with_reducible refine ite_busRead ?_ ?_ | simp only [setFlag_busRead, setFld_busRead, setReg_busRead, raiseIrq_busRead] | split)
@[simp] theorem pgErrRaw_fab : (s.pgErrRaw page code cls vf off).fab = s.fab := by
  unfold State.pgErrRaw
  repeat' (first | with_reducible rfl | with_reducible refine ite_fab ?_ ?_ | simp only [setFlag_fab, setFld_fab, setReg_fab, raiseIrq_fab] | split)
@[simp] theorem pgErrRaw_jobs : (s.pgErrRaw page code cls vf off).jobs = s.jobs := by
  unfold State.pgErrRaw
  repeat' (first | with_reducible rfl | with_reducible refine ite_jobs ?_ ?_ | simp only [setFlag_jobs, setFld_jobs, setReg_jobs, raiseIrq_jobs] | split)
@[simp] theorem pgErrRaw_refs : (s.pgErrRaw page code cls vf off).refs = s.refs := by
  unfold State.pgErrRaw
  repeat' (first | with_reducible rfl | with_reducible refine ite_refs ?_ ?_ | simp only [setFlag_refs, setFld_refs, setReg_refs, raiseIrq_refs] | split)
@[simp] theorem pgErrRaw_lanes : (s.pgErrRaw page code cls vf off).lanes = s.lanes := by
  unfold State.pgErrRaw
  repeat' (first | with_reducible rfl | with_reducible refine ite_lanes ?_ ?_ | simp only [setFlag_lanes, setFld_lanes, setReg_lanes, raiseIrq_lanes] | split)
@[simp] theorem pgErrRaw_hbm : (s.pgErrRaw page code cls vf off).hbm = s.hbm := by
  unfold State.pgErrRaw
  repeat' (first | with_reducible rfl | with_reducible refine ite_hbm ?_ ?_ | simp only [setFlag_hbm, setFld_hbm, setReg_hbm, raiseIrq_hbm] | split)
@[simp] theorem pgErrRaw_hostMem : (s.pgErrRaw page code cls vf off).hostMem = s.hostMem := by
  unfold State.pgErrRaw
  repeat' (first | with_reducible rfl | with_reducible refine ite_hostMem ?_ ?_ | simp only [setFlag_hostMem, setFld_hostMem, setReg_hostMem, raiseIrq_hostMem] | split)
@[simp] theorem pgErrRaw_time : (s.pgErrRaw page code cls vf off).time = s.time := by
  unfold State.pgErrRaw
  repeat' (first | with_reducible rfl | with_reducible refine ite_time ?_ ?_ | simp only [setFlag_time, setFld_time, setReg_time, raiseIrq_time] | split)
@[simp] theorem pgErrRaw_cap : (s.pgErrRaw page code cls vf off).cap = s.cap := by
  unfold State.pgErrRaw
  repeat' (first | with_reducible rfl | with_reducible refine ite_cap ?_ ?_ | simp only [setFlag_cap, setFld_cap, setReg_cap, raiseIrq_cap] | split)
@[simp] theorem pgErrRaw_access : (s.pgErrRaw page code cls vf off).access = s.access := by
  unfold State.pgErrRaw
  repeat' (first | with_reducible rfl | with_reducible refine ite_access ?_ ?_ | simp only [setFlag_access, setFld_access, setReg_access, raiseIrq_access] | split)
@[simp] theorem pgErrRaw_disp : (s.pgErrRaw page code cls vf off).disp = s.disp := by
  unfold State.pgErrRaw
  repeat' (first | with_reducible rfl | with_reducible refine ite_disp ?_ ?_ | simp only [setFlag_disp, setFld_disp, setReg_disp, raiseIrq_disp] | split)
@[simp] theorem pgErrRaw_scrub : (s.pgErrRaw page code cls vf off).scrub = s.scrub := by
  unfold State.pgErrRaw
  repeat' (first | with_reducible rfl | with_reducible refine ite_scrub ?_ ?_ | simp only [setFlag_scrub, setFld_scrub, setReg_scrub, raiseIrq_scrub] | split)
@[simp] theorem pgErrRaw_tap : (s.pgErrRaw page code cls vf off).tap = s.tap := by
  unfold State.pgErrRaw
  repeat' (first | with_reducible rfl | with_reducible refine ite_tap ?_ ?_ | simp only [setFlag_tap, setFld_tap, setReg_tap, raiseIrq_tap] | split)
@[simp] theorem pgErrRaw_trace : (s.pgErrRaw page code cls vf off).trace = s.trace := by
  unfold State.pgErrRaw
  repeat' (first | with_reducible rfl | with_reducible refine ite_trace ?_ ?_ | simp only [setFlag_trace, setFld_trace, setReg_trace, raiseIrq_trace] | split)
@[simp] theorem pgErrRaw_pwr : (s.pgErrRaw page code cls vf off).pwr = s.pwr := by
  unfold State.pgErrRaw
  repeat' (first | with_reducible rfl | with_reducible refine ite_pwr ?_ ?_ | simp only [setFlag_pwr, setFld_pwr, setReg_pwr, raiseIrq_pwr] | split)
@[simp] theorem pgErrRaw_pins : (s.pgErrRaw page code cls vf off).pins = s.pins := by
  unfold State.pgErrRaw
  repeat' (first | with_reducible rfl | with_reducible refine ite_pins ?_ ?_ | simp only [setFlag_pins, setFld_pins, setReg_pins, raiseIrq_pins] | split)
@[simp] theorem pgErrRaw_noc : (s.pgErrRaw page code cls vf off).noc = s.noc := by
  unfold State.pgErrRaw
  repeat' (first | with_reducible rfl | with_reducible refine ite_noc ?_ ?_ | simp only [setFlag_noc, setFld_noc, setReg_noc, raiseIrq_noc] | split)
@[simp] theorem pgErrRaw_periph : (s.pgErrRaw page code cls vf off).periph = s.periph := by
  unfold State.pgErrRaw
  repeat' (first | with_reducible rfl | with_reducible refine ite_periph ?_ ?_ | simp only [setFlag_periph, setFld_periph, setReg_periph, raiseIrq_periph] | split)
@[simp] theorem pgErrRaw_allocs : (s.pgErrRaw page code cls vf off).allocs = s.allocs := by
  unfold State.pgErrRaw
  repeat' (first | with_reducible rfl | with_reducible refine ite_allocs ?_ ?_ | simp only [setFlag_allocs, setFld_allocs, setReg_allocs, raiseIrq_allocs] | split)
@[simp] theorem pgErrRaw_pkgHalt : (s.pgErrRaw page code cls vf off).pkgHalt = s.pkgHalt := by
  unfold State.pgErrRaw
  repeat' (first | with_reducible rfl | with_reducible refine ite_pkgHalt ?_ ?_ | simp only [setFlag_pkgHalt, setFld_pkgHalt, setReg_pkgHalt, raiseIrq_pkgHalt] | split)
@[simp] theorem pgErrRaw_free : (s.pgErrRaw page code cls vf off).free = s.free := by
  unfold State.pgErrRaw
  repeat' (first | with_reducible rfl | with_reducible refine ite_free ?_ ?_ | simp only [setFlag_free, setFld_free, setReg_free, raiseIrq_free] | split)
@[simp] theorem pgErrRaw_pending : (s.pgErrRaw page code cls vf off).pending = s.pending := by
  unfold State.pgErrRaw
  repeat' (first | with_reducible rfl | with_reducible refine ite_pending ?_ ?_ | simp only [setFlag_pending, setFld_pending, setReg_pending, raiseIrq_pending] | split)

end

section
variable (s : State) (page code : Nat) (rq : Requester) (off : Nat)

@[simp] theorem pgErr_pages : (s.pgErr page code rq off).pages = s.pages := pgErrRaw_pages ..
@[simp] theorem pgErr_slots : (s.pgErr page code rq off).slots = s.slots := pgErrRaw_slots ..
@[simp] theorem pgErr_busRead : (s.pgErr page code rq off).busRead = s.busRead := pgErrRaw_busRead ..
@[simp] theorem pgErr_fab : (s.pgErr page code rq off).fab = s.fab := pgErrRaw_fab ..
@[simp] theorem pgErr_jobs : (s.pgErr page code rq off).jobs = s.jobs := pgErrRaw_jobs ..
@[simp] theorem pgErr_refs : (s.pgErr page code rq off).refs = s.refs := pgErrRaw_refs ..
@[simp] theorem pgErr_lanes : (s.pgErr page code rq off).lanes = s.lanes := pgErrRaw_lanes ..
@[simp] theorem pgErr_hbm : (s.pgErr page code rq off).hbm = s.hbm := pgErrRaw_hbm ..
@[simp] theorem pgErr_hostMem : (s.pgErr page code rq off).hostMem = s.hostMem := pgErrRaw_hostMem ..
@[simp] theorem pgErr_time : (s.pgErr page code rq off).time = s.time := pgErrRaw_time ..
@[simp] theorem pgErr_cap : (s.pgErr page code rq off).cap = s.cap := pgErrRaw_cap ..
@[simp] theorem pgErr_access : (s.pgErr page code rq off).access = s.access := pgErrRaw_access ..
@[simp] theorem pgErr_disp : (s.pgErr page code rq off).disp = s.disp := pgErrRaw_disp ..
@[simp] theorem pgErr_scrub : (s.pgErr page code rq off).scrub = s.scrub := pgErrRaw_scrub ..
@[simp] theorem pgErr_tap : (s.pgErr page code rq off).tap = s.tap := pgErrRaw_tap ..
@[simp] theorem pgErr_trace : (s.pgErr page code rq off).trace = s.trace := pgErrRaw_trace ..
@[simp] theorem pgErr_pwr : (s.pgErr page code rq off).pwr = s.pwr := pgErrRaw_pwr ..
@[simp] theorem pgErr_pins : (s.pgErr page code rq off).pins = s.pins := pgErrRaw_pins ..
@[simp] theorem pgErr_noc : (s.pgErr page code rq off).noc = s.noc := pgErrRaw_noc ..
@[simp] theorem pgErr_periph : (s.pgErr page code rq off).periph = s.periph := pgErrRaw_periph ..
@[simp] theorem pgErr_allocs : (s.pgErr page code rq off).allocs = s.allocs := pgErrRaw_allocs ..
@[simp] theorem pgErr_pkgHalt : (s.pgErr page code rq off).pkgHalt = s.pkgHalt := pgErrRaw_pkgHalt ..
@[simp] theorem pgErr_free : (s.pgErr page code rq off).free = s.free := pgErrRaw_free ..
@[simp] theorem pgErr_pending : (s.pgErr page code rq off).pending = s.pending := pgErrRaw_pending ..

end

section
variable (s : State) (page code off : Nat)

@[simp] theorem pgErrSelf_pages : (s.pgErrSelf page code off).pages = s.pages := pgErrRaw_pages ..
@[simp] theorem pgErrSelf_slots : (s.pgErrSelf page code off).slots = s.slots := pgErrRaw_slots ..
@[simp] theorem pgErrSelf_busRead : (s.pgErrSelf page code off).busRead = s.busRead := pgErrRaw_busRead ..
@[simp] theorem pgErrSelf_fab : (s.pgErrSelf page code off).fab = s.fab := pgErrRaw_fab ..
@[simp] theorem pgErrSelf_jobs : (s.pgErrSelf page code off).jobs = s.jobs := pgErrRaw_jobs ..
@[simp] theorem pgErrSelf_refs : (s.pgErrSelf page code off).refs = s.refs := pgErrRaw_refs ..
@[simp] theorem pgErrSelf_lanes : (s.pgErrSelf page code off).lanes = s.lanes := pgErrRaw_lanes ..
@[simp] theorem pgErrSelf_hbm : (s.pgErrSelf page code off).hbm = s.hbm := pgErrRaw_hbm ..
@[simp] theorem pgErrSelf_hostMem : (s.pgErrSelf page code off).hostMem = s.hostMem := pgErrRaw_hostMem ..
@[simp] theorem pgErrSelf_time : (s.pgErrSelf page code off).time = s.time := pgErrRaw_time ..
@[simp] theorem pgErrSelf_cap : (s.pgErrSelf page code off).cap = s.cap := pgErrRaw_cap ..
@[simp] theorem pgErrSelf_access : (s.pgErrSelf page code off).access = s.access := pgErrRaw_access ..
@[simp] theorem pgErrSelf_disp : (s.pgErrSelf page code off).disp = s.disp := pgErrRaw_disp ..
@[simp] theorem pgErrSelf_scrub : (s.pgErrSelf page code off).scrub = s.scrub := pgErrRaw_scrub ..
@[simp] theorem pgErrSelf_tap : (s.pgErrSelf page code off).tap = s.tap := pgErrRaw_tap ..
@[simp] theorem pgErrSelf_trace : (s.pgErrSelf page code off).trace = s.trace := pgErrRaw_trace ..
@[simp] theorem pgErrSelf_pwr : (s.pgErrSelf page code off).pwr = s.pwr := pgErrRaw_pwr ..
@[simp] theorem pgErrSelf_pins : (s.pgErrSelf page code off).pins = s.pins := pgErrRaw_pins ..
@[simp] theorem pgErrSelf_noc : (s.pgErrSelf page code off).noc = s.noc := pgErrRaw_noc ..
@[simp] theorem pgErrSelf_periph : (s.pgErrSelf page code off).periph = s.periph := pgErrRaw_periph ..
@[simp] theorem pgErrSelf_allocs : (s.pgErrSelf page code off).allocs = s.allocs := pgErrRaw_allocs ..
@[simp] theorem pgErrSelf_pkgHalt : (s.pgErrSelf page code off).pkgHalt = s.pkgHalt := pgErrRaw_pkgHalt ..
@[simp] theorem pgErrSelf_free : (s.pgErrSelf page code off).free = s.free := pgErrRaw_free ..
@[simp] theorem pgErrSelf_pending : (s.pgErrSelf page code off).pending = s.pending := pgErrRaw_pending ..

end

section
variable (s : State) (r : Ring) (addr : Nat) (bs : List Byte)

@[simp] theorem bufWrite_regs : (s.bufWrite r addr bs).regs = s.regs := by
  cases r
  · exact (rfl)
  · exact (rfl)
  · exact (rfl)
@[simp] theorem bufWrite_pages : (s.bufWrite r addr bs).pages = s.pages := by
  cases r
  · exact (rfl)
  · exact (rfl)
  · exact (rfl)
@[simp] theorem bufWrite_slots : (s.bufWrite r addr bs).slots = s.slots := by
  cases r
  · exact (rfl)
  · exact (rfl)
  · exact (rfl)
@[simp] theorem bufWrite_busRead : (s.bufWrite r addr bs).busRead = s.busRead := by
  cases r
  · exact (rfl)
  · exact (rfl)
  · exact (rfl)
@[simp] theorem bufWrite_fab : (s.bufWrite r addr bs).fab = s.fab := by
  cases r
  · exact (rfl)
  · exact (rfl)
  · exact (rfl)
@[simp] theorem bufWrite_jobs : (s.bufWrite r addr bs).jobs = s.jobs := by
  cases r
  · exact (rfl)
  · exact (rfl)
  · exact (rfl)
@[simp] theorem bufWrite_refs : (s.bufWrite r addr bs).refs = s.refs := by
  cases r
  · exact (rfl)
  · exact (rfl)
  · exact (rfl)
@[simp] theorem bufWrite_lanes : (s.bufWrite r addr bs).lanes = s.lanes := by
  cases r
  · exact (rfl)
  · exact (rfl)
  · exact (rfl)
@[simp] theorem bufWrite_hbm : (s.bufWrite r addr bs).hbm = s.hbm := by
  cases r
  · exact (rfl)
  · exact (rfl)
  · exact (rfl)
@[simp] theorem bufWrite_time : (s.bufWrite r addr bs).time = s.time := by
  cases r
  · exact (rfl)
  · exact (rfl)
  · exact (rfl)
@[simp] theorem bufWrite_cap : (s.bufWrite r addr bs).cap = s.cap := by
  cases r
  · exact (rfl)
  · exact (rfl)
  · exact (rfl)
@[simp] theorem bufWrite_fns : (s.bufWrite r addr bs).fns = s.fns := by
  cases r
  · exact (rfl)
  · exact (rfl)
  · exact (rfl)
@[simp] theorem bufWrite_access : (s.bufWrite r addr bs).access = s.access := by
  cases r
  · exact (rfl)
  · exact (rfl)
  · exact (rfl)
@[simp] theorem bufWrite_out : (s.bufWrite r addr bs).out = s.out := by
  cases r
  · exact (rfl)
  · exact (rfl)
  · exact (rfl)
@[simp] theorem bufWrite_disp : (s.bufWrite r addr bs).disp = s.disp := by
  cases r
  · exact (rfl)
  · exact (rfl)
  · exact (rfl)
@[simp] theorem bufWrite_scrub : (s.bufWrite r addr bs).scrub = s.scrub := by
  cases r
  · exact (rfl)
  · exact (rfl)
  · exact (rfl)
@[simp] theorem bufWrite_tap : (s.bufWrite r addr bs).tap = s.tap := by
  cases r
  · exact (rfl)
  · exact (rfl)
  · exact (rfl)
@[simp] theorem bufWrite_trace : (s.bufWrite r addr bs).trace = s.trace := by
  cases r
  · exact (rfl)
  · exact (rfl)
  · exact (rfl)
@[simp] theorem bufWrite_pwr : (s.bufWrite r addr bs).pwr = s.pwr := by
  cases r
  · exact (rfl)
  · exact (rfl)
  · exact (rfl)
@[simp] theorem bufWrite_pins : (s.bufWrite r addr bs).pins = s.pins := by
  cases r
  · exact (rfl)
  · exact (rfl)
  · exact (rfl)
@[simp] theorem bufWrite_noc : (s.bufWrite r addr bs).noc = s.noc := by
  cases r
  · exact (rfl)
  · exact (rfl)
  · exact (rfl)
@[simp] theorem bufWrite_periph : (s.bufWrite r addr bs).periph = s.periph := by
  cases r
  · exact (rfl)
  · exact (rfl)
  · exact (rfl)
@[simp] theorem bufWrite_allocs : (s.bufWrite r addr bs).allocs = s.allocs := by
  cases r
  · exact (rfl)
  · exact (rfl)
  · exact (rfl)
@[simp] theorem bufWrite_pkgHalt : (s.bufWrite r addr bs).pkgHalt = s.pkgHalt := by
  cases r
  · exact (rfl)
  · exact (rfl)
  · exact (rfl)
@[simp] theorem bufWrite_free : (s.bufWrite r addr bs).free = s.free := by
  cases r
  · exact (rfl)
  · exact (rfl)
  · exact (rfl)
@[simp] theorem bufWrite_pending : (s.bufWrite r addr bs).pending = s.pending := by
  cases r
  · exact (rfl)
  · exact (rfl)
  · exact (rfl)

end

section
variable (s : State) (c : Call)

@[simp] theorem completionEvent_pages : (s.completionEvent c).pages = s.pages := by
  unfold State.completionEvent
  repeat' (first | with_reducible rfl | with_reducible refine ite_pages ?_ ?_ | simp only [event_pages] | split)
@[simp] theorem completionEvent_slots : (s.completionEvent c).slots = s.slots := by
  unfold State.completionEvent
  repeat' (first | with_reducible rfl | with_reducible refine ite_slots ?_ ?_ | simp only [event_slots] | split)
@[simp] theorem completionEvent_busRead : (s.completionEvent c).busRead = s.busRead := by
  unfold State.completionEvent
  repeat' (first | with_reducible rfl | with_reducible refine ite_busRead ?_ ?_ | simp only [event_busRead] | split)
@[simp] theorem completionEvent_fab : (s.completionEvent c).fab = s.fab := by
  unfold State.completionEvent
  repeat' (first | with_reducible rfl | with_reducible refine ite_fab ?_ ?_ | simp only [event_fab] | split)
@[simp] theorem completionEvent_jobs : (s.completionEvent c).jobs = s.jobs := by
  unfold State.completionEvent
  repeat' (first | with_reducible rfl | with_reducible refine ite_jobs ?_ ?_ | simp only [event_jobs] | split)
@[simp] theorem completionEvent_refs : (s.completionEvent c).refs = s.refs := by
  unfold State.completionEvent
  repeat' (first | with_reducible rfl | with_reducible refine ite_refs ?_ ?_ | simp only [event_refs] | split)
@[simp] theorem completionEvent_lanes : (s.completionEvent c).lanes = s.lanes := by
  unfold State.completionEvent
  repeat' (first | with_reducible rfl | with_reducible refine ite_lanes ?_ ?_ | simp only [event_lanes] | split)
@[simp] theorem completionEvent_hbm : (s.completionEvent c).hbm = s.hbm := by
  unfold State.completionEvent
  repeat' (first | with_reducible rfl | with_reducible refine ite_hbm ?_ ?_ | simp only [event_hbm] | split)
@[simp] theorem completionEvent_hostMem : (s.completionEvent c).hostMem = s.hostMem := by
  unfold State.completionEvent
  repeat' (first | with_reducible rfl | with_reducible refine ite_hostMem ?_ ?_ | simp only [event_hostMem] | split)
@[simp] theorem completionEvent_time : (s.completionEvent c).time = s.time := by
  unfold State.completionEvent
  repeat' (first | with_reducible rfl | with_reducible refine ite_time ?_ ?_ | simp only [event_time] | split)
@[simp] theorem completionEvent_cap : (s.completionEvent c).cap = s.cap := by
  unfold State.completionEvent
  repeat' (first | with_reducible rfl | with_reducible refine ite_cap ?_ ?_ | simp only [event_cap] | split)
@[simp] theorem completionEvent_access : (s.completionEvent c).access = s.access := by
  unfold State.completionEvent
  repeat' (first | with_reducible rfl | with_reducible refine ite_access ?_ ?_ | simp only [event_access] | split)
@[simp] theorem completionEvent_disp : (s.completionEvent c).disp = s.disp := by
  unfold State.completionEvent
  repeat' (first | with_reducible rfl | with_reducible refine ite_disp ?_ ?_ | simp only [event_disp] | split)
@[simp] theorem completionEvent_scrub : (s.completionEvent c).scrub = s.scrub := by
  unfold State.completionEvent
  repeat' (first | with_reducible rfl | with_reducible refine ite_scrub ?_ ?_ | simp only [event_scrub] | split)
@[simp] theorem completionEvent_tap : (s.completionEvent c).tap = s.tap := by
  unfold State.completionEvent
  repeat' (first | with_reducible rfl | with_reducible refine ite_tap ?_ ?_ | simp only [event_tap] | split)
@[simp] theorem completionEvent_trace : (s.completionEvent c).trace = s.trace := by
  unfold State.completionEvent
  repeat' (first | with_reducible rfl | with_reducible refine ite_trace ?_ ?_ | simp only [event_trace] | split)
@[simp] theorem completionEvent_pwr : (s.completionEvent c).pwr = s.pwr := by
  unfold State.completionEvent
  repeat' (first | with_reducible rfl | with_reducible refine ite_pwr ?_ ?_ | simp only [event_pwr] | split)
@[simp] theorem completionEvent_pins : (s.completionEvent c).pins = s.pins := by
  unfold State.completionEvent
  repeat' (first | with_reducible rfl | with_reducible refine ite_pins ?_ ?_ | simp only [event_pins] | split)
@[simp] theorem completionEvent_noc : (s.completionEvent c).noc = s.noc := by
  unfold State.completionEvent
  repeat' (first | with_reducible rfl | with_reducible refine ite_noc ?_ ?_ | simp only [event_noc] | split)
@[simp] theorem completionEvent_periph : (s.completionEvent c).periph = s.periph := by
  unfold State.completionEvent
  repeat' (first | with_reducible rfl | with_reducible refine ite_periph ?_ ?_ | simp only [event_periph] | split)
@[simp] theorem completionEvent_allocs : (s.completionEvent c).allocs = s.allocs := by
  unfold State.completionEvent
  repeat' (first | with_reducible rfl | with_reducible refine ite_allocs ?_ ?_ | simp only [event_allocs] | split)
@[simp] theorem completionEvent_pkgHalt : (s.completionEvent c).pkgHalt = s.pkgHalt := by
  unfold State.completionEvent
  repeat' (first | with_reducible rfl | with_reducible refine ite_pkgHalt ?_ ?_ | simp only [event_pkgHalt] | split)
@[simp] theorem completionEvent_free : (s.completionEvent c).free = s.free := by
  unfold State.completionEvent
  repeat' (first | with_reducible rfl | with_reducible refine ite_free ?_ ?_ | simp only [event_free] | split)
@[simp] theorem completionEvent_pending : (s.completionEvent c).pending = s.pending := by
  unfold State.completionEvent
  repeat' (first | with_reducible rfl | with_reducible refine ite_pending ?_ ?_ | simp only [event_pending] | split)

end

section
variable (s : State) (c : Call) (op status detail : Nat) (result : List Byte)

@[simp] theorem complete_pages : (s.complete c op status detail result).pages = s.pages := by
  unfold State.complete
  repeat' (first | with_reducible rfl | with_reducible refine ite_pages ?_ ?_ | simp only [completionEvent_pages, ucInterrupt_pages, emit_pages, setReg_pages] | split)
@[simp] theorem complete_slots : (s.complete c op status detail result).slots = s.slots := by
  unfold State.complete
  repeat' (first | with_reducible rfl | with_reducible refine ite_slots ?_ ?_ | simp only [completionEvent_slots, ucInterrupt_slots, emit_slots, setReg_slots] | split)
@[simp] theorem complete_busRead : (s.complete c op status detail result).busRead = s.busRead := by
  unfold State.complete
  repeat' (first | with_reducible rfl | with_reducible refine ite_busRead ?_ ?_ | simp only [completionEvent_busRead, ucInterrupt_busRead, emit_busRead, setReg_busRead] | split)
@[simp] theorem complete_fab : (s.complete c op status detail result).fab = s.fab := by
  unfold State.complete
  repeat' (first | with_reducible rfl | with_reducible refine ite_fab ?_ ?_ | simp only [completionEvent_fab, ucInterrupt_fab, emit_fab, setReg_fab] | split)
@[simp] theorem complete_jobs : (s.complete c op status detail result).jobs = s.jobs := by
  unfold State.complete
  repeat' (first | with_reducible rfl | with_reducible refine ite_jobs ?_ ?_ | simp only [completionEvent_jobs, ucInterrupt_jobs, emit_jobs, setReg_jobs] | split)
@[simp] theorem complete_refs : (s.complete c op status detail result).refs = s.refs := by
  unfold State.complete
  repeat' (first | with_reducible rfl | with_reducible refine ite_refs ?_ ?_ | simp only [completionEvent_refs, ucInterrupt_refs, emit_refs, setReg_refs] | split)
@[simp] theorem complete_lanes : (s.complete c op status detail result).lanes = s.lanes := by
  unfold State.complete
  repeat' (first | with_reducible rfl | with_reducible refine ite_lanes ?_ ?_ | simp only [completionEvent_lanes, ucInterrupt_lanes, emit_lanes, setReg_lanes] | split)
@[simp] theorem complete_hbm : (s.complete c op status detail result).hbm = s.hbm := by
  unfold State.complete
  repeat' (first | with_reducible rfl | with_reducible refine ite_hbm ?_ ?_ | simp only [completionEvent_hbm, ucInterrupt_hbm, emit_hbm, setReg_hbm] | split)
@[simp] theorem complete_time : (s.complete c op status detail result).time = s.time := by
  unfold State.complete
  repeat' (first | with_reducible rfl | with_reducible refine ite_time ?_ ?_ | simp only [completionEvent_time, ucInterrupt_time, emit_time, setReg_time] | split)
@[simp] theorem complete_cap : (s.complete c op status detail result).cap = s.cap := by
  unfold State.complete
  repeat' (first | with_reducible rfl | with_reducible refine ite_cap ?_ ?_ | simp only [completionEvent_cap, ucInterrupt_cap, emit_cap, setReg_cap] | split)
@[simp] theorem complete_access : (s.complete c op status detail result).access = s.access := by
  unfold State.complete
  repeat' (first | with_reducible rfl | with_reducible refine ite_access ?_ ?_ | simp only [completionEvent_access, ucInterrupt_access, emit_access, setReg_access] | split)
@[simp] theorem complete_disp : (s.complete c op status detail result).disp = s.disp := by
  unfold State.complete
  repeat' (first | with_reducible rfl | with_reducible refine ite_disp ?_ ?_ | simp only [completionEvent_disp, ucInterrupt_disp, emit_disp, setReg_disp] | split)
@[simp] theorem complete_scrub : (s.complete c op status detail result).scrub = s.scrub := by
  unfold State.complete
  repeat' (first | with_reducible rfl | with_reducible refine ite_scrub ?_ ?_ | simp only [completionEvent_scrub, ucInterrupt_scrub, emit_scrub, setReg_scrub] | split)
@[simp] theorem complete_tap : (s.complete c op status detail result).tap = s.tap := by
  unfold State.complete
  repeat' (first | with_reducible rfl | with_reducible refine ite_tap ?_ ?_ | simp only [completionEvent_tap, ucInterrupt_tap, emit_tap, setReg_tap] | split)
@[simp] theorem complete_trace : (s.complete c op status detail result).trace = s.trace := by
  unfold State.complete
  repeat' (first | with_reducible rfl | with_reducible refine ite_trace ?_ ?_ | simp only [completionEvent_trace, ucInterrupt_trace, emit_trace, setReg_trace] | split)
@[simp] theorem complete_pwr : (s.complete c op status detail result).pwr = s.pwr := by
  unfold State.complete
  repeat' (first | with_reducible rfl | with_reducible refine ite_pwr ?_ ?_ | simp only [completionEvent_pwr, ucInterrupt_pwr, emit_pwr, setReg_pwr] | split)
@[simp] theorem complete_pins : (s.complete c op status detail result).pins = s.pins := by
  unfold State.complete
  repeat' (first | with_reducible rfl | with_reducible refine ite_pins ?_ ?_ | simp only [completionEvent_pins, ucInterrupt_pins, emit_pins, setReg_pins] | split)
@[simp] theorem complete_noc : (s.complete c op status detail result).noc = s.noc := by
  unfold State.complete
  repeat' (first | with_reducible rfl | with_reducible refine ite_noc ?_ ?_ | simp only [completionEvent_noc, ucInterrupt_noc, emit_noc, setReg_noc] | split)
@[simp] theorem complete_periph : (s.complete c op status detail result).periph = s.periph := by
  unfold State.complete
  repeat' (first | with_reducible rfl | with_reducible refine ite_periph ?_ ?_ | simp only [completionEvent_periph, ucInterrupt_periph, emit_periph, setReg_periph] | split)
@[simp] theorem complete_allocs : (s.complete c op status detail result).allocs = s.allocs := by
  unfold State.complete
  repeat' (first | with_reducible rfl | with_reducible refine ite_allocs ?_ ?_ | simp only [completionEvent_allocs, ucInterrupt_allocs, emit_allocs, setReg_allocs] | split)
@[simp] theorem complete_pkgHalt : (s.complete c op status detail result).pkgHalt = s.pkgHalt := by
  unfold State.complete
  repeat' (first | with_reducible rfl | with_reducible refine ite_pkgHalt ?_ ?_ | simp only [completionEvent_pkgHalt, ucInterrupt_pkgHalt, emit_pkgHalt, setReg_pkgHalt] | split)
@[simp] theorem complete_free : (s.complete c op status detail result).free = s.free := by
  unfold State.complete
  repeat' (first | with_reducible rfl | with_reducible refine ite_free ?_ ?_ | simp only [completionEvent_free, ucInterrupt_free, emit_free, setReg_free] | split)
@[simp] theorem complete_pending : (s.complete c op status detail result).pending = s.pending := by
  unfold State.complete
  repeat' (first | with_reducible rfl | with_reducible refine ite_pending ?_ ?_ | simp only [completionEvent_pending, ucInterrupt_pending, emit_pending, setReg_pending] | split)

end

section
variable (s : State) (c : Call) (op status : Nat)

@[simp] theorem reply_pages : (s.reply c op status).pages = s.pages := complete_pages ..
@[simp] theorem reply_slots : (s.reply c op status).slots = s.slots := complete_slots ..
@[simp] theorem reply_busRead : (s.reply c op status).busRead = s.busRead := complete_busRead ..
@[simp] theorem reply_fab : (s.reply c op status).fab = s.fab := complete_fab ..
@[simp] theorem reply_jobs : (s.reply c op status).jobs = s.jobs := complete_jobs ..
@[simp] theorem reply_refs : (s.reply c op status).refs = s.refs := complete_refs ..
@[simp] theorem reply_lanes : (s.reply c op status).lanes = s.lanes := complete_lanes ..
@[simp] theorem reply_hbm : (s.reply c op status).hbm = s.hbm := complete_hbm ..
@[simp] theorem reply_time : (s.reply c op status).time = s.time := complete_time ..
@[simp] theorem reply_cap : (s.reply c op status).cap = s.cap := complete_cap ..
@[simp] theorem reply_access : (s.reply c op status).access = s.access := complete_access ..
@[simp] theorem reply_disp : (s.reply c op status).disp = s.disp := complete_disp ..
@[simp] theorem reply_scrub : (s.reply c op status).scrub = s.scrub := complete_scrub ..
@[simp] theorem reply_tap : (s.reply c op status).tap = s.tap := complete_tap ..
@[simp] theorem reply_trace : (s.reply c op status).trace = s.trace := complete_trace ..
@[simp] theorem reply_pwr : (s.reply c op status).pwr = s.pwr := complete_pwr ..
@[simp] theorem reply_pins : (s.reply c op status).pins = s.pins := complete_pins ..
@[simp] theorem reply_noc : (s.reply c op status).noc = s.noc := complete_noc ..
@[simp] theorem reply_periph : (s.reply c op status).periph = s.periph := complete_periph ..
@[simp] theorem reply_allocs : (s.reply c op status).allocs = s.allocs := complete_allocs ..
@[simp] theorem reply_pkgHalt : (s.reply c op status).pkgHalt = s.pkgHalt := complete_pkgHalt ..
@[simp] theorem reply_free : (s.reply c op status).free = s.free := complete_free ..
@[simp] theorem reply_pending : (s.reply c op status).pending = s.pending := complete_pending ..

end

section
variable (s : State) (c : Call) (op addr : Nat) (bs : List Byte) (detail : Nat) (result : List Byte)

@[simp] theorem answer_pages : (s.answer c op addr bs detail result).pages = s.pages := by
  unfold State.answer
  repeat' (first | with_reducible rfl | with_reducible refine ite_pages ?_ ?_ | simp only [complete_pages, bufWrite_pages, reply_pages] | split)
@[simp] theorem answer_slots : (s.answer c op addr bs detail result).slots = s.slots := by
  unfold State.answer
  repeat' (first | with_reducible rfl | with_reducible refine ite_slots ?_ ?_ | simp only [complete_slots, bufWrite_slots, reply_slots] | split)
@[simp] theorem answer_busRead : (s.answer c op addr bs detail result).busRead = s.busRead := by
  unfold State.answer
  repeat' (first | with_reducible rfl | with_reducible refine ite_busRead ?_ ?_ | simp only [complete_busRead, bufWrite_busRead, reply_busRead] | split)
@[simp] theorem answer_fab : (s.answer c op addr bs detail result).fab = s.fab := by
  unfold State.answer
  repeat' (first | with_reducible rfl | with_reducible refine ite_fab ?_ ?_ | simp only [complete_fab, bufWrite_fab, reply_fab] | split)
@[simp] theorem answer_jobs : (s.answer c op addr bs detail result).jobs = s.jobs := by
  unfold State.answer
  repeat' (first | with_reducible rfl | with_reducible refine ite_jobs ?_ ?_ | simp only [complete_jobs, bufWrite_jobs, reply_jobs] | split)
@[simp] theorem answer_refs : (s.answer c op addr bs detail result).refs = s.refs := by
  unfold State.answer
  repeat' (first | with_reducible rfl | with_reducible refine ite_refs ?_ ?_ | simp only [complete_refs, bufWrite_refs, reply_refs] | split)
@[simp] theorem answer_lanes : (s.answer c op addr bs detail result).lanes = s.lanes := by
  unfold State.answer
  repeat' (first | with_reducible rfl | with_reducible refine ite_lanes ?_ ?_ | simp only [complete_lanes, bufWrite_lanes, reply_lanes] | split)
@[simp] theorem answer_hbm : (s.answer c op addr bs detail result).hbm = s.hbm := by
  unfold State.answer
  repeat' (first | with_reducible rfl | with_reducible refine ite_hbm ?_ ?_ | simp only [complete_hbm, bufWrite_hbm, reply_hbm] | split)
@[simp] theorem answer_time : (s.answer c op addr bs detail result).time = s.time := by
  unfold State.answer
  repeat' (first | with_reducible rfl | with_reducible refine ite_time ?_ ?_ | simp only [complete_time, bufWrite_time, reply_time] | split)
@[simp] theorem answer_cap : (s.answer c op addr bs detail result).cap = s.cap := by
  unfold State.answer
  repeat' (first | with_reducible rfl | with_reducible refine ite_cap ?_ ?_ | simp only [complete_cap, bufWrite_cap, reply_cap] | split)
@[simp] theorem answer_access : (s.answer c op addr bs detail result).access = s.access := by
  unfold State.answer
  repeat' (first | with_reducible rfl | with_reducible refine ite_access ?_ ?_ | simp only [complete_access, bufWrite_access, reply_access] | split)
@[simp] theorem answer_disp : (s.answer c op addr bs detail result).disp = s.disp := by
  unfold State.answer
  repeat' (first | with_reducible rfl | with_reducible refine ite_disp ?_ ?_ | simp only [complete_disp, bufWrite_disp, reply_disp] | split)
@[simp] theorem answer_scrub : (s.answer c op addr bs detail result).scrub = s.scrub := by
  unfold State.answer
  repeat' (first | with_reducible rfl | with_reducible refine ite_scrub ?_ ?_ | simp only [complete_scrub, bufWrite_scrub, reply_scrub] | split)
@[simp] theorem answer_tap : (s.answer c op addr bs detail result).tap = s.tap := by
  unfold State.answer
  repeat' (first | with_reducible rfl | with_reducible refine ite_tap ?_ ?_ | simp only [complete_tap, bufWrite_tap, reply_tap] | split)
@[simp] theorem answer_trace : (s.answer c op addr bs detail result).trace = s.trace := by
  unfold State.answer
  repeat' (first | with_reducible rfl | with_reducible refine ite_trace ?_ ?_ | simp only [complete_trace, bufWrite_trace, reply_trace] | split)
@[simp] theorem answer_pwr : (s.answer c op addr bs detail result).pwr = s.pwr := by
  unfold State.answer
  repeat' (first | with_reducible rfl | with_reducible refine ite_pwr ?_ ?_ | simp only [complete_pwr, bufWrite_pwr, reply_pwr] | split)
@[simp] theorem answer_pins : (s.answer c op addr bs detail result).pins = s.pins := by
  unfold State.answer
  repeat' (first | with_reducible rfl | with_reducible refine ite_pins ?_ ?_ | simp only [complete_pins, bufWrite_pins, reply_pins] | split)
@[simp] theorem answer_noc : (s.answer c op addr bs detail result).noc = s.noc := by
  unfold State.answer
  repeat' (first | with_reducible rfl | with_reducible refine ite_noc ?_ ?_ | simp only [complete_noc, bufWrite_noc, reply_noc] | split)
@[simp] theorem answer_periph : (s.answer c op addr bs detail result).periph = s.periph := by
  unfold State.answer
  repeat' (first | with_reducible rfl | with_reducible refine ite_periph ?_ ?_ | simp only [complete_periph, bufWrite_periph, reply_periph] | split)
@[simp] theorem answer_allocs : (s.answer c op addr bs detail result).allocs = s.allocs := by
  unfold State.answer
  repeat' (first | with_reducible rfl | with_reducible refine ite_allocs ?_ ?_ | simp only [complete_allocs, bufWrite_allocs, reply_allocs] | split)
@[simp] theorem answer_pkgHalt : (s.answer c op addr bs detail result).pkgHalt = s.pkgHalt := by
  unfold State.answer
  repeat' (first | with_reducible rfl | with_reducible refine ite_pkgHalt ?_ ?_ | simp only [complete_pkgHalt, bufWrite_pkgHalt, reply_pkgHalt] | split)
@[simp] theorem answer_free : (s.answer c op addr bs detail result).free = s.free := by
  unfold State.answer
  repeat' (first | with_reducible rfl | with_reducible refine ite_free ?_ ?_ | simp only [complete_free, bufWrite_free, reply_free] | split)
@[simp] theorem answer_pending : (s.answer c op addr bs detail result).pending = s.pending := by
  unfold State.answer
  repeat' (first | with_reducible rfl | with_reducible refine ite_pending ?_ ?_ | simp only [complete_pending, bufWrite_pending, reply_pending] | split)

end

/-! ### Read after update -/

@[simp] theorem reg_setReg (s : State) (a b : Nat) (v : Word) : (s.setReg a v).reg b = if b = a then v else s.reg b := by
  unfold reg setReg
  simp only [Sparse.get_set]
  split
  · subst b; simp [BitVec.xor_assoc]
  · rfl

theorem reg_setFld (s : State) (a hi lo v b : Nat) : (s.setFld a hi lo v).reg b =
    if b = a then BitVec.ofNat 32 (natPut (s.reg a).toNat hi lo v) else s.reg b := reg_setReg ..

theorem reg_setFlag (s : State) (a i : Nat) (v : Bool) (b : Nat) : (s.setFlag a i v).reg b =
    if b = a then BitVec.ofNat 32 (natPut (s.reg a).toNat i i (boolNat v)) else s.reg b := reg_setFld ..

@[simp] theorem job_setJob (s : State) (j k : Nat) (x : Job) : (s.setJob j x).job k = if k = j then x else s.job k :=
  Sparse.get_set ..

@[simp] theorem lane_setLane (s : State) (j k : Nat) (x : Lane) : (s.setLane j x).lane k = if k = j then x else s.lane k :=
  Sparse.get_set ..

@[simp] theorem ref_setRef (s : State) (j k : Nat) (x : Referee) : (s.setRef j x).ref k = if k = j then x else s.ref k :=
  Sparse.get_set ..

@[simp] theorem page_setPage (s : State) (j k : Nat) (x : PageDyn) : (s.setPage j x).page k = if k = j then x else s.page k :=
  Sparse.get_set ..

@[simp] theorem pcieFn_setPcieFn (s : State) (j k : Nat) (x : PcieFn) :
    (s.setPcieFn j x).pcieFn k = if k = j then x else s.pcieFn k := Sparse.get_set ..

@[simp] theorem seq_setSeq (s : State) (j k : Nat) (x : Seq) : (s.setSeq j x).seq k = if k = j then x else s.seq k :=
  Sparse.get_set ..

/-! ### Readers of the fields that an update leaves alone -/

@[simp] theorem reg_emit (s : State) (o : Out) (b : Nat) : (s.emit o).reg b = s.reg b := by
  simp only [State.reg, emit_regs]
@[simp] theorem reg_setPcieFn (s : State) (fn : Nat) (x : PcieFn) (b : Nat) : (s.setPcieFn fn x).reg b = s.reg b := by
  simp only [State.reg, setPcieFn_regs]
@[simp] theorem reg_setPage (s : State) (page : Nat) (d : PageDyn) (b : Nat) : (s.setPage page d).reg b = s.reg b := by
  simp only [State.reg, setPage_regs]
@[simp] theorem reg_setJob (s : State) (j : Nat) (x : Job) (b : Nat) : (s.setJob j x).reg b = s.reg b := by
  simp only [State.reg, setJob_regs]
@[simp] theorem reg_setSeq (s : State) (g : Nat) (q : Seq) (b : Nat) : (s.setSeq g q).reg b = s.reg b := by
  simp only [State.reg, setSeq_regs]
@[simp] theorem reg_setMq (s : State) (cl q : Nat) (x : Mq) (b : Nat) : (s.setMq cl q x).reg b = s.reg b := by
  simp only [State.reg, setMq_regs]
@[simp] theorem reg_setLane (s : State) (n : Nat) (x : Lane) (b : Nat) : (s.setLane n x).reg b = s.reg b := by
  simp only [State.reg, setLane_regs]
@[simp] theorem reg_setRef (s : State) (n : Nat) (r : Referee) (b : Nat) : (s.setRef n r).reg b = s.reg b := by
  simp only [State.reg, setRef_regs]
@[simp] theorem reg_setFlow (s : State) (x : Flow) (b : Nat) : (s.setFlow x).reg b = s.reg b := by
  simp only [State.reg, setFlow_regs]
@[simp] theorem reg_setPort (s : State) (j p : Nat) (x : Port) (b : Nat) : (s.setPort j p x).reg b = s.reg b := by
  simp only [State.reg, setPort_regs]
@[simp] theorem reg_stage (s : State) (unit : Nat) (xs : List Effect) (b : Nat) : (s.stage unit xs).reg b = s.reg b := by
  simp only [State.reg, stage_regs]
@[simp] theorem reg_scoreAdd (s : State) (w n : Nat) (b : Nat) : (s.scoreAdd w n).reg b = s.reg b := by
  simp only [State.reg, scoreAdd_regs]
@[simp] theorem reg_await (s : State) (w : Waiting) (b : Nat) : (s.await w).reg b = s.reg b := by
  simp only [State.reg, await_regs]
@[simp] theorem reg_logEvent (s : State) (source code job sev : Nat) (detail : List Word) (b : Nat) : (s.logEvent source code job sev detail).reg b = s.reg b := by
  simp only [State.reg, logEvent_regs]
@[simp] theorem reg_msix (s : State) (fn vec : Nat) (b : Nat) : (s.msix fn vec).reg b = s.reg b := by
  simp only [State.reg, msix_regs]
@[simp] theorem reg_bufWrite (s : State) (r : Ring) (addr : Nat) (bs : List Byte) (b : Nat) : (s.bufWrite r addr bs).reg b = s.reg b := by
  simp only [State.reg, bufWrite_regs]
@[simp] theorem fld_emit (s : State) (o : Out) (b hi lo : Nat) : (s.emit o).fld b hi lo = s.fld b hi lo := by
  simp only [State.fld, State.reg, emit_regs]
@[simp] theorem fld_setPcieFn (s : State) (fn : Nat) (x : PcieFn) (b hi lo : Nat) : (s.setPcieFn fn x).fld b hi lo = s.fld b hi lo := by
  simp only [State.fld, State.reg, setPcieFn_regs]
@[simp] theorem fld_setPage (s : State) (page : Nat) (d : PageDyn) (b hi lo : Nat) : (s.setPage page d).fld b hi lo = s.fld b hi lo := by
  simp only [State.fld, State.reg, setPage_regs]
@[simp] theorem fld_setJob (s : State) (j : Nat) (x : Job) (b hi lo : Nat) : (s.setJob j x).fld b hi lo = s.fld b hi lo := by
  simp only [State.fld, State.reg, setJob_regs]
@[simp] theorem fld_setSeq (s : State) (g : Nat) (q : Seq) (b hi lo : Nat) : (s.setSeq g q).fld b hi lo = s.fld b hi lo := by
  simp only [State.fld, State.reg, setSeq_regs]
@[simp] theorem fld_setMq (s : State) (cl q : Nat) (x : Mq) (b hi lo : Nat) : (s.setMq cl q x).fld b hi lo = s.fld b hi lo := by
  simp only [State.fld, State.reg, setMq_regs]
@[simp] theorem fld_setLane (s : State) (n : Nat) (x : Lane) (b hi lo : Nat) : (s.setLane n x).fld b hi lo = s.fld b hi lo := by
  simp only [State.fld, State.reg, setLane_regs]
@[simp] theorem fld_setRef (s : State) (n : Nat) (r : Referee) (b hi lo : Nat) : (s.setRef n r).fld b hi lo = s.fld b hi lo := by
  simp only [State.fld, State.reg, setRef_regs]
@[simp] theorem fld_setFlow (s : State) (x : Flow) (b hi lo : Nat) : (s.setFlow x).fld b hi lo = s.fld b hi lo := by
  simp only [State.fld, State.reg, setFlow_regs]
@[simp] theorem fld_setPort (s : State) (j p : Nat) (x : Port) (b hi lo : Nat) : (s.setPort j p x).fld b hi lo = s.fld b hi lo := by
  simp only [State.fld, State.reg, setPort_regs]
@[simp] theorem fld_stage (s : State) (unit : Nat) (xs : List Effect) (b hi lo : Nat) : (s.stage unit xs).fld b hi lo = s.fld b hi lo := by
  simp only [State.fld, State.reg, stage_regs]
@[simp] theorem fld_scoreAdd (s : State) (w n : Nat) (b hi lo : Nat) : (s.scoreAdd w n).fld b hi lo = s.fld b hi lo := by
  simp only [State.fld, State.reg, scoreAdd_regs]
@[simp] theorem fld_await (s : State) (w : Waiting) (b hi lo : Nat) : (s.await w).fld b hi lo = s.fld b hi lo := by
  simp only [State.fld, State.reg, await_regs]
@[simp] theorem fld_logEvent (s : State) (source code job sev : Nat) (detail : List Word) (b hi lo : Nat) : (s.logEvent source code job sev detail).fld b hi lo = s.fld b hi lo := by
  simp only [State.fld, State.reg, logEvent_regs]
@[simp] theorem fld_msix (s : State) (fn vec : Nat) (b hi lo : Nat) : (s.msix fn vec).fld b hi lo = s.fld b hi lo := by
  simp only [State.fld, State.reg, msix_regs]
@[simp] theorem fld_bufWrite (s : State) (r : Ring) (addr : Nat) (bs : List Byte) (b hi lo : Nat) : (s.bufWrite r addr bs).fld b hi lo = s.fld b hi lo := by
  simp only [State.fld, State.reg, bufWrite_regs]
@[simp] theorem flag_emit (s : State) (o : Out) (b i : Nat) : (s.emit o).flag b i = s.flag b i := by
  simp only [State.flag, State.reg, emit_regs]
@[simp] theorem flag_setPcieFn (s : State) (fn : Nat) (x : PcieFn) (b i : Nat) : (s.setPcieFn fn x).flag b i = s.flag b i := by
  simp only [State.flag, State.reg, setPcieFn_regs]
@[simp] theorem flag_setPage (s : State) (page : Nat) (d : PageDyn) (b i : Nat) : (s.setPage page d).flag b i = s.flag b i := by
  simp only [State.flag, State.reg, setPage_regs]
@[simp] theorem flag_setJob (s : State) (j : Nat) (x : Job) (b i : Nat) : (s.setJob j x).flag b i = s.flag b i := by
  simp only [State.flag, State.reg, setJob_regs]
@[simp] theorem flag_setSeq (s : State) (g : Nat) (q : Seq) (b i : Nat) : (s.setSeq g q).flag b i = s.flag b i := by
  simp only [State.flag, State.reg, setSeq_regs]
@[simp] theorem flag_setMq (s : State) (cl q : Nat) (x : Mq) (b i : Nat) : (s.setMq cl q x).flag b i = s.flag b i := by
  simp only [State.flag, State.reg, setMq_regs]
@[simp] theorem flag_setLane (s : State) (n : Nat) (x : Lane) (b i : Nat) : (s.setLane n x).flag b i = s.flag b i := by
  simp only [State.flag, State.reg, setLane_regs]
@[simp] theorem flag_setRef (s : State) (n : Nat) (r : Referee) (b i : Nat) : (s.setRef n r).flag b i = s.flag b i := by
  simp only [State.flag, State.reg, setRef_regs]
@[simp] theorem flag_setFlow (s : State) (x : Flow) (b i : Nat) : (s.setFlow x).flag b i = s.flag b i := by
  simp only [State.flag, State.reg, setFlow_regs]
@[simp] theorem flag_setPort (s : State) (j p : Nat) (x : Port) (b i : Nat) : (s.setPort j p x).flag b i = s.flag b i := by
  simp only [State.flag, State.reg, setPort_regs]
@[simp] theorem flag_stage (s : State) (unit : Nat) (xs : List Effect) (b i : Nat) : (s.stage unit xs).flag b i = s.flag b i := by
  simp only [State.flag, State.reg, stage_regs]
@[simp] theorem flag_scoreAdd (s : State) (w n : Nat) (b i : Nat) : (s.scoreAdd w n).flag b i = s.flag b i := by
  simp only [State.flag, State.reg, scoreAdd_regs]
@[simp] theorem flag_await (s : State) (w : Waiting) (b i : Nat) : (s.await w).flag b i = s.flag b i := by
  simp only [State.flag, State.reg, await_regs]
@[simp] theorem flag_logEvent (s : State) (source code job sev : Nat) (detail : List Word) (b i : Nat) : (s.logEvent source code job sev detail).flag b i = s.flag b i := by
  simp only [State.flag, State.reg, logEvent_regs]
@[simp] theorem flag_msix (s : State) (fn vec : Nat) (b i : Nat) : (s.msix fn vec).flag b i = s.flag b i := by
  simp only [State.flag, State.reg, msix_regs]
@[simp] theorem flag_bufWrite (s : State) (r : Ring) (addr : Nat) (bs : List Byte) (b i : Nat) : (s.bufWrite r addr bs).flag b i = s.flag b i := by
  simp only [State.flag, State.reg, bufWrite_regs]
@[simp] theorem job_setReg (s : State) (addr : Nat) (v : Word) (k : Nat) : (s.setReg addr v).job k = s.job k := by
  simp only [State.job, setReg_jobs]
@[simp] theorem job_setFld (s : State) (addr hi lo v : Nat) (k : Nat) : (s.setFld addr hi lo v).job k = s.job k := by
  simp only [State.job, setFld_jobs]
@[simp] theorem job_setFlag (s : State) (addr n : Nat) (v : Bool) (k : Nat) : (s.setFlag addr n v).job k = s.job k := by
  simp only [State.job, setFlag_jobs]
@[simp] theorem job_bump (s : State) (addr hi lo n : Nat) (k : Nat) : (s.bump addr hi lo n).job k = s.job k := by
  simp only [State.job, bump_jobs]
@[simp] theorem job_peak (s : State) (addr hi lo n : Nat) (k : Nat) : (s.peak addr hi lo n).job k = s.job k := by
  simp only [State.job, peak_jobs]
@[simp] theorem job_setReg64 (s : State) (addr v : Nat) (k : Nat) : (s.setReg64 addr v).job k = s.job k := by
  simp only [State.job, setReg64_jobs]
@[simp] theorem job_setOwner (s : State) (page : Nat) (rq : Requester) (k : Nat) : (s.setOwner page rq).job k = s.job k := by
  simp only [State.job, setOwner_jobs]
@[simp] theorem job_emit (s : State) (o : Out) (k : Nat) : (s.emit o).job k = s.job k := by
  simp only [State.job, emit_jobs]
@[simp] theorem job_setPcieFn (s : State) (fn : Nat) (x : PcieFn) (k : Nat) : (s.setPcieFn fn x).job k = s.job k := by
  simp only [State.job, setPcieFn_jobs]
@[simp] theorem job_setPage (s : State) (page : Nat) (d : PageDyn) (k : Nat) : (s.setPage page d).job k = s.job k := by
  simp only [State.job, setPage_jobs]
@[simp] theorem job_setSeq (s : State) (g : Nat) (q : Seq) (k : Nat) : (s.setSeq g q).job k = s.job k := by
  simp only [State.job, setSeq_jobs]
@[simp] theorem job_setMq (s : State) (cl q : Nat) (x : Mq) (k : Nat) : (s.setMq cl q x).job k = s.job k := by
  simp only [State.job, setMq_jobs]
@[simp] theorem job_setLane (s : State) (n : Nat) (x : Lane) (k : Nat) : (s.setLane n x).job k = s.job k := by
  simp only [State.job, setLane_jobs]
@[simp] theorem job_setRef (s : State) (n : Nat) (r : Referee) (k : Nat) : (s.setRef n r).job k = s.job k := by
  simp only [State.job, setRef_jobs]
@[simp] theorem job_setFlow (s : State) (x : Flow) (k : Nat) : (s.setFlow x).job k = s.job k := by
  simp only [State.job, setFlow_jobs]
@[simp] theorem job_setPort (s : State) (j p : Nat) (x : Port) (k : Nat) : (s.setPort j p x).job k = s.job k := by
  simp only [State.job, setPort_jobs]
@[simp] theorem job_stage (s : State) (unit : Nat) (xs : List Effect) (k : Nat) : (s.stage unit xs).job k = s.job k := by
  simp only [State.job, stage_jobs]
@[simp] theorem job_scoreAdd (s : State) (w n : Nat) (k : Nat) : (s.scoreAdd w n).job k = s.job k := by
  simp only [State.job, scoreAdd_jobs]
@[simp] theorem job_await (s : State) (w : Waiting) (k : Nat) : (s.await w).job k = s.job k := by
  simp only [State.job, await_jobs]
@[simp] theorem job_logEvent (s : State) (source code job sev : Nat) (detail : List Word) (k : Nat) : (s.logEvent source code job sev detail).job k = s.job k := by
  simp only [State.job, logEvent_jobs]
@[simp] theorem job_msix (s : State) (fn vec : Nat) (k : Nat) : (s.msix fn vec).job k = s.job k := by
  simp only [State.job, msix_jobs]
@[simp] theorem job_raiseEvent (s : State) (source code job sev : Nat) (detail : List Word) (k : Nat) : (s.raiseEvent source code job sev detail).job k = s.job k := by
  simp only [State.job, raiseEvent_jobs]
@[simp] theorem job_event (s : State) (source code job : Nat) (detail : List Word) (k : Nat) : (s.event source code job detail).job k = s.job k := by
  simp only [State.job, event_jobs]
@[simp] theorem job_raiseIrq (s : State) (page bit : Nat) (k : Nat) : (s.raiseIrq page bit).job k = s.job k := by
  simp only [State.job, raiseIrq_jobs]
@[simp] theorem job_pgErrRaw (s : State) (page code cls vf off : Nat) (k : Nat) : (s.pgErrRaw page code cls vf off).job k = s.job k := by
  simp only [State.job, pgErrRaw_jobs]
@[simp] theorem job_pgErr (s : State) (page code : Nat) (rq : Requester) (off : Nat) (k : Nat) : (s.pgErr page code rq off).job k = s.job k := by
  simp only [State.job, pgErr_jobs]
@[simp] theorem job_pgErrSelf (s : State) (page code off : Nat) (k : Nat) : (s.pgErrSelf page code off).job k = s.job k := by
  simp only [State.job, pgErrSelf_jobs]
@[simp] theorem job_bufWrite (s : State) (r : Ring) (addr : Nat) (bs : List Byte) (k : Nat) : (s.bufWrite r addr bs).job k = s.job k := by
  simp only [State.job, bufWrite_jobs]
@[simp] theorem job_completionEvent (s : State) (c : Call) (k : Nat) : (s.completionEvent c).job k = s.job k := by
  simp only [State.job, completionEvent_jobs]
@[simp] theorem job_complete (s : State) (c : Call) (op status detail : Nat) (result : List Byte) (k : Nat) : (s.complete c op status detail result).job k = s.job k := by
  simp only [State.job, complete_jobs]
@[simp] theorem job_reply (s : State) (c : Call) (op status : Nat) (k : Nat) : (s.reply c op status).job k = s.job k := by
  simp only [State.job, reply_jobs]
@[simp] theorem job_answer (s : State) (c : Call) (op addr : Nat) (bs : List Byte) (detail : Nat) (result : List Byte) (k : Nat) : (s.answer c op addr bs detail result).job k = s.job k := by
  simp only [State.job, answer_jobs]
@[simp] theorem lane_setReg (s : State) (addr : Nat) (v : Word) (k : Nat) : (s.setReg addr v).lane k = s.lane k := by
  simp only [State.lane, setReg_lanes]
@[simp] theorem lane_setFld (s : State) (addr hi lo v : Nat) (k : Nat) : (s.setFld addr hi lo v).lane k = s.lane k := by
  simp only [State.lane, setFld_lanes]
@[simp] theorem lane_setFlag (s : State) (addr n : Nat) (v : Bool) (k : Nat) : (s.setFlag addr n v).lane k = s.lane k := by
  simp only [State.lane, setFlag_lanes]
@[simp] theorem lane_emit (s : State) (o : Out) (k : Nat) : (s.emit o).lane k = s.lane k := by
  simp only [State.lane, emit_lanes]
@[simp] theorem lane_setJob (s : State) (j : Nat) (x : Job) (k : Nat) : (s.setJob j x).lane k = s.lane k := by
  simp only [State.lane, setJob_lanes]
@[simp] theorem lane_setSeq (s : State) (g : Nat) (q : Seq) (k : Nat) : (s.setSeq g q).lane k = s.lane k := by
  simp only [State.lane, setSeq_lanes]
@[simp] theorem lane_setRef (s : State) (n : Nat) (r : Referee) (k : Nat) : (s.setRef n r).lane k = s.lane k := by
  simp only [State.lane, setRef_lanes]
@[simp] theorem lane_msix (s : State) (fn vec : Nat) (k : Nat) : (s.msix fn vec).lane k = s.lane k := by
  simp only [State.lane, msix_lanes]
@[simp] theorem lane_event (s : State) (source code job : Nat) (detail : List Word) (k : Nat) : (s.event source code job detail).lane k = s.lane k := by
  simp only [State.lane, event_lanes]
@[simp] theorem lane_pgErr (s : State) (page code : Nat) (rq : Requester) (off : Nat) (k : Nat) : (s.pgErr page code rq off).lane k = s.lane k := by
  simp only [State.lane, pgErr_lanes]
@[simp] theorem lane_pgErrSelf (s : State) (page code off : Nat) (k : Nat) : (s.pgErrSelf page code off).lane k = s.lane k := by
  simp only [State.lane, pgErrSelf_lanes]
@[simp] theorem lane_bufWrite (s : State) (r : Ring) (addr : Nat) (bs : List Byte) (k : Nat) : (s.bufWrite r addr bs).lane k = s.lane k := by
  simp only [State.lane, bufWrite_lanes]
@[simp] theorem lane_complete (s : State) (c : Call) (op status detail : Nat) (result : List Byte) (k : Nat) : (s.complete c op status detail result).lane k = s.lane k := by
  simp only [State.lane, complete_lanes]
@[simp] theorem lane_reply (s : State) (c : Call) (op status : Nat) (k : Nat) : (s.reply c op status).lane k = s.lane k := by
  simp only [State.lane, reply_lanes]
@[simp] theorem lane_answer (s : State) (c : Call) (op addr : Nat) (bs : List Byte) (detail : Nat) (result : List Byte) (k : Nat) : (s.answer c op addr bs detail result).lane k = s.lane k := by
  simp only [State.lane, answer_lanes]
@[simp] theorem ref_setReg (s : State) (addr : Nat) (v : Word) (k : Nat) : (s.setReg addr v).ref k = s.ref k := by
  simp only [State.ref, setReg_refs]
@[simp] theorem ref_setFld (s : State) (addr hi lo v : Nat) (k : Nat) : (s.setFld addr hi lo v).ref k = s.ref k := by
  simp only [State.ref, setFld_refs]
@[simp] theorem ref_setFlag (s : State) (addr n : Nat) (v : Bool) (k : Nat) : (s.setFlag addr n v).ref k = s.ref k := by
  simp only [State.ref, setFlag_refs]
@[simp] theorem ref_emit (s : State) (o : Out) (k : Nat) : (s.emit o).ref k = s.ref k := by
  simp only [State.ref, emit_refs]
@[simp] theorem ref_setJob (s : State) (j : Nat) (x : Job) (k : Nat) : (s.setJob j x).ref k = s.ref k := by
  simp only [State.ref, setJob_refs]
@[simp] theorem ref_setSeq (s : State) (g : Nat) (q : Seq) (k : Nat) : (s.setSeq g q).ref k = s.ref k := by
  simp only [State.ref, setSeq_refs]
@[simp] theorem ref_setLane (s : State) (n : Nat) (x : Lane) (k : Nat) : (s.setLane n x).ref k = s.ref k := by
  simp only [State.ref, setLane_refs]
@[simp] theorem ref_msix (s : State) (fn vec : Nat) (k : Nat) : (s.msix fn vec).ref k = s.ref k := by
  simp only [State.ref, msix_refs]
@[simp] theorem ref_event (s : State) (source code job : Nat) (detail : List Word) (k : Nat) : (s.event source code job detail).ref k = s.ref k := by
  simp only [State.ref, event_refs]
@[simp] theorem ref_pgErr (s : State) (page code : Nat) (rq : Requester) (off : Nat) (k : Nat) : (s.pgErr page code rq off).ref k = s.ref k := by
  simp only [State.ref, pgErr_refs]
@[simp] theorem ref_pgErrSelf (s : State) (page code off : Nat) (k : Nat) : (s.pgErrSelf page code off).ref k = s.ref k := by
  simp only [State.ref, pgErrSelf_refs]
@[simp] theorem ref_bufWrite (s : State) (r : Ring) (addr : Nat) (bs : List Byte) (k : Nat) : (s.bufWrite r addr bs).ref k = s.ref k := by
  simp only [State.ref, bufWrite_refs]
@[simp] theorem ref_complete (s : State) (c : Call) (op status detail : Nat) (result : List Byte) (k : Nat) : (s.complete c op status detail result).ref k = s.ref k := by
  simp only [State.ref, complete_refs]
@[simp] theorem ref_reply (s : State) (c : Call) (op status : Nat) (k : Nat) : (s.reply c op status).ref k = s.ref k := by
  simp only [State.ref, reply_refs]
@[simp] theorem ref_answer (s : State) (c : Call) (op addr : Nat) (bs : List Byte) (detail : Nat) (result : List Byte) (k : Nat) : (s.answer c op addr bs detail result).ref k = s.ref k := by
  simp only [State.ref, answer_refs]
@[simp] theorem page_setReg (s : State) (addr : Nat) (v : Word) (k : Nat) : (s.setReg addr v).page k = s.page k := by
  simp only [State.page, setReg_pages]
@[simp] theorem page_setFld (s : State) (addr hi lo v : Nat) (k : Nat) : (s.setFld addr hi lo v).page k = s.page k := by
  simp only [State.page, setFld_pages]
@[simp] theorem page_setFlag (s : State) (addr n : Nat) (v : Bool) (k : Nat) : (s.setFlag addr n v).page k = s.page k := by
  simp only [State.page, setFlag_pages]
@[simp] theorem page_emit (s : State) (o : Out) (k : Nat) : (s.emit o).page k = s.page k := by
  simp only [State.page, emit_pages]
@[simp] theorem page_setJob (s : State) (j : Nat) (x : Job) (k : Nat) : (s.setJob j x).page k = s.page k := by
  simp only [State.page, setJob_pages]
@[simp] theorem page_setSeq (s : State) (g : Nat) (q : Seq) (k : Nat) : (s.setSeq g q).page k = s.page k := by
  simp only [State.page, setSeq_pages]
@[simp] theorem page_setLane (s : State) (n : Nat) (x : Lane) (k : Nat) : (s.setLane n x).page k = s.page k := by
  simp only [State.page, setLane_pages]
@[simp] theorem page_setRef (s : State) (n : Nat) (r : Referee) (k : Nat) : (s.setRef n r).page k = s.page k := by
  simp only [State.page, setRef_pages]
@[simp] theorem page_msix (s : State) (fn vec : Nat) (k : Nat) : (s.msix fn vec).page k = s.page k := by
  simp only [State.page, msix_pages]
@[simp] theorem page_event (s : State) (source code job : Nat) (detail : List Word) (k : Nat) : (s.event source code job detail).page k = s.page k := by
  simp only [State.page, event_pages]
@[simp] theorem page_pgErr (s : State) (page code : Nat) (rq : Requester) (off : Nat) (k : Nat) : (s.pgErr page code rq off).page k = s.page k := by
  simp only [State.page, pgErr_pages]
@[simp] theorem page_pgErrSelf (s : State) (page code off : Nat) (k : Nat) : (s.pgErrSelf page code off).page k = s.page k := by
  simp only [State.page, pgErrSelf_pages]
@[simp] theorem page_bufWrite (s : State) (r : Ring) (addr : Nat) (bs : List Byte) (k : Nat) : (s.bufWrite r addr bs).page k = s.page k := by
  simp only [State.page, bufWrite_pages]
@[simp] theorem page_complete (s : State) (c : Call) (op status detail : Nat) (result : List Byte) (k : Nat) : (s.complete c op status detail result).page k = s.page k := by
  simp only [State.page, complete_pages]
@[simp] theorem page_reply (s : State) (c : Call) (op status : Nat) (k : Nat) : (s.reply c op status).page k = s.page k := by
  simp only [State.page, reply_pages]
@[simp] theorem page_answer (s : State) (c : Call) (op addr : Nat) (bs : List Byte) (detail : Nat) (result : List Byte) (k : Nat) : (s.answer c op addr bs detail result).page k = s.page k := by
  simp only [State.page, answer_pages]
@[simp] theorem pcieFn_setReg (s : State) (addr : Nat) (v : Word) (k : Nat) : (s.setReg addr v).pcieFn k = s.pcieFn k := by
  simp only [State.pcieFn, setReg_fns]
@[simp] theorem pcieFn_setFld (s : State) (addr hi lo v : Nat) (k : Nat) : (s.setFld addr hi lo v).pcieFn k = s.pcieFn k := by
  simp only [State.pcieFn, setFld_fns]
@[simp] theorem pcieFn_setFlag (s : State) (addr n : Nat) (v : Bool) (k : Nat) : (s.setFlag addr n v).pcieFn k = s.pcieFn k := by
  simp only [State.pcieFn, setFlag_fns]
@[simp] theorem pcieFn_emit (s : State) (o : Out) (k : Nat) : (s.emit o).pcieFn k = s.pcieFn k := by
  simp only [State.pcieFn, emit_fns]
@[simp] theorem pcieFn_setJob (s : State) (j : Nat) (x : Job) (k : Nat) : (s.setJob j x).pcieFn k = s.pcieFn k := by
  simp only [State.pcieFn, setJob_fns]
@[simp] theorem pcieFn_setSeq (s : State) (g : Nat) (q : Seq) (k : Nat) : (s.setSeq g q).pcieFn k = s.pcieFn k := by
  simp only [State.pcieFn, setSeq_fns]
@[simp] theorem pcieFn_setLane (s : State) (n : Nat) (x : Lane) (k : Nat) : (s.setLane n x).pcieFn k = s.pcieFn k := by
  simp only [State.pcieFn, setLane_fns]
@[simp] theorem pcieFn_setRef (s : State) (n : Nat) (r : Referee) (k : Nat) : (s.setRef n r).pcieFn k = s.pcieFn k := by
  simp only [State.pcieFn, setRef_fns]
@[simp] theorem pcieFn_bufWrite (s : State) (r : Ring) (addr : Nat) (bs : List Byte) (k : Nat) : (s.bufWrite r addr bs).pcieFn k = s.pcieFn k := by
  simp only [State.pcieFn, bufWrite_fns]
@[simp] theorem seq_setReg (s : State) (addr : Nat) (v : Word) (k : Nat) : (s.setReg addr v).seq k = s.seq k := by
  simp only [State.seq, setReg_fab]
@[simp] theorem seq_setFld (s : State) (addr hi lo v : Nat) (k : Nat) : (s.setFld addr hi lo v).seq k = s.seq k := by
  simp only [State.seq, setFld_fab]
@[simp] theorem seq_setFlag (s : State) (addr n : Nat) (v : Bool) (k : Nat) : (s.setFlag addr n v).seq k = s.seq k := by
  simp only [State.seq, setFlag_fab]
@[simp] theorem seq_bump (s : State) (addr hi lo n : Nat) (k : Nat) : (s.bump addr hi lo n).seq k = s.seq k := by
  simp only [State.seq, bump_fab]
@[simp] theorem seq_peak (s : State) (addr hi lo n : Nat) (k : Nat) : (s.peak addr hi lo n).seq k = s.seq k := by
  simp only [State.seq, peak_fab]
@[simp] theorem seq_setReg64 (s : State) (addr v : Nat) (k : Nat) : (s.setReg64 addr v).seq k = s.seq k := by
  simp only [State.seq, setReg64_fab]
@[simp] theorem seq_setOwner (s : State) (page : Nat) (rq : Requester) (k : Nat) : (s.setOwner page rq).seq k = s.seq k := by
  simp only [State.seq, setOwner_fab]
@[simp] theorem seq_emit (s : State) (o : Out) (k : Nat) : (s.emit o).seq k = s.seq k := by
  simp only [State.seq, emit_fab]
@[simp] theorem seq_setPcieFn (s : State) (fn : Nat) (x : PcieFn) (k : Nat) : (s.setPcieFn fn x).seq k = s.seq k := by
  simp only [State.seq, setPcieFn_fab]
@[simp] theorem seq_setPage (s : State) (page : Nat) (d : PageDyn) (k : Nat) : (s.setPage page d).seq k = s.seq k := by
  simp only [State.seq, setPage_fab]
@[simp] theorem seq_setJob (s : State) (j : Nat) (x : Job) (k : Nat) : (s.setJob j x).seq k = s.seq k := by
  simp only [State.seq, setJob_fab]
@[simp] theorem seq_setLane (s : State) (n : Nat) (x : Lane) (k : Nat) : (s.setLane n x).seq k = s.seq k := by
  simp only [State.seq, setLane_fab]
@[simp] theorem seq_setRef (s : State) (n : Nat) (r : Referee) (k : Nat) : (s.setRef n r).seq k = s.seq k := by
  simp only [State.seq, setRef_fab]
@[simp] theorem seq_setFlow (s : State) (x : Flow) (k : Nat) : (s.setFlow x).seq k = s.seq k := by
  simp only [State.seq, setFlow_fab]
@[simp] theorem seq_setPort (s : State) (j p : Nat) (x : Port) (k : Nat) : (s.setPort j p x).seq k = s.seq k := by
  simp only [State.seq, setPort_fab]
@[simp] theorem seq_scoreAdd (s : State) (w n : Nat) (k : Nat) : (s.scoreAdd w n).seq k = s.seq k := by
  simp only [State.seq, scoreAdd_fab]
@[simp] theorem seq_await (s : State) (w : Waiting) (k : Nat) : (s.await w).seq k = s.seq k := by
  simp only [State.seq, await_fab]
@[simp] theorem seq_logEvent (s : State) (source code job sev : Nat) (detail : List Word) (k : Nat) : (s.logEvent source code job sev detail).seq k = s.seq k := by
  simp only [State.seq, logEvent_fab]
@[simp] theorem seq_msix (s : State) (fn vec : Nat) (k : Nat) : (s.msix fn vec).seq k = s.seq k := by
  simp only [State.seq, msix_fab]
@[simp] theorem seq_raiseEvent (s : State) (source code job sev : Nat) (detail : List Word) (k : Nat) : (s.raiseEvent source code job sev detail).seq k = s.seq k := by
  simp only [State.seq, raiseEvent_fab]
@[simp] theorem seq_event (s : State) (source code job : Nat) (detail : List Word) (k : Nat) : (s.event source code job detail).seq k = s.seq k := by
  simp only [State.seq, event_fab]
@[simp] theorem seq_raiseIrq (s : State) (page bit : Nat) (k : Nat) : (s.raiseIrq page bit).seq k = s.seq k := by
  simp only [State.seq, raiseIrq_fab]
@[simp] theorem seq_pgErrRaw (s : State) (page code cls vf off : Nat) (k : Nat) : (s.pgErrRaw page code cls vf off).seq k = s.seq k := by
  simp only [State.seq, pgErrRaw_fab]
@[simp] theorem seq_pgErr (s : State) (page code : Nat) (rq : Requester) (off : Nat) (k : Nat) : (s.pgErr page code rq off).seq k = s.seq k := by
  simp only [State.seq, pgErr_fab]
@[simp] theorem seq_pgErrSelf (s : State) (page code off : Nat) (k : Nat) : (s.pgErrSelf page code off).seq k = s.seq k := by
  simp only [State.seq, pgErrSelf_fab]
@[simp] theorem seq_bufWrite (s : State) (r : Ring) (addr : Nat) (bs : List Byte) (k : Nat) : (s.bufWrite r addr bs).seq k = s.seq k := by
  simp only [State.seq, bufWrite_fab]
@[simp] theorem seq_completionEvent (s : State) (c : Call) (k : Nat) : (s.completionEvent c).seq k = s.seq k := by
  simp only [State.seq, completionEvent_fab]
@[simp] theorem seq_complete (s : State) (c : Call) (op status detail : Nat) (result : List Byte) (k : Nat) : (s.complete c op status detail result).seq k = s.seq k := by
  simp only [State.seq, complete_fab]
@[simp] theorem seq_reply (s : State) (c : Call) (op status : Nat) (k : Nat) : (s.reply c op status).seq k = s.seq k := by
  simp only [State.seq, reply_fab]
@[simp] theorem seq_answer (s : State) (c : Call) (op addr : Nat) (bs : List Byte) (detail : Nat) (result : List Byte) (k : Nat) : (s.answer c op addr bs detail result).seq k = s.seq k := by
  simp only [State.seq, answer_fab]
@[simp] theorem mq_setReg (s : State) (addr : Nat) (v : Word) (k i : Nat) : (s.setReg addr v).mq k i = s.mq k i := by
  simp only [State.mq, setReg_fab]
@[simp] theorem mq_setFld (s : State) (addr hi lo v : Nat) (k i : Nat) : (s.setFld addr hi lo v).mq k i = s.mq k i := by
  simp only [State.mq, setFld_fab]
@[simp] theorem mq_setFlag (s : State) (addr n : Nat) (v : Bool) (k i : Nat) : (s.setFlag addr n v).mq k i = s.mq k i := by
  simp only [State.mq, setFlag_fab]
@[simp] theorem mq_emit (s : State) (o : Out) (k i : Nat) : (s.emit o).mq k i = s.mq k i := by
  simp only [State.mq, emit_fab]
@[simp] theorem mq_setJob (s : State) (j : Nat) (x : Job) (k i : Nat) : (s.setJob j x).mq k i = s.mq k i := by
  simp only [State.mq, setJob_fab]
@[simp] theorem mq_setLane (s : State) (n : Nat) (x : Lane) (k i : Nat) : (s.setLane n x).mq k i = s.mq k i := by
  simp only [State.mq, setLane_fab]
@[simp] theorem mq_setRef (s : State) (n : Nat) (r : Referee) (k i : Nat) : (s.setRef n r).mq k i = s.mq k i := by
  simp only [State.mq, setRef_fab]
@[simp] theorem mq_msix (s : State) (fn vec : Nat) (k i : Nat) : (s.msix fn vec).mq k i = s.mq k i := by
  simp only [State.mq, msix_fab]
@[simp] theorem mq_event (s : State) (source code job : Nat) (detail : List Word) (k i : Nat) : (s.event source code job detail).mq k i = s.mq k i := by
  simp only [State.mq, event_fab]
@[simp] theorem mq_pgErr (s : State) (page code : Nat) (rq : Requester) (off : Nat) (k i : Nat) : (s.pgErr page code rq off).mq k i = s.mq k i := by
  simp only [State.mq, pgErr_fab]
@[simp] theorem mq_pgErrSelf (s : State) (page code off : Nat) (k i : Nat) : (s.pgErrSelf page code off).mq k i = s.mq k i := by
  simp only [State.mq, pgErrSelf_fab]
@[simp] theorem mq_bufWrite (s : State) (r : Ring) (addr : Nat) (bs : List Byte) (k i : Nat) : (s.bufWrite r addr bs).mq k i = s.mq k i := by
  simp only [State.mq, bufWrite_fab]
@[simp] theorem mq_complete (s : State) (c : Call) (op status detail : Nat) (result : List Byte) (k i : Nat) : (s.complete c op status detail result).mq k i = s.mq k i := by
  simp only [State.mq, complete_fab]
@[simp] theorem mq_reply (s : State) (c : Call) (op status : Nat) (k i : Nat) : (s.reply c op status).mq k i = s.mq k i := by
  simp only [State.mq, reply_fab]
@[simp] theorem mq_answer (s : State) (c : Call) (op addr : Nat) (bs : List Byte) (detail : Nat) (result : List Byte) (k i : Nat) : (s.answer c op addr bs detail result).mq k i = s.mq k i := by
  simp only [State.mq, answer_fab]
@[simp] theorem jobOfSeg_setReg (s : State) (addr : Nat) (v : Word) (k : Nat) : (s.setReg addr v).jobOfSeg k = s.jobOfSeg k := by
  simp only [State.jobOfSeg, setReg_jobs]
@[simp] theorem jobOfSeg_setFld (s : State) (addr hi lo v : Nat) (k : Nat) : (s.setFld addr hi lo v).jobOfSeg k = s.jobOfSeg k := by
  simp only [State.jobOfSeg, setFld_jobs]
@[simp] theorem jobOfSeg_setFlag (s : State) (addr n : Nat) (v : Bool) (k : Nat) : (s.setFlag addr n v).jobOfSeg k = s.jobOfSeg k := by
  simp only [State.jobOfSeg, setFlag_jobs]
@[simp] theorem jobOfSeg_emit (s : State) (o : Out) (k : Nat) : (s.emit o).jobOfSeg k = s.jobOfSeg k := by
  simp only [State.jobOfSeg, emit_jobs]
@[simp] theorem jobOfSeg_setSeq (s : State) (g : Nat) (q : Seq) (k : Nat) : (s.setSeq g q).jobOfSeg k = s.jobOfSeg k := by
  simp only [State.jobOfSeg, setSeq_jobs]
@[simp] theorem jobOfSeg_setLane (s : State) (n : Nat) (x : Lane) (k : Nat) : (s.setLane n x).jobOfSeg k = s.jobOfSeg k := by
  simp only [State.jobOfSeg, setLane_jobs]
@[simp] theorem jobOfSeg_setRef (s : State) (n : Nat) (r : Referee) (k : Nat) : (s.setRef n r).jobOfSeg k = s.jobOfSeg k := by
  simp only [State.jobOfSeg, setRef_jobs]
@[simp] theorem jobOfSeg_msix (s : State) (fn vec : Nat) (k : Nat) : (s.msix fn vec).jobOfSeg k = s.jobOfSeg k := by
  simp only [State.jobOfSeg, msix_jobs]
@[simp] theorem jobOfSeg_event (s : State) (source code job : Nat) (detail : List Word) (k : Nat) : (s.event source code job detail).jobOfSeg k = s.jobOfSeg k := by
  simp only [State.jobOfSeg, event_jobs]
@[simp] theorem jobOfSeg_pgErr (s : State) (page code : Nat) (rq : Requester) (off : Nat) (k : Nat) : (s.pgErr page code rq off).jobOfSeg k = s.jobOfSeg k := by
  simp only [State.jobOfSeg, pgErr_jobs]
@[simp] theorem jobOfSeg_pgErrSelf (s : State) (page code off : Nat) (k : Nat) : (s.pgErrSelf page code off).jobOfSeg k = s.jobOfSeg k := by
  simp only [State.jobOfSeg, pgErrSelf_jobs]
@[simp] theorem jobOfSeg_bufWrite (s : State) (r : Ring) (addr : Nat) (bs : List Byte) (k : Nat) : (s.bufWrite r addr bs).jobOfSeg k = s.jobOfSeg k := by
  simp only [State.jobOfSeg, bufWrite_jobs]
@[simp] theorem jobOfSeg_complete (s : State) (c : Call) (op status detail : Nat) (result : List Byte) (k : Nat) : (s.complete c op status detail result).jobOfSeg k = s.jobOfSeg k := by
  simp only [State.jobOfSeg, complete_jobs]
@[simp] theorem jobOfSeg_reply (s : State) (c : Call) (op status : Nat) (k : Nat) : (s.reply c op status).jobOfSeg k = s.jobOfSeg k := by
  simp only [State.jobOfSeg, reply_jobs]
@[simp] theorem jobOfSeg_answer (s : State) (c : Call) (op addr : Nat) (bs : List Byte) (detail : Nat) (result : List Byte) (k : Nat) : (s.answer c op addr bs detail result).jobOfSeg k = s.jobOfSeg k := by
  simp only [State.jobOfSeg, answer_jobs]
@[simp] theorem domainOn_setReg (s : State) (addr : Nat) (v : Word) (k : Nat) : (s.setReg addr v).domainOn k = s.domainOn k := by
  simp only [State.domainOn, setReg_pwr]
@[simp] theorem domainOn_setFld (s : State) (addr hi lo v : Nat) (k : Nat) : (s.setFld addr hi lo v).domainOn k = s.domainOn k := by
  simp only [State.domainOn, setFld_pwr]
@[simp] theorem domainOn_setFlag (s : State) (addr n : Nat) (v : Bool) (k : Nat) : (s.setFlag addr n v).domainOn k = s.domainOn k := by
  simp only [State.domainOn, setFlag_pwr]
@[simp] theorem domainOn_emit (s : State) (o : Out) (k : Nat) : (s.emit o).domainOn k = s.domainOn k := by
  simp only [State.domainOn, emit_pwr]
@[simp] theorem domainOn_setJob (s : State) (j : Nat) (x : Job) (k : Nat) : (s.setJob j x).domainOn k = s.domainOn k := by
  simp only [State.domainOn, setJob_pwr]
@[simp] theorem domainOn_setSeq (s : State) (g : Nat) (q : Seq) (k : Nat) : (s.setSeq g q).domainOn k = s.domainOn k := by
  simp only [State.domainOn, setSeq_pwr]
@[simp] theorem domainOn_setLane (s : State) (n : Nat) (x : Lane) (k : Nat) : (s.setLane n x).domainOn k = s.domainOn k := by
  simp only [State.domainOn, setLane_pwr]
@[simp] theorem domainOn_setRef (s : State) (n : Nat) (r : Referee) (k : Nat) : (s.setRef n r).domainOn k = s.domainOn k := by
  simp only [State.domainOn, setRef_pwr]
@[simp] theorem domainOn_msix (s : State) (fn vec : Nat) (k : Nat) : (s.msix fn vec).domainOn k = s.domainOn k := by
  simp only [State.domainOn, msix_pwr]
@[simp] theorem domainOn_event (s : State) (source code job : Nat) (detail : List Word) (k : Nat) : (s.event source code job detail).domainOn k = s.domainOn k := by
  simp only [State.domainOn, event_pwr]
@[simp] theorem domainOn_pgErr (s : State) (page code : Nat) (rq : Requester) (off : Nat) (k : Nat) : (s.pgErr page code rq off).domainOn k = s.domainOn k := by
  simp only [State.domainOn, pgErr_pwr]
@[simp] theorem domainOn_pgErrSelf (s : State) (page code off : Nat) (k : Nat) : (s.pgErrSelf page code off).domainOn k = s.domainOn k := by
  simp only [State.domainOn, pgErrSelf_pwr]
@[simp] theorem domainOn_bufWrite (s : State) (r : Ring) (addr : Nat) (bs : List Byte) (k : Nat) : (s.bufWrite r addr bs).domainOn k = s.domainOn k := by
  simp only [State.domainOn, bufWrite_pwr]
@[simp] theorem domainOn_complete (s : State) (c : Call) (op status detail : Nat) (result : List Byte) (k : Nat) : (s.complete c op status detail result).domainOn k = s.domainOn k := by
  simp only [State.domainOn, complete_pwr]
@[simp] theorem domainOn_reply (s : State) (c : Call) (op status : Nat) (k : Nat) : (s.reply c op status).domainOn k = s.domainOn k := by
  simp only [State.domainOn, reply_pwr]
@[simp] theorem domainOn_answer (s : State) (c : Call) (op addr : Nat) (bs : List Byte) (detail : Nat) (result : List Byte) (k : Nat) : (s.answer c op addr bs detail result).domainOn k = s.domainOn k := by
  simp only [State.domainOn, answer_pwr]
@[simp] theorem flow_setReg (s : State) (addr : Nat) (v : Word) (k i : Nat) : (s.setReg addr v).flow k i = s.flow k i := by
  simp only [State.flow, setReg_disp]
@[simp] theorem flow_setFld (s : State) (addr hi lo v : Nat) (k i : Nat) : (s.setFld addr hi lo v).flow k i = s.flow k i := by
  simp only [State.flow, setFld_disp]
@[simp] theorem flow_setFlag (s : State) (addr n : Nat) (v : Bool) (k i : Nat) : (s.setFlag addr n v).flow k i = s.flow k i := by
  simp only [State.flow, setFlag_disp]
@[simp] theorem flow_emit (s : State) (o : Out) (k i : Nat) : (s.emit o).flow k i = s.flow k i := by
  simp only [State.flow, emit_disp]
@[simp] theorem flow_setJob (s : State) (j : Nat) (x : Job) (k i : Nat) : (s.setJob j x).flow k i = s.flow k i := by
  simp only [State.flow, setJob_disp]
@[simp] theorem flow_setSeq (s : State) (g : Nat) (q : Seq) (k i : Nat) : (s.setSeq g q).flow k i = s.flow k i := by
  simp only [State.flow, setSeq_disp]
@[simp] theorem flow_setLane (s : State) (n : Nat) (x : Lane) (k i : Nat) : (s.setLane n x).flow k i = s.flow k i := by
  simp only [State.flow, setLane_disp]
@[simp] theorem flow_setRef (s : State) (n : Nat) (r : Referee) (k i : Nat) : (s.setRef n r).flow k i = s.flow k i := by
  simp only [State.flow, setRef_disp]
@[simp] theorem flow_msix (s : State) (fn vec : Nat) (k i : Nat) : (s.msix fn vec).flow k i = s.flow k i := by
  simp only [State.flow, msix_disp]
@[simp] theorem flow_event (s : State) (source code job : Nat) (detail : List Word) (k i : Nat) : (s.event source code job detail).flow k i = s.flow k i := by
  simp only [State.flow, event_disp]
@[simp] theorem flow_pgErr (s : State) (page code : Nat) (rq : Requester) (off : Nat) (k i : Nat) : (s.pgErr page code rq off).flow k i = s.flow k i := by
  simp only [State.flow, pgErr_disp]
@[simp] theorem flow_pgErrSelf (s : State) (page code off : Nat) (k i : Nat) : (s.pgErrSelf page code off).flow k i = s.flow k i := by
  simp only [State.flow, pgErrSelf_disp]
@[simp] theorem flow_bufWrite (s : State) (r : Ring) (addr : Nat) (bs : List Byte) (k i : Nat) : (s.bufWrite r addr bs).flow k i = s.flow k i := by
  simp only [State.flow, bufWrite_disp]
@[simp] theorem flow_complete (s : State) (c : Call) (op status detail : Nat) (result : List Byte) (k i : Nat) : (s.complete c op status detail result).flow k i = s.flow k i := by
  simp only [State.flow, complete_disp]
@[simp] theorem flow_reply (s : State) (c : Call) (op status : Nat) (k i : Nat) : (s.reply c op status).flow k i = s.flow k i := by
  simp only [State.flow, reply_disp]
@[simp] theorem flow_answer (s : State) (c : Call) (op addr : Nat) (bs : List Byte) (detail : Nat) (result : List Byte) (k i : Nat) : (s.answer c op addr bs detail result).flow k i = s.flow k i := by
  simp only [State.flow, answer_disp]

end Sys2Proof.Machine.State
end

