-- ==== Sys2Proof/Safety.lean ====
section
/-! DEFINITION. What holds of a sound state: what every command keeps, whatever it does. -/

namespace Sys2Proof.Machine

/-- The parts of a sound state: HBM and host memory in canonical form (addresses strictly rising, no byte that reads as an
unlisted one), the `DEV` page's four transaction slots (R51), at most four requests in the queue of DAP_ACC (R460), and at most
4,096 entries in the event log's SRAM ring (R423). -/
structure SoundParts (hbm hostMem : Sparse Byte) (slots : List TxnSlot) (tap : Tap) (log : List LogEntry) : Prop where
  hbm_wf     : Memory.wf hbm = true
  hostMem_wf : Memory.wf hostMem = true
  four_slots : slots.length = 4
  dap_queue  : tap.queue.length ≤ 4
  log_ring   : log.length ≤ 4096

/-- A sound state. -/
abbrev State.Sound (s : State) : Prop := SoundParts s.hbm s.hostMem s.slots s.tap s.theham.log

end Sys2Proof.Machine
end

