-- ==== Sys2Proof/Certificates/Slice0/Obligations.lean ====
section
/-! DEFINITION. What is claimed of the model: the statements for the provers, and the hypotheses that several of them share. -/

section

open Sys2Proof Sys2Proof.Machine

namespace Sys2Proof.Machine
/-- The state with a unit's effects entered for the edge that ends the position (R59). -/
def State.entered (s : State) (unit : Nat) (xs : List Effect) : State :=
  { s with fab := { s.fab with staged := s.fab.staged ++ [(unit, xs)] } }

/-- Job `j` executes a programmed step in the segment of cluster `cl`, and unit `unit` has not acted in the position. -/
structure State.Executes (s : State) (cl unit j : Nat) : Prop where
  cluster : cl < 4096
  running : (s.seq (cl / 64)).state = .run
  job     : s.jobOfSeg (cl / 64) = some j
  fresh   : s.fab.staged.all (fun u => u.1 != unit) = true
end Sys2Proof.Machine

/-- A step runs the command at the front of the queue on the rest; on an empty queue the block idles (log entry 2). For
every state whose queue is c followed by cs, step answers exec c on the state whose queue is cs. On an empty queue
step answers the same state; that second clause is the model's choice (log entry 2). -/
def Obligations.StepRunsTheFrontCommand : Prop :=
  (∀ (s : State) (c : Instr) (cs : List Instr), s.pending = c :: cs → step s = exec c { s with pending := cs }) ∧
  (∀ s : State, s.pending = [] → step s = .next s)

/-- Every command completes in every state: exec never answers a fault or a refusal. For every command and every state,
exec answers a next state. The block's own errors are register codes, fault records, statuses and events in the state;
where a command's event cannot occur in a state, nothing changes (log entry 4, the model's choice). -/
def Obligations.EveryCommandAnswersANextState : Prop := ∀ (c : Instr) (s : State), ∃ t, exec c s = .next t

/-- NOP, EVAL, SHIFT and LOAD: the effects each enters for the end of the step. For a Boolean processor of a segment in
RUN whose job executes a step and which has not acted in the position: with opcode NOP the effects entered are those
of the instruction-store read alone; with EVAL the look-up table's bit for the operands goes to the data store at k
plus the result offset when WRM.we is set and to the network when send is set; with SHIFT and WRM.adv it also goes to
address m modulo 1024; with LOAD the bit of the scatter bus is written at the result address and, where address field
A lies from 0x400 to 0x7BF, at that address too. Nothing else of the state changes before the edge. -/
def Obligations.BooleanProcessorRowsEnterTheirEffects : Prop :=
  ∀ (s : State) (cl bp j : Nat), bp < 64 → s.Executes cl (bpUnit cl bp) j →
    let q := s.seq (cl / 64)
    let w := s.bpWord cl bp q.k
    let ds := (cl * 64 + bp) * 2048
    let a := effAddr w (s.operandOfs (cl / 64) w) 0
    let read := s.istoreEffects j cl bp q.k
    let lut := (s.fnTable cl w.fn).testBit (s.tableIndex j cl bp (s.operandOfs (cl / 64) w) w)
    let bus := (s.scatter cl (s.job j).e (s.control cl q.k)).getLsbD bp
    let result := fun (r : Bool) => if w.we then [Effect.setDs (ds + (q.k + q.rofs) % 1024) r] else []
    let send := fun (r : Bool) => if w.send then [Effect.send (cl * 32 + w.port) r] else []
    (w.opc = 0 → exec (.nop cl bp) s = .next (s.entered (bpUnit cl bp) read)) ∧
    (w.opc = 1 → exec (.eval cl bp) s = .next (s.entered (bpUnit cl bp) (read ++ (result lut ++ send lut)))) ∧
    (w.opc = 2 → exec (.shift cl bp) s = .next (s.entered (bpUnit cl bp)
      (read ++ ((if w.adv then [Effect.setDs (ds + (s.job j).m % 1024) lut] else []) ++ result lut ++ send lut)))) ∧
    (w.opc = 3 → exec (.load cl bp) s = .next (s.entered (bpUnit cl bp)
      (read ++ (result bus ++ (if 0x400 ≤ a ∧ a < 0x7C0 then [Effect.setDs (ds + a) bus] else []) ++ send bus))))

/-- ADD64, MUL32, CMUL16, MAC48, NORM64, EXPX and CLZ64: what issuing each enters for the end of the position. For a
cluster of a segment in RUN whose control word holds the operation, executing the row enters the operation with its
operand pair as it stood before the position, its option, its position, and for the one-step operations the result; it
counts the operation and marks its opcode as used. Nothing else changes before the edge. -/
def Obligations.WauIssueRowsEnterTheirEffects : Prop :=
  ∀ (s : State) (cl op j : Nat), s.Executes cl (clUnit cl op) j →
    let cw := s.control cl (s.seq (cl / 64)).k
    let a := s.opReg cl (2 * (cw.opnd / 2 % 4))
    let b := s.opReg cl (2 * (cw.opnd / 2 % 4) + 1)
    let issue := fun (res : Option Dword) => s.entered (clUnit cl op)
      [.wauIssue cl ⟨op, cw.opnd, (s.job j).e, a, b, res⟩, .cycAdd (cl * 16 + 1) 1, .cycOr (cl * 16 + 2) (2 ^ op)]
    cw.wauOp = op →
    (op = 1 → exec (.add64 cl) s = .next (issue (some (if cw.opnd % 2 = 1 then a - b else a + b)))) ∧
    (op = 2 → exec (.mul32 cl) s = .next (issue none)) ∧
    (op = 3 → exec (.cmul16 cl) s = .next (issue none)) ∧
    (op = 4 → exec (.mac48 cl) s = .next (issue none)) ∧
    (op = 5 → exec (.norm64 cl) s = .next (issue none)) ∧
    (op = 6 → exec (.expx cl) s = .next (issue (some (expxResult cw.opnd a b)))) ∧
    (op = 7 → exec (.clz64 cl) s = .next (issue (some (clz64Result cw.opnd a))))

/-- WAU_RESULT forms the results of MUL32, CMUL16, MAC48 and NORM64 at the edge before they are presented. For a segment
in RUN or PAD, WAU_RESULT enters, for each operation in the pipe without a result whose latency ends with the next
position, the result and, where the operation writes operand B, that write; MAC48 takes the accumulator as it stands
at this position. -/
def Obligations.WauResultRowFormsResults : Prop :=
  ∀ (s : State) (cl j : Nat), cl < 4096 → (s.seq (cl / 64)).state = .run ∨ (s.seq (cl / 64)).state = .pad →
    s.jobOfSeg (cl / 64) = some j → s.fab.staged.all (fun u => u.1 != clUnit cl 8) = true →
    ∃ xs, exec (.wauResult cl) s = .next (s.entered (clUnit cl 8) xs) ∧
      ∀ o ∈ Sparse.get [] s.fab.pipe cl, o.res = none → o.pos + wauLatency o.op = (s.job j).e + 1 →
        let acc := s.opReg cl (2 * (o.opnd / 2 % 4) + 1)
        let setB := fun (v : Dword) => Effect.setOr (cl * 8 + 2 * (o.opnd / 2 % 4) + 1) v
        (o.op = 2 → .wauDone cl o.pos (mul32Result o.opnd o.a) ∈ xs) ∧
        (o.op = 3 → .wauDone cl o.pos (cmul16Result o.opnd o.a).1 ∈ xs ∧ setB (cmul16Result o.opnd o.a).2 ∈ xs) ∧
        (o.op = 4 → .wauDone cl o.pos (mac48Result o.opnd o.a acc) ∈ xs ∧ setB (mac48Result o.opnd o.a acc) ∈ xs) ∧
        (o.op = 5 → .wauDone cl o.pos (norm64Result o.opnd o.a).1 ∈ xs ∧ setB (norm64Result o.opnd o.a).2 ∈ xs)

/-- Bank reads and writes, WAU port reads and WAU loads: the effects each enters for the end of the position. For a
segment in RUN whose control word asks for it: a static-port read, a gather write or a result write of bank b at the
static address; a WAU-port read of the bank at the OCR address into the selected operand register; a load of the
selected operand register from the gather bus, the WAU result or the return data of the selected queue. While staged
release holds writes back and the clear was not in bulk, a bank write enters no write (R238). Each bank access counts. -/
def Obligations.BankAndLoadRowsEnterTheirEffects : Prop :=
  ∀ (s : State) (cl b j unit : Nat), b < 4 → s.Executes cl unit j →
    let cw := s.control cl (s.seq (cl / 64)).k
    let w := s.staticAddr cl cw b
    let x := s.ocr cl (b + 4)
    let off := !(s.job j).bulk && decide ((s.job j).stage < 2)
    let count := Effect.cycAdd (cl * 16 + 3) 1
    (unit = clUnit cl (13 + b) → cw.bankOp.getD b 0 = 1 →
      exec (.bankRead cl b) s = .next (s.entered unit (count :: s.bankReadEffects j (cl * 4 + b) w 0))) ∧
    (unit = clUnit cl (17 + b) → cw.bankOp.getD b 0 = 2 →
      exec (.bankWriteGather cl b) s =
        .next (s.entered unit (count :: if off then [] else [.bankWrite (cl * 4 + b) w (s.gather j (cl / 64) cl)]))) ∧
    (unit = clUnit cl (21 + b) → cw.bankOp.getD b 0 = 3 →
      exec (.bankWriteResult cl b) s =
        .next (s.entered unit (count :: if off then [] else [.bankWrite (cl * 4 + b) w (s.wauResult cl (s.job j).e)]))) ∧
    (unit = clUnit cl (9 + b) → cw.ldSrc = 3 + b →
      exec (.wauPortRead cl b) s = .next (s.entered unit (s.bankReadEffects j (cl * 4 + b) x 1 ++
        [.setOr (cl * 8 + cw.ldDst) ((s.bankRead (cl * 4 + b) x).1).delivered, count]))) ∧
    (unit = clUnit cl 0 → cw.ldSrc = 1 →
      exec (.wauLoad cl) s = .next (s.entered unit [.setOr (cl * 8 + cw.ldDst) (s.gather j (cl / 64) cl)])) ∧
    (unit = clUnit cl 0 → cw.ldSrc = 2 →
      exec (.wauLoad cl) s = .next (s.entered unit [.setOr (cl * 8 + cw.ldDst) (s.wauResult cl (s.job j).e)])) ∧
    (unit = clUnit cl 0 → cw.ldSrc = 7 →
      exec (.wauLoad cl) s = .next (s.entered unit [.setOr (cl * 8 + cw.ldDst) (s.returnData cl cw.waitQ)]))

/-- Queue issues, waits and return takes: the effects each enters for the end of the position. For a segment in RUN: an
issue on a queue with fewer than 16 entries enters a read or a write at the address formed from the queue's base, size
mask and index (the gather bus in mode 1, else m times seq_step plus the issues of this design cycle), a write
carrying the eight operand registers; a wait frees the completed writes it covers; a return take of a word that reads
without error takes that word. -/
def Obligations.QueueRowsEnterTheirEffects : Prop :=
  ∀ (s : State) (cl j unit : Nat), s.Executes cl unit j →
    let cw := s.control cl (s.seq (cl / 64)).k
    let q := s.mq cl cw.issueQ
    let cfg := s.mqCfg cl cw.issueQ
    let idx := if natBit cfg 5 then natBits (s.gather j (cl / 64) cl).toNat 31 0 else (s.job j).m * natBits cfg 31 16 + q.issued
    let addr := natBits (s.mqBase cl cw.issueQ) 27 0 * 64 + (idx % 2 ^ natBits cfg 4 0) * 64
    let off := !(s.job j).bulk && decide ((s.job j).stage < 2)
    let w := s.mq cl cw.waitQ
    (unit = clUnit cl 25 → cw.issueKind = 1 → q.entries.length < 16 →
      exec (.mqIssueRead cl) s = .next (s.entered unit [.mqIssue cl cw.issueQ false addr (s.job j).e [] false])) ∧
    (unit = clUnit cl 26 → cw.issueKind = 2 → q.entries.length < 16 →
      exec (.mqIssueWrite cl) s = .next (s.entered unit [.mqIssue cl cw.issueQ true addr (s.job j).e
        ((List.range 8).flatMap (fun i => leBytes 8 (s.opReg cl i).toNat)) off])) ∧
    (unit = clUnit cl 27 → cw.waitEn = true →
      exec (.mqWait cl) s = .next (s.entered unit ((w.entries.filter (fun x =>
        x.write && x.state == .complete && decide (x.ord + cw.waitCount < w.issued))).map
          (fun x => .mqFree cl cw.waitQ x.slot)))) ∧
    (unit = clUnit cl 28 → cw.ldSrc = 7 ∨ cw.scat = 6 → ∀ x c, s.returnRead cl cw.waitQ = some (x, c) → c.syn = 0 → c.ue = false →
      exec (.mqReturnTake cl) s = .next (s.entered unit [.mqTake cl cw.waitQ]))

/-- Effects of a position are applied in order, each at the one place it names and nowhere else. Applying a list of
effects applies them one after another. A data-store effect writes that bit and no other state, an operand-register
effect that register and no other state, and a bank write stores the word with its check bits, marks its dirty region
and changes nothing else but the words awaiting write-back. -/
def Obligations.EffectsLandTogetherAtTheEdge : Prop :=
  (∀ (s : State) (xs : List Effect) (x : Effect), applyAll s (xs ++ [x]) = applyEffect (applyAll s xs) x) ∧
  (∀ (s : State) (k i : Nat) (v : Bool), let t := applyEffect s (.setDs k v)
    Sparse.get false t.fab.ds i = (if i = k then v else Sparse.get false s.fab.ds i) ∧
    t = { s with fab := { s.fab with ds := t.fab.ds } }) ∧
  (∀ (s : State) (k i : Nat) (v : Dword), let t := applyEffect s (.setOr k v)
    Sparse.get 0 t.fab.ors i = (if i = k then v else Sparse.get 0 s.fab.ors i) ∧
    t = { s with fab := { s.fab with ors := t.fab.ors } }) ∧
  (∀ (s : State) (bank w i : Nat) (v : Dword), let t := applyEffect s (.bankWrite bank w v)
    Sparse.get 0 t.fab.mb i = (if i = bank * 4096 + w then secded72 v else Sparse.get 0 s.fab.mb i) ∧
    (Sparse.get 0 t.fab.dirty bank).getLsbD (w / 128 % 32) = true ∧
    t = { s with fab := { s.fab with mb := t.fab.mb, dirty := t.fab.dirty, mbWb := t.fab.mbWb } })

namespace Sys2Proof.Machine
/-- A write access of `rq` reaches the register at `addr`, `rq` may write it, and it waits for no posted write of its function (R37, R41,
R363). -/
structure State.Reaches (s : State) (rq : Requester) (addr : Nat) : Prop where
  turn   : s.behind rq = false
  core   : rq = .uc → s.ucReaches addr true = true
  mapped : s.accessFault rq addr = none
  writer : s.writerFault rq addr = none

/-- Such a write takes effect at once: the register's page is not frozen (R469). -/
structure State.Admits (s : State) (rq : Requester) (addr : Nat) : Prop extends State.Reaches s rq addr where
  thawed : (s.page (addr / 0x1000)).frozen = false

/-- A read access of `rq` reaches the register at `addr`, and waits for no posted write of its function (R37, R363). -/
structure State.Reads (s : State) (rq : Requester) (addr : Nat) : Prop where
  turn   : s.behind rq = false
  core   : rq = .uc → s.ucReaches addr false = true
  mapped : s.accessFault rq addr = none
end Sys2Proof.Machine

/-- SEQUENCER_STEP and PAD_STEP: every active segment of the job advances one step together. For a job before the last
executed position with no hold to decide at the next one, SEQUENCER_STEP of a segment in RUN and PAD_STEP of a segment
in PAD answer a state in which e is one more, m is the same, each active segment of the job stands where the repeat
rules take it (in PAD once it has reached S), and every other segment's sequencer is unchanged. -/
def Obligations.SequencerAndPadStepsAdvance : Prop :=
  ∀ (s : State) (seg j : Nat), s.jobOfSeg seg = some j → (s.job j).e + 1 < (s.job j).len →
    (s.job j).holdAt ≠ some ((s.job j).e + 1) →
    let advanced := fun (t : State) => (t.job j).e = (s.job j).e + 1 ∧ (t.job j).m = (s.job j).m ∧
      (∀ g ∈ s.activeSegs j, t.seq g = (s.seq g).advance.going) ∧ ∀ g, g ∉ s.activeSegs j → t.seq g = s.seq g
    ((s.seq seg).state = .run → ∃ t, exec (.sequencerStep seg) s = .next t ∧ advanced t) ∧
    ((s.seq seg).state = .pad → ∃ t, exec (.padStep seg) s = .next t ∧ advanced t)

/-- HOLD_STEP leaves the design state, lanes, HBM and host memory of the package unchanged. For a job whose lead segment
is in HOLD and whose hold does not end with this step, HOLD_STEP changes, of the fabric, only the hold counts of the
job's segments in HOLD, each by one, and the instruction-store write-backs that are pending (R83); with none pending,
the stores stay as they were; m and e, HBM, host memory and the lanes stay as they were. A held position is no
executed position; the inference is the model's reading of R101 (log entry 5). -/
def Obligations.HoldStepLeavesTheDesignUnchanged : Prop :=
  ∀ (s : State) (j : Nat), (s.seq (s.job j).lead).state = .hold → (s.job j).state ≠ .free →
    ¬ ((s.job j).block = 15 ∧ (s.job j).lastBlk = true) →
    ∃ t, exec (.holdStep j) s = .next t ∧
      t.fab = { s.fab with seqs := t.fab.seqs, cfg := t.fab.cfg, istoreWb := t.fab.istoreWb } ∧
      (s.fab.istoreWb = [] → t.fab.cfg = s.fab.cfg ∧ t.fab.istoreWb = []) ∧
      (t.job j).m = (s.job j).m ∧ (t.job j).e = (s.job j).e ∧ t.hbm = s.hbm ∧ t.hostMem = s.hostMem ∧ t.lanes = s.lanes ∧
      ∀ g, g < 64 → t.seq g =
        if (s.job j).mask.getLsbD g = true ∧ (s.seq g).state = .hold then { s.seq g with holdCount := (s.seq g).holdCount + 1 }
        else s.seq g

/-- Repeat bodies: entering saves the offsets, an iteration adds the strides, the last iteration restores them. Where a
descriptor starts at step k at the next level, entering pushes it with iteration 0 and the offsets. Leaving a step
outside every body, or inside a body that does not end there, goes to k + 1. At a body's end, an iteration before the
last adds the descriptor's increments to OFS (mod 1024), rofs (mod 1024) and OCR (mod 4096) and returns to its first
step; the last pops it and restores the saved offsets. A sequencer with k = S and an empty stack stays and is in PAD. -/
def Obligations.RepeatStackRules : Prop :=
  (∀ (n : Nat) (q : Seq) (d : Nat), q.descAt = some d →
    Seq.enter (n + 1) q = Seq.enter n { q with stack := ⟨d, 0, q.ofs, q.rofs, q.ocr⟩ :: q.stack }) ∧
  (∀ (n : Nat) (q : Seq), q.stack = [] → Seq.leave n q = { q with k := q.k + 1 }) ∧
  (∀ (n : Nat) (q : Seq) (f : Frame) (fs : List Frame), q.stack = f :: fs →
    let d := q.desc f.desc
    (d.stop ≠ q.k → Seq.leave n q = { q with k := q.k + 1 }) ∧
    (d.stop = q.k → f.iter < d.countM1 → Seq.leave (n + 1) q =
      { q with stack := { f with iter := f.iter + 1 } :: fs, k := d.start, rofs := (q.rofs + d.rstride) % 1024
               ofs := List.zipWith (fun x y => (x + y) % 1024) q.ofs d.dOfs
               ocr := List.zipWith (fun x y => (x + y) % 4096) q.ocr d.dOcr }) ∧
    (d.stop = q.k → d.countM1 ≤ f.iter →
      Seq.leave (n + 1) q = Seq.leave n { q with stack := fs, ofs := f.ofs, rofs := f.rofs, ocr := f.ocr })) ∧
  (∀ q : Seq, q.k = q.cycLen → q.stack = [] → q.advance = q ∧ q.going.state = .pad)

/-- The WAU results are the exact integers that the rules give, option by option. ADD64 is the sum or difference mod 2^64.
MUL32 is the exact unsigned or two's-complement product. CMUL16 gives the real and imaginary parts as exact integers,
with and without conjugation. MAC48 adds the unsigned or signed 24-bit product to the low 48 bits of the accumulator
mod 2^48, filled with zeros or sign copies. CLZ64 is the count of leading zeros, of the inverse for option 1; NORM64
option 0 shifts by that count; option 1 keeps the value times a power of two with bit 62 unlike bit 63. -/
def Obligations.WauArithmeticIsExact : Prop :=
  (∀ (a b : Dword), add64Result 0 a b = a + b ∧ add64Result 1 a b = a - b) ∧
  (∀ a : Dword, (mul32Result 0 a).toNat = (a.toNat % 2 ^ 32) * (a.toNat / 2 ^ 32)) ∧
  (∀ a : Dword, (mul32Result 1 a).toInt = (a.setWidth 32).toInt * ((a >>> 32).setWidth 32).toInt) ∧
  (∀ a : Dword, let xr := (a.setWidth 16).toInt; let xi := ((a >>> 16).setWidth 16).toInt
    let yr := ((a >>> 32).setWidth 16).toInt; let yi := ((a >>> 48).setWidth 16).toInt
    (cmul16Result 0 a).1.toInt = xr * yr - xi * yi ∧ (cmul16Result 0 a).2.toInt = xr * yi + xi * yr ∧
    (cmul16Result 1 a).1.toInt = xr * yr + xi * yi ∧ (cmul16Result 1 a).2.toInt = xi * yr - xr * yi) ∧
  (∀ a acc : Dword, (mac48Result 0 a acc).toNat =
    ((a.toNat % 2 ^ 24) * (a.toNat / 2 ^ 24 % 2 ^ 24) + acc.toNat % 2 ^ 48) % 2 ^ 48) ∧
  (∀ a acc : Dword, mac48Result 1 a acc =
    ((BitVec.ofInt 48 ((a.setWidth 24).toInt * ((a >>> 24).setWidth 24).toInt) + acc.setWidth 48).signExtend 64)) ∧
  (∀ a : Dword, a ≠ 0 → let n := (clz64Result 0 a).toNat
    n < 64 ∧ 2 ^ (63 - n) ≤ a.toNat ∧ a.toNat < 2 ^ (64 - n) ∧ clz64Result 1 (~~~a) = clz64Result 0 a ∧
    norm64Result 0 a = (a <<< n, clz64Result 0 a) ∧ (norm64Result 0 a).1.getLsbD 63 = true) ∧
  (clz64Result 0 0 = 64 ∧ norm64Result 0 0 = (0, 64)) ∧
  (∀ a : Dword, a ≠ 0 → a ≠ -1 → (norm64Result 1 a).1.toInt = a.toInt * 2 ^ (norm64Result 1 a).2.toNat ∧
    (norm64Result 1 a).1.getLsbD 62 ≠ (norm64Result 1 a).1.getLsbD 63)

/-- Both SECDED codes correct every single stored bit and report every pair of stored bits as uncorrectable. For the
(72,64) and the (104,96) code and every data word: a read of the encoded word returns it with syndrome 0; with any one
data or check bit inverted it returns the same data, a nonzero syndrome and no uncorrectable error; with any two
stored bits inverted it is uncorrectable. -/
def Obligations.SecdedCorrectsOneBitAndDetectsTwo : Prop :=
  ∀ k, k = 64 ∨ k = 96 → ∀ data, data < 2 ^ k →
    let check := secdedCheck k data
    secdedRead k data check = ⟨data, 0, false⟩ ∧
    (∀ i, i < k → (secdedRead k (data ^^^ 2 ^ i) check).data = data ∧ (secdedRead k (data ^^^ 2 ^ i) check).ue = false ∧
      (secdedRead k (data ^^^ 2 ^ i) check).syn ≠ 0) ∧
    (∀ i, i < 8 → (secdedRead k data (check ^^^ 2 ^ i)).data = data ∧ (secdedRead k data (check ^^^ 2 ^ i)).ue = false ∧
      (secdedRead k data (check ^^^ 2 ^ i)).syn ≠ 0) ∧
    (∀ i j, i < j → j < k → (secdedRead k (data ^^^ 2 ^ i ^^^ 2 ^ j) check).ue = true) ∧
    (∀ i j, i < k → j < 8 → (secdedRead k (data ^^^ 2 ^ i) (check ^^^ 2 ^ j)).ue = true) ∧
    (∀ i j, i < j → j < 8 → (secdedRead k data (check ^^^ 2 ^ i ^^^ 2 ^ j)).ue = true)

/-- Dynamic-port read, write, masked write, ADD and SWAP: what each returns and stores, busy or free. On a bank that
answers, with no request or write-back waiting there and a word that reads without error, for a requester that is not
a host access: where the fabric does not use the bank in the position, or the cycle is free of it, a read returns the
word; a write stores the operand; a masked write replaces the bytes whose mask bit is 1; ADD stores the sum mod 2^64
and returns the old word; SWAP stores the operand and returns the old word. In a cycle with a fabric access of a kind
that the request uses, it waits, has lost one cycle, and the stall counter counts; one of the other kind is served, a
write of the word that the fabric reads having the units that took it take the new data, but a read of the word that
the fabric writes waits to be performed behind it. MB_DYN_RETRY serves a waiting request of any kind, with the result
and store above, where the fabric does not use the bank, or the request has lost no cycle in this position and the
cycle is free, of the other kind, or the bound of lost cycles is reached; else it loses another cycle. -/
def Obligations.DynamicPortRequestsAreServedAtomically : Prop :=
  ∀ (s : State) (src : DynSrc) (bank w : Nat) (old v : Dword) (mask : BitVec 8) (busy : Bool), bank < 16384 → w < 4096 →
    (∀ fn, src ≠ .host fn) → s.bankStatus bank = .ok → s.bankClearing bank = false → s.access = [] →
    s.fab.dyn.any (fun x => x.bank == bank) = false → s.fab.mbWb.all (fun x => x.bank != bank) = true →
    Sparse.get {} s.fab.dynWait bank = {} → s.bankRead bank w = (⟨old.toNat, 0, false⟩, false) →
    let bytes := BitVec.ofNat 64 (leNat ((List.range 8).map (fun i =>
      if mask.getLsbD i then BitVec.ofNat 8 (v.toNat / 256 ^ i) else BitVec.ofNat 8 (old.toNat / 256 ^ i))))
    let returns := fun (k : DynKind) => match k with
      | .write _ | .masked _ _ => (0 : Dword)
      | _ => old
    let leaves := fun (k : DynKind) => match k with
      | .read => s
      | .write d | .swap d => s.bankStore bank w d
      | .masked _ _ => s.bankStore bank w bytes
      | .add d => s.bankStore bank w (old + d)
    let answered := fun (k : DynKind) =>
      { leaves k with fab := { (leaves k).fab with resp := s.fab.resp ++ [⟨src, bank, w, returns k, .ok⟩] } }
    let waiting := fun (k : DynKind) (d : DynWait) =>
      { s with fab := { s.fab with dyn := s.fab.dyn ++ [⟨src, bank, w, k, false⟩], dynWait := Sparse.set {} s.fab.dynWait bank d } }
    let lost := fun (k : DynKind) => (waiting k ⟨1, true, false⟩).bump (fabcAt (bank / 4) 0x198) 31 0 1
    let again := fun (u : Nat) => u / 128 == bank / 4 && (u % 128 < 64 || u == clUnit (bank / 4) (9 + bank % 4) ||
      u == clUnit (bank / 4) (13 + bank % 4))
    let rows := fun (t : DynKind → State) (ks : List DynKind) =>
      (.read ∈ ks → exec (.mbDynRead src bank w busy) s = .next (t .read)) ∧
      (.write v ∈ ks → exec (.mbDynWrite src bank w v busy) s = .next (t (.write v))) ∧
      (.masked v mask ∈ ks → exec (.mbDynMaskedWrite src bank w v mask busy) s = .next (t (.masked v mask))) ∧
      (.add v ∈ ks → exec (.mbDynAdd src bank w v busy) s = .next (t (.add v))) ∧
      (.swap v ∈ ks → exec (.mbDynSwap src bank w v busy) s = .next (t (.swap v)))
    (busy = false ∨ s.fabricUse bank = none → rows answered [.read, .write v, .masked v mask, .add v, .swap v]) ∧
    (∀ a, busy = true → s.fabricUse bank = some (false, a) →
      rows lost [.read, .masked v mask, .add v, .swap v] ∧ (a ≠ w → rows answered [.write v]) ∧
      (a = w → rows (fun k => { answered k with fab := { (answered k).fab with
        staged := s.fab.staged.filter (fun u => !again u.1) } }) [.write v])) ∧
    (∀ a, busy = true → s.fabricUse bank = some (true, a) →
      rows lost [.write v, .masked v mask, .add v, .swap v] ∧
      (a ≠ w → rows answered [.read]) ∧ (a = w → rows (fun k => waiting k ⟨0, false, true⟩) [.read])) ∧
    (∀ (k : DynKind) (d : DynWait), k ∈ [.read, .write v, .masked v mask, .add v, .swap v] →
      (s.fabricUse bank = none ∨ (d.due = false ∧ d.behind = false ∧ (busy = false ∨
        ∃ u, s.fabricUse bank = some u ∧ u ≠ (true, w) ∧ (k.uses u.1 = false ∨ s.dynBound ≤ d.lost))) →
        ∃ t, exec (.mbDynRetry bank busy) (waiting k d) = .next t ∧ t.fab.resp = (answered k).fab.resp ∧ t.fab.mb = (answered k).fab.mb ∧
          t.fab.dirty = (answered k).fab.dirty ∧ t.fab.dyn = s.fab.dyn ∧ t.regs = s.regs) ∧
      (∀ u, busy = true → s.fabricUse bank = some u → d.due = false → k.uses u.1 = true → d.lost < s.dynBound →
        ∃ t, exec (.mbDynRetry bank busy) (waiting k d) = .next t ∧ t.fab.dyn = (waiting k d).fab.dyn ∧ t.fab.mb = s.fab.mb ∧
          t.fab.resp = s.fab.resp ∧ Sparse.get {} t.fab.dynWait bank = ⟨d.lost + 1, true, false⟩ ∧
          t.fld (fabcAt (bank / 4) 0x198) 31 0 = min 4294967295 (s.fld (fabcAt (bank / 4) 0x198) 31 0 + 1)))

/-- Write-backs rewrite a corrected word; the injection registers arm. MB_ECC_WRITEBACK of a word that reads with no
uncorrectable error, in a bank not in clear mode, stores its corrected data with fresh check bits, drops the pending
write-back and changes no other bank word and no register. ISTORE_WRITEBACK of an entry that reads with a correctable
error rewrites its 12 bytes and its check bits as corrected and no other byte, drops the pending write-back, counts
one correction (saturating) and records its place and syndrome. A write of an injection register with a bit number in
range stores its fields and changes nothing else; with arm set, the read of the selected entry or word then finds the
stored bits with the selected bit, and with double the next one modulo the word's length, inverted, as an injection
made; every other entry's read finds none. -/
def Obligations.EccRowsRewriteAndArm : Prop :=
  (∀ (s : State) (x : MbWb), s.fab.mbWb.find? (fun y => y.bank == x.bank) = some x → s.bankClearing x.bank = false →
    let r := secdedRead72 (Sparse.get 0 s.fab.mb (x.bank * 4096 + x.word)) 0
    r.ue = false → ∃ t, exec (.mbEccWriteback x.bank) s = .next t ∧
      Sparse.get 0 t.fab.mb (x.bank * 4096 + x.word) = secded72 (BitVec.ofNat 64 r.data) ∧ t.fab.mbWb = s.fab.mbWb.erase x ∧
      (∀ i, i ≠ x.bank * 4096 + x.word → Sparse.get 0 t.fab.mb i = Sparse.get 0 s.fab.mb i) ∧ t.regs = s.regs) ∧
  (∀ (s : State) (x : IstoreWb), s.fab.istoreWb.find? (fun y => y.cl == x.cl && y.bp == x.bp && y.entry == x.entry) = some x →
    let at_ := istoreAt x.cl x.bp x.entry
    let r := secdedRead 96 (Sparse.num s.fab.cfg at_.1 12) (Sparse.num s.fab.cfg at_.2 1)
    x.entry < 1024 → r.ue = false → r.syn ≠ 0 →
    ∃ t, exec (.istoreWriteback x.cl x.bp x.entry) s = .next t ∧ t.fab.istoreWb = s.fab.istoreWb.erase x ∧
      Sparse.num t.fab.cfg at_.1 12 = r.data ∧ Sparse.num t.fab.cfg at_.2 1 = secdedCheck 96 r.data ∧
      (∀ a, a < at_.1 ∨ at_.1 + 12 ≤ a → a ≠ at_.2 → Sparse.get 0 t.fab.cfg a = Sparse.get 0 s.fab.cfg a) ∧
      t.fld (fabcAt x.cl 0x40) 15 0 = min 65535 (s.fld (fabcAt x.cl 0x40) 15 0 + 1) ∧
      t.reg (fabcAt x.cl 0x44) = BitVec.ofNat 32 (x.bp + x.entry * 2 ^ 6 + x.syn * 2 ^ 16 + 2 ^ 31)) ∧
  (∀ (s : State) (rq : Requester) (cl : Nat) (v : Word), cl < 4096 →
    let armed := fun (off : Nat) (mask : Word) => (s.crossReg rq (fabcAt cl off) true).setReg (fabcAt cl off) ((s.reg (fabcAt cl off) &&& ~~~mask) ||| (v &&& mask))
    let on := v.getLsbD 31
    let flip := fun (n bit : Nat) (double : Bool) => 2 ^ bit ^^^ (if double = true then 2 ^ ((bit + 1) % n) else 0)
    let stored := fun (p : Nat × Nat) (n : Nat) => Sparse.num s.fab.cfg p.1 n + Sparse.num s.fab.cfg p.2 1 * 2 ^ (8 * n)
    let found := fun (k u : Nat) => (secdedRead k (natBits u (k - 1) 0) (natBits u (k + 7) k), true)
    let f := fun (hi lo : Nat) => natBits v.toNat hi lo
    (s.Admits rq (fabcAt cl 0x58) → f 22 16 ≤ 103 → let t := armed 0x58 0x80FFFFFF
      exec (.bpEccInject rq cl v) s = .next t ∧ (on = true →
        t.istoreRead cl (f 5 0) (f 15 6) = found 96 (stored (istoreAt cl (f 5 0) (f 15 6)) 12 ^^^ flip 104 (f 22 16) (v.getLsbD 23)) ∧
        ∀ b k, (b, k) ≠ (f 5 0, f 15 6) → (t.istoreRead cl b k).2 = false)) ∧
    (s.Admits rq (fabcAt cl 0x88) → f 16 10 ≤ 71 → let t := armed 0x88 0x8003FFFF
      exec (.cwEccInject rq cl v) s = .next t ∧ (on = true →
        t.cstoreRead cl (f 9 0) = found 64 (stored (cstoreAt cl (f 9 0)) 8 ^^^ flip 72 (f 16 10) (v.getLsbD 17)) ∧
        ∀ k, k ≠ f 9 0 → (t.cstoreRead cl k).2 = false)) ∧
    (s.Admits rq (fabcAt cl 0x108) → f 20 14 ≤ 71 → let t := armed 0x108 0x803FFFFF
      exec (.netEccInject rq cl v) s = .next t ∧ (on = true →
        t.slotRead cl (f 9 0) (f 13 10) =
          found 64 (stored (slotAt cl (f 9 0) (f 13 10)) 8 ^^^ flip 72 (f 20 14) (v.getLsbD 21)) ∧
        ∀ k w, (k, w) ≠ (f 9 0, f 13 10) → (t.slotRead cl k w).2 = false)) ∧
    (s.Admits rq (fabcAt cl 0x194) → f 20 14 ≤ 71 → let t := armed 0x194 0x803FFFFF
      exec (.mbEccInject rq cl v) s = .next t ∧ (on = true →
        let bank := cl * 4 + f 13 12
        t.bankRead bank (f 11 0) =
          (secdedRead72 (Sparse.get 0 s.fab.mb (bank * 4096 + f 11 0)) (flip 72 (f 20 14) (v.getLsbD 21)), true) ∧
        ∀ b w, b < 4 → (b, w) ≠ (f 13 12, f 11 0) → (t.bankRead (cl * 4 + b) w).2 = false)))

/-- Register accesses: an interrupt-enable write, a bad width, RC reads, 64-bit copies, order, frozen pages, debug reads,
unmapped pages, pair timeouts. An access counts its flits on its way. A write of PG_IRQ_EN stores the word. A write of
a width other than 32 or 64 sets BAD_WIDTH. A function's access behind its own posted write waits; a write to a frozen
page waits for the page. A read of the RC counter FABC_BP_ECC_CNT returns it, clears its count and changes no other
register. A read of the low word of FABS_CYCLE returns it and holds the high word for the requester. A debug read
changes no register. An access to an unmapped page or one in a domain that is off records its code and DEV_ERR_ADDR;
one of the user core outside its reach faults it. A pair timeout drops the partly written group, records PAIR_TIMEOUT
and raises its cause. -/
def Obligations.RegisterAccessRows : Prop :=
  (∀ (s : State) (rq : Requester) (page : Nat) (v : Word), s.Admits rq (hdr page 0x14) →
    exec (.regWrite rq (hdr page 0x14) 32 (v.setWidth 64)) s = .next ((s.crossReg rq (hdr page 0x14) true).setReg (hdr page 0x14) v)) ∧
  (∀ (s : State) (rq : Requester) (addr width : Nat) (d : Dword), s.Admits rq addr → width ≠ 32 → width ≠ 64 →
    exec (.regWrite rq addr width d) s = .next ((s.crossReg rq addr true).pgErr (addr / 0x1000) 0x000D rq addr)) ∧
  (∀ (s : State) (rq : Requester) (addr width : Nat) (d : Dword), s.behind rq = true →
    ∃ (t : State) (a : HostAccess), exec (.regWrite rq addr width d) s = .next t ∧ a.reg = some (rq, addr, width, d) ∧ a.fn = rqFn rq ∧
      t = { s with access := s.access ++ [a], noc := { s.noc with crossed := s.noc.crossed + 1 } }) ∧
  (∀ (s : State) (rq : Requester) (addr : Nat) (v : Word), s.Reaches rq addr → (s.page (addr / 0x1000)).frozen = true →
    s.txnOf (addr / 0x1000) = none → addr % 4 = 0 → 0x40 ≤ addr % 0x1000 → let p := s.page (addr / 0x1000)
    exec (.regWrite rq addr 32 (v.setWidth 64)) s = .next ((s.crossReg rq addr true).setPage (addr / 0x1000)
      { p with waits := p.waits ++ [.word rq addr v false] })) ∧
  (∀ (s : State) (rq : Requester) (cl : Nat), cl < 4096 → rq ≠ .dbg → s.Reads rq (fabcAt cl 0x40) →
    (∀ h ∈ (s.page (pageNo (fabcAt cl 0x40))).holding, h.1 ≠ rq) →
    ∃ t, exec (.rcRead rq (fabcAt cl 0x40) 32) s = .next t ∧
      t.busRead = some (rq, fabcAt cl 0x40, (s.reg (fabcAt cl 0x40)).setWidth 64) ∧ t.fld (fabcAt cl 0x40) 15 0 = 0 ∧
      ∀ a, a ≠ fabcAt cl 0x40 → t.reg a = s.reg a) ∧
  (∀ (s : State) (rq : Requester) (g j : Nat), g < 64 → s.Reads rq (fabsAt g 0x50) → s.jobOfSeg g = some j →
    (∀ h ∈ (s.page (0x1000 + g * 0x80)).holding, h.1 ≠ rq) → ∃ t, exec (.lowWordRead rq (fabsAt g 0x50)) s = .next t ∧
      t.busRead = some (rq, fabsAt g 0x50, (BitVec.ofNat 32 (s.job j).m).setWidth 64) ∧
      (rq, 0x54, BitVec.ofNat 32 ((s.job j).m / 2 ^ 32)) ∈ (t.page (0x1000 + g * 0x80)).holding) ∧
  (∀ (s : State) (addr : Nat), s.accessFault .dbg addr = none → addr / 0x1000 ≠ 7 →
    ∃ t, exec (.debugRead addr 32) s = .next t ∧ t.regs = s.regs ∧ t.dbg = s.dbg ∧ ∃ v, t.busRead = some (.dbg, addr, v)) ∧
  (∀ (s : State) (addr code : Nat) (write : Bool), s.accessFault .uc addr = some code → s.ucReaches addr write = false →
    ∃ t, exec (.unmappedAccess .uc addr write) s = .next t ∧ t.out = (s.emit .ucFault).out ∧ t.regs = s.regs) ∧
  (∀ (s : State) (rq : Requester) (addr code : Nat) (write : Bool), s.accessFault rq addr = some code →
    (rq = .uc → s.ucReaches addr write = true) → s.behind rq = false → rq.hostSpace addr = false →
    s.fld (hdr 0 0x1C) 15 0 = 0 → ∃ t, exec (.unmappedAccess rq addr write) s = .next t ∧ (code = 0xC ∨ code = 0xE) ∧
      t.fld (hdr 0 0x1C) 15 0 = code ∧ t.reg (PageKind.dev.at 0x48) = BitVec.ofNat 32 (addr % 0x4000000)) ∧
  (∀ (s : State) (page group : Nat) (w : HeldWrite), (s.page page).pairs = [w] → pairGroup w.addr = some group →
    s.fld (hdr page 0x1C) 15 0 = 0 → ∃ t, exec (.pairTimeout page group) s = .next t ∧ (t.page page).pairs = [] ∧
      t.fld (hdr page 0x1C) 15 0 = 3 ∧ t.flag (hdr page 0x10) 1 = true)

/-- Page header: soft reset, enable, interrupt clear and set, error clear; pulses of design lines. PG_CTL.soft_reset puts
every register of the page but PG_OWNER at its Reset value and touches no other page. A write of PG_CTL.enable sets
it. A write of PG_IRQ clears the bits written as 1, and with bit 0 also clears PG_ERR and PG_ERR_INFO. PG_IRQ_SET
raises the cause written. LINE_PULSE adds the 20 pulse bits. -/
def Obligations.PageHeaderRows : Prop :=
  (∀ (s : State) (rq : Requester) (page : Nat), s.Admits rq (hdr page 8) → page ≠ 0 → page ≠ 0xC → s.txnOf page = none →
    (∀ i, pageOf page = some (.ckpt, i) → s.theham.waiting = []) →
    ∃ t, exec (.softReset rq page) s = .next t ∧ t.reg (hdr page 0x38) = s.reg (hdr page 0x38) ∧
      (∀ off, off < 0x1000 → off ≠ 0x38 → t.reg (hdr page off) = resetWord (hdr page off)) ∧
      ∀ a, a / 0x1000 ≠ page → t.reg a = s.reg a) ∧
  (∀ (s : State) (rq : Requester) (page : Nat) (en : Bool), s.Admits rq (hdr page 8) → (en = true ∨ page < 0x1000) →
    ∃ t, exec (.pgEnableWrite rq page en) s = .next t ∧ t.pgEnabled page = en ∧
      t.flag (hdr page 8) 2 = s.flag (hdr page 8) 2) ∧
  (∀ (s : State) (rq : Requester) (page : Nat) (v : Word), s.Admits rq (hdr page 0x10) → page ≠ 7 → v.getLsbD 0 = false →
    exec (.pgIrqClear rq page v) s =
      .next ((s.crossReg rq (hdr page 0x10) true).setReg (hdr page 0x10) (s.reg (hdr page 0x10) &&& ~~~v))) ∧
  (∀ (s : State) (rq : Requester) (page : Nat) (v : Word), s.Admits rq (hdr page 0x10) → page ≠ 0 → v.getLsbD 0 = true →
    ∃ t, exec (.pgIrqClear rq page v) s = .next t ∧ t.reg (hdr page 0x10) = s.reg (hdr page 0x10) &&& ~~~v ∧
      t.reg (hdr page 0x1C) = 0 ∧ t.reg (hdr page 0x20) = 0) ∧
  (∀ (s : State) (rq : Requester) (page i : Nat), s.Admits rq (hdr page 0x18) → i < 32 →
    exec (.pgIrqSet rq page (BitVec.ofNat 32 (2 ^ i))) s = .next ((s.crossReg rq (hdr page 0x18) true).raiseIrq page i)) ∧
  (∀ (s : State) (rq : Requester) (g : Nat) (v : Word), s.Admits rq (fabsAt g 0x1A4) → g < 64 →
    exec (.linePulse rq g v) s = .next ((s.crossReg rq (fabsAt g 0x1A4) true).setReg (fabsAt g 0x1A4) (s.reg (fabsAt g 0x1A4) ||| (v &&& 0xFFFFF))))

/-- Register transactions: begin, commit, roll back and time out, on one page and on the DEV slots. PG_TXN begin opens a
free page's transaction with its opener and timeout (1,000 microseconds for 0); commit by the opener, with nothing at
fault and nothing to wait for, applies the held writes; rollback discards them. DEV_TXN begin makes every listed page
a member; commit applies; rollback frees every page and writes no register. A timeout rolls back, discards the held
writes and records TXN_TIMEOUT. Applying one held write changes the bits it writes and commits. -/
def Obligations.TransactionRows : Prop :=
  (∀ (s : State) (rq : Requester) (page : Nat) (us : BitVec 16), s.Admits rq (hdr page 0x30) → txnCapable page = true →
    (s.page page).txn = .free →
    exec (.pgTxnBegin rq page us) s = .next ((s.crossReg rq (hdr page 0x30) true).setPage page { s.page page with
      txn := .opened, opener := rq, reason := 0, leftUs := if us = 0 then 1000 else us.toNat, held := [], slot := none })) ∧
  (∀ (s : State) (rq : Requester) (page : Nat), s.Admits rq (hdr page 0x30) → (s.page page).txn = .opened →
    (s.page page).opener = rq → s.commitFault (.page page) = none → s.txnWaits (.page page) = false →
    exec (.pgTxnCommit rq page) s = .next ((s.crossReg rq (hdr page 0x30) true).txnApply (.page page))) ∧
  (∀ (s : State) (rq : Requester) (page : Nat), s.Admits rq (hdr page 0x30) → (s.page page).txn = .opened →
    (s.page page).opener = rq →
    exec (.pgTxnRollback rq page) s = .next ((s.crossReg rq (hdr page 0x30) true).setPage page { s.page page with
      txn := .rolledBack, reason := 0, leftUs := 0, held := [] })) ∧
  (∀ (s : State) (rq : Requester) (t : Nat), t < 4 → s.slots.length = 4 → s.Admits rq (devTxnAt t) → s.slotFault rq t = none →
    ∃ u, exec (.devTxnBegin rq t) s = .next u ∧ (u.slotAt t).state = .opened ∧ (u.slotAt t).opener = rq ∧
      (u.slotAt t).pages = s.slotList t ∧ ∀ n ∈ s.slotList t, (u.page n).txn = .member ∧ (u.page n).slot = some t) ∧
  (∀ (s : State) (rq : Requester) (t : Nat), t < 4 → s.Admits rq (devTxnAt t) → (s.slotAt t).state = .opened →
    (s.slotAt t).opener = rq → s.commitFault (.slot t) = none → s.txnWaits (.slot t) = false →
    exec (.devTxnCommit rq t) s = .next ((s.crossReg rq (devTxnAt t) true).txnApply (.slot t))) ∧
  (∀ (s : State) (rq : Requester) (t : Nat), t < 4 → s.slots.length = 4 → s.Admits rq (devTxnAt t) → (s.slotAt t).state = .opened →
    (s.slotAt t).opener = rq → ∃ u, exec (.devTxnRollback rq t) s = .next u ∧ (u.slotAt t).state = .rolledBack ∧
      (∀ n ∈ (s.slotAt t).pages, (u.page n).txn = .free ∧ (u.page n).held = []) ∧ u.regs = s.regs) ∧
  (∀ (s : State) (page : Nat), (s.page page).txn = .opened ∨ (s.page page).txn = .commitPending →
    s.fld (hdr page 0x1C) 15 0 = 0 → ∃ u, exec (.txnTimeout false page) s = .next u ∧ (u.page page).txn = .rolledBack ∧
      (u.page page).reason = 8 ∧ (u.page page).held = [] ∧ u.fld (hdr page 0x1C) 15 0 = 8) ∧
  (∀ (s : State) (page : Nat) (w : HeldWrite), (s.page page).held = [w] → s.badWrites page [w] = [] → 0x1000 ≤ pageNo w.addr →
    (s.page page).frozen = false →
    (s.txnApply (.page page)).reg w.addr = (s.reg w.addr &&& ~~~w.mask) ||| (w.value &&& w.mask) ∧
    ((s.txnApply (.page page)).page page).txn = .committed ∧ ((s.txnApply (.page page)).page page).held = [])

/-- The time counter: ticks, slewing, SET, ADJ, ARM, CANCEL and the latched read. A tick adds the increment, plus or minus
at most the slew rate's share of it until the correction is absorbed, with exact carries through nanoseconds and
seconds; a SET that waits loads instead, clears the correction and the arm, and raises its cause. SET armed waits for
the tick; not armed it is refused. ADJ adds to the correction within the limit, else it is refused and flagged. ARM
arms and logs. CANCEL drops the correction. A read of TIME_NOW_FRAC latches the counter for its requester. -/
def Obligations.TimeCounterRows : Prop :=
  (∀ s : State, s.timeRuns = true → (s.page 7).shadow = [] → s.time.setTo = none →
    let inc := s.fld (timeAt 0x5C) 3 0 * 2 ^ 32 + (s.reg (timeAt 0x58)).toNat
    let d := min (inc * s.fld (timeAt 0x80) 9 0 / 1000000) s.time.slew.natAbs
    let left := if 0 ≤ s.time.slew then s.time.slew - d else s.time.slew + d
    ∃ t, exec .timerefTick s = .next t ∧
      t.time = { s.time with now := s.time.now.add (if 0 ≤ s.time.slew then inc + d else inc - d), slew := left } ∧
      (left = 0 → t.flag (timeAt 0x64) 1 = false)) ∧
  (∀ (s : State) (sec ns : Nat), s.timeRuns = true → (s.page 7).shadow = [] → s.time.setTo = some (sec, ns) →
    ∃ t, exec .timerefTick s = .next t ∧ t.time = { s.time with now := ⟨sec, ns, 0⟩, slew := 0, setTo := none } ∧
      t.flag (timeAt 0x64) 0 = false ∧ t.flag (timeAt 0x64) 1 = false ∧ t.flag (hdr 7 0x10) 4 = true) ∧
  (∀ (t : Stamp) (n : Nat), let u := t.add n
    u.ns < 1000000000 ∧ u.frac < 2 ^ 32 ∧ u.sec < 2 ^ 48 ∧
    (((u.sec * 1000000000 + u.ns) * 2 ^ 32 + u.frac) % (2 ^ 48 * 1000000000 * 2 ^ 32) =
      ((t.sec * 1000000000 + t.ns) * 2 ^ 32 + t.frac + n) % (2 ^ 48 * 1000000000 * 2 ^ 32))) ∧
  (∀ (s : State) (rq : Requester), s.Admits rq (timeAt 0x60) → s.flag (timeAt 0x64) 0 = true →
    exec (.timeSet rq) s = .next { s.crossReg rq (timeAt 0x60) true with time := { s.time with
      setTo := some ((s.reg (timeAt 0x6C)).toNat + s.fld (timeAt 0x70) 15 0 * 2 ^ 32, s.fld (timeAt 0x68) 29 0) } }) ∧
  (∀ (s : State) (rq : Requester), s.Admits rq (timeAt 0x60) → s.flag (timeAt 0x64) 0 = false →
    exec (.timeSet rq) s = .next ((s.crossReg rq (timeAt 0x60) true).pgErr 7 0x0902 rq 0x60)) ∧
  (∀ (s : State) (rq : Requester), s.Admits rq (timeAt 0x60) →
    let d : Int := signedOf 32 (s.reg (timeAt 0x74)).toNat * 2 ^ 32 + (s.fld (timeAt 0x78) 15 0 * 2 ^ 16 : Nat)
    let fits := (s.time.slew + d).natAbs ≤ s.fld (timeAt 0x7C) 23 0 * 2 ^ 32
    (fits → exec (.timeAdj rq) s =
      .next ({ s.crossReg rq (timeAt 0x60) true with time := { s.time with slew := s.time.slew + d } }.setFlag (timeAt 0x64) 1 (s.time.slew + d != 0))) ∧
    (¬ fits → ∃ t, exec (.timeAdj rq) s = .next t ∧ t.time = s.time ∧ t.flag (timeAt 0x64) 2 = true ∧ t.flag (hdr 7 0x10) 3 = true)) ∧
  (∀ (s : State) (rq : Requester), s.Admits rq (timeAt 0x60) →
    ∃ t, exec (.timeCmdArm rq) s = .next t ∧ t.time = s.time ∧ t.flag (timeAt 0x64) 0 = true ∧
      t.theham.logSeq = s.theham.logSeq + 1) ∧
  (∀ (s : State) (rq : Requester), s.Admits rq (timeAt 0x60) →
    exec (.timeCancel rq) s = .next ({ s.crossReg rq (timeAt 0x60) true with time := { s.time with slew := 0 } }.setFlag (timeAt 0x64) 1 false)) ∧
  (∀ (s : State) (rq : Requester), s.Reads rq (timeAt 0x40) → (∀ h ∈ (s.page 7).holding, h.1 ≠ rq) →
    ∃ t, exec (.timeNowLatch rq) s = .next t ∧ (rq, s.time.now) ∈ t.time.holds ∧ t.timeCopy rq = s.time.now ∧
      t.busRead = some (rq, timeAt 0x40, (BitVec.ofNat 32 (s.time.now.frac / 2 ^ 16)).setWidth 64))

/-- Compare units fire at or after their target and rearm by the period; capture units keep the first edge. A running
compare unit whose target has come raises its level and cause; without a period it disarms, with one its target moves
by whole periods beyond the time and a skip is flagged. A pulse end lowers that level only. A capture of a selected
edge fills an empty unit with the counter as interpolated at the edge, less the capture delay, and raises its cause; a
full unit counts an overrun. A read of the last word clears full. -/
def Obligations.TimeCompareAndCaptureRows : Prop :=
  (∀ (s : State) (j : Nat), j < 8 → s.timeRuns = true →
    let r := timeAt (0x100 + 0x10 * j)
    let d := (s.flat + 2 ^ 64 - s.reg64 r) % 2 ^ 64
    let per := (s.reg (r + 8)).toNat
    s.flag (r + 0xC) 0 = true → d < 2 ^ 63 →
    ∃ t, exec (.timeCompareFire j) s = .next t ∧ t.time.high.getLsbD j = true ∧ t.flag (hdr 7 0x10) (5 + j) = true ∧
      (per = 0 → t.flag (r + 0xC) 0 = false) ∧
      (0 < per → t.reg64 r = (s.reg64 r + per * (d / per + 1)) % 2 ^ 64 ∧ t.flag (r + 0xC) 0 = true ∧
        (per ≤ d → t.flag (r + 0xC) 1 = true))) ∧
  (∀ (s : State) (j : Nat), j < 8 → ∃ t, exec (.timeCmpPulseEnd j) s = .next t ∧ t.time.high.getLsbD j = false ∧
    (∀ i, i ≠ j → t.time.high.getLsbD i = s.time.high.getLsbD i) ∧ t = { s with time := { s.time with high := t.time.high } }) ∧
  (∀ (s : State) (k : Nat) (rising : Bool) (ns : BitVec 4) (frac low : BitVec 16), k < 4 → s.timeRuns = true →
    let r := timeAt (0x200 + 0x10 * k)
    let v := (s.time.now.add (min (ns.toNat * 2 ^ 32 + frac.toNat * 2 ^ 16 + low.toNat) (s.timeInc - 1))).sub Config.captureDelay
    (s.fld r 1 0).testBit (if rising then 0 else 1) = true →
    (s.flag r 2 = false → (∀ p, s.time.ptp = some p → p.pps ≠ k) →
      ∃ t, exec (.timeCaptureEdge k rising ns frac low) s = .next t ∧ t.flag r 2 = true ∧
      t.reg (r + 4) = BitVec.ofNat 32 v.ns ∧ t.reg (r + 8) = BitVec.ofNat 32 v.sec ∧
      t.reg (r + 0xC) = BitVec.ofNat 32 (v.sec / 2 ^ 32 + v.frac / 2 ^ 16 * 2 ^ 16) ∧ t.flag (hdr 7 0x10) (13 + k) = true) ∧
    (s.flag r 2 = true → exec (.timeCaptureEdge k rising ns frac low) s = .next (s.bump r 23 8 1))) ∧
  (∀ (s : State) (rq : Requester) (k : Nat), k < 4 → s.Reads rq (timeAt (0x20C + 0x10 * k)) →
    ∃ t, exec (.timeCapRead rq k) s = .next t ∧ t.flag (timeAt (0x200 + 0x10 * k)) 2 = false)

/-- Debug authentication: challenge, verify, lock and expiry. A challenge below eight failures publishes a fresh random
number and sets its valid bit; from eight failures on it is refused. A verify starts with its scope; when it ends it
unlocks with that scope if the response holds for the challenge, else it counts a failure, unlocks nothing and clears
the challenge. Lock clears the unlock bits and no other field of the register. Expiry clears the challenge's valid
bit. -/
def Obligations.DebugUnlockRows : Prop :=
  (∀ (s : State) (rq : Requester), s.Admits rq (dbgAt 0x100) → s.fld (dbgAt 0x44) 11 8 < 8 →
    ∃ t, exec (.dbgAuthChallenge rq) s = .next t ∧ t.flag (dbgAt 0x104) 0 = true ∧
      (∀ i, i < 8 → t.reg (dbgAt (0x120 + 4 * i)) = BitVec.ofNat 32 ((Config.random s.free).toNat / 2 ^ (32 * i)))) ∧
  (∀ (s : State) (rq : Requester), s.Admits rq (dbgAt 0x100) → 8 ≤ s.fld (dbgAt 0x44) 11 8 →
    exec (.dbgAuthChallenge rq) s = .next ((s.crossReg rq (dbgAt 0x100) true).pgErr 0xA 0x01A1 rq 0x100)) ∧
  (∀ (s : State) (rq : Requester) (scope : BitVec 2), s.Admits rq (dbgAt 0x100) → s.flag (dbgAt 0x104) 1 = false →
    ∃ t, exec (.dbgAuthVerify rq scope) s = .next t ∧ t.flag (dbgAt 0x104) 1 = true ∧ t.dbg.scope = scope.toNat ∧
      t.fld (dbgAt 0x44) 2 0 = s.fld (dbgAt 0x44) 2 0) ∧
  (∀ s : State, s.flag (dbgAt 0x104) 1 = true →
    (s.authHolds = true → ∃ t, exec .dbgAuthVerifyDone s = .next t ∧ t.flag (dbgAt 0x44) 0 = true ∧
      t.fld (dbgAt 0x44) 2 1 = s.dbg.scope % 4 ∧ t.flag (dbgAt 0x104) 1 = false) ∧
    (s.authHolds = false → ∃ t, exec .dbgAuthVerifyDone s = .next t ∧ t.fld (dbgAt 0x44) 2 0 = s.fld (dbgAt 0x44) 2 0 ∧
      t.fld (dbgAt 0x44) 11 8 = min 15 (s.fld (dbgAt 0x44) 11 8 + 1) ∧ t.flag (dbgAt 0x104) 0 = false)) ∧
  (∀ (s : State) (rq : Requester), s.Admits rq (dbgAt 0x100) → ∃ t, exec (.dbgAuthLock rq) s = .next t ∧
    t.fld (dbgAt 0x44) 2 0 = 0 ∧ t.fld (dbgAt 0x44) 31 3 = s.fld (dbgAt 0x44) 31 3) ∧
  (∀ s : State, exec .dbgChallengeExpire s = .next (s.setFlag (dbgAt 0x104) 0 false))

/-- Package halt and resume; asserting and clearing the whistle. PACKAGE_HALT sets the package halt and asks every live
job not yet halted to halt. PACKAGE_RESUME is refused with RUN_BLOCKED while the whistle is active; else it ends the
package halt and unfreezes the pages. An assertion sets the whistle and its source bit and, from inactive, halts the
package; the pin does so too and asks every live job to halt. A clear takes away the whistle and its source bits and
resumes nothing; it is refused with WHISTLE_HELD while the pin is held or the hub PLL is out of lock. The pin's fall
clears its level bit alone. -/
def Obligations.PackageHaltAndWhistleRows : Prop :=
  (
    (∀ (s : State) (rq : Requester), s.Admits rq (dbgAt 0x48) → ∃ t, exec (.packageHalt rq) s = .next t ∧ t.pkgHalt = true ∧
      (∀ j, j < 64 → (s.job j).live = true → (s.job j).haltedBy = none → (t.job j).haltReq.isSome = true)) ∧
    (∀ (s : State) (rq : Requester), s.Admits rq (dbgAt 0x48) → s.flag whistleReg 0 = true →
      exec (.packageResume rq) s = .next ((s.crossReg rq (dbgAt 0x48) true).pgErr 0xA 0x0402 rq 0x48)) ∧
    (∀ (s : State) (rq : Requester), s.Admits rq (dbgAt 0x48) → s.flag whistleReg 0 = false → s.pkgHalt = true →
      s.anyLive = false → (∀ p ∈ freezePages, (s.page p).waits = []) → ∃ t, exec (.packageResume rq) s = .next t ∧ t.pkgHalt = false ∧
        ∀ p ∈ freezePages, (t.page p).frozen = false) ∧
    (∀ (s : State) (rq : Requester) (n r : Nat) (v : Word), n < 128 → r < 24 → (s.page (0x20 + n)).frozen = true →
      (s.page (0x20 + n)).waits = [.word rq (refAt n 0x54) v false] → v.getLsbD r = true →
      let t := s.thaw (0x20 + n)
      (t.page (0x20 + n)).frozen = false ∧ t.reg (refAt n (0x100 + 0x10 * r)) = 0 ∧ t.reg (refAt n (0x104 + 0x10 * r)) = 0 ∧
        t.reg (refAt n (0x108 + 0x10 * r)) = 0)) ∧
  (
    (∀ (s : State) (rq : Requester), rq = .pf ∨ rq = .fw → s.Admits rq (PageKind.dev.at 0xA04) →
      ∃ t, exec (.devWhistleAssert rq) s = .next t ∧ t.flag whistleReg 0 = true ∧ t.flag whistleReg (if rq = .pf then 2 else 3) = true ∧
        (s.flag whistleReg 0 = false → t.pkgHalt = true)) ∧
    (∀ (s : State) (rq : Requester), s.Admits rq (PageKind.dev.at 0xA04) →
      (s.flag whistleReg 5 = false → s.flag (PageKind.clk.at 0x44) 4 = true → ∃ t, exec (.devWhistleClear rq) s = .next t ∧
        t.fld whistleReg 4 0 = 0 ∧ t.pkgHalt = s.pkgHalt ∧ t.jobs = s.jobs) ∧
      (s.flag whistleReg 5 = true ∨ s.flag (PageKind.clk.at 0x44) 4 = false →
        exec (.devWhistleClear rq) s = .next ((s.crossReg rq (PageKind.dev.at 0xA04) true).pgErr 0 0x0140 rq 0xA04))) ∧
    (∀ s : State, ∃ t, exec .whistleIn s = .next t ∧ t.flag whistleReg 5 = true ∧ t.flag whistleReg 1 = true ∧ t.flag whistleReg 0 = true ∧
      (s.flag whistleReg 0 = false → t.pkgHalt = true ∧
        ∀ j, j < 64 → (s.job j).live = true → (s.job j).haltedBy = none → (t.job j).haltReq.isSome = true)) ∧
    (∀ s : State, exec .whistleInFall s = .next (s.setFlag whistleReg 5 false)))

/-- Monitor mode of the user core, and the two message queues of the debug channel. Where the core takes debug events, a
halt request, EBREAK, a matching instruction or data comparator and a step event each enter monitor mode with dmon_pc,
the cause, the comparator's number and the mode, leaving the unlock bits. Where it does not, an EBREAK with ebreak_mon
counts as missed; without ebreak_mon it is the core's own breakpoint. A request in an interrupt handler is deferred.
MONITOR_EXIT with bit 0 leaves monitor mode and sets the step. Each message queue keeps at most four words in order; a
push on a full one sets its overrun; a read of an output word by the debugger does not take it. -/
def Obligations.UserCoreMonitorAndMessageRows : Prop :=
  (
    let enters := fun (s t : State) (cause index : Nat) (pc : Word) (mode : BitVec 2) =>
      t.reg (dbgAt 0x5C) = pc ∧ t.reg (dbgAt 0x60) = BitVec.ofNat 32 (cause + index % 4 * 2 ^ 4 + mode.toNat * 2 ^ 8) ∧
        t.inMonitor = true ∧ t.fld (dbgAt 0x44) 2 0 = s.fld (dbgAt 0x44) 2 0 ∧
        t.dbg.core.mode = 3 ∧ t.dbg.core.pc = s.reg (dbgAt 0x50) &&& 0xFFFFFFFC
    (∀ (s : State) (pc : Word) (mode : BitVec 2), s.takesDebugEvent = true → s.domainOn 82 = true →
      (∀ rq, s.Admits rq (dbgAt 0x58) → ∃ t, exec (.ucHaltRequest rq pc mode false) s = .next t ∧ enters s t 1 0 pc mode) ∧
      (s.flag (dbgAt 0x54) 4 = true → ∃ t, exec (.ebreak pc mode) s = .next t ∧ enters s t 2 0 pc mode) ∧
      (∀ n, n < 4 → s.flag (dbgAt (0x80 + 8 * n)) 0 = true → s.fld (dbgAt (0x80 + 8 * n)) 31 1 = pc.toNat / 2 →
        ∃ t, exec (.comparatorMatch .instr n pc mode) s = .next t ∧ enters s t 3 n pc mode) ∧
      (∀ n (store : Bool) (addr : Word), n < 2 → let c := dbgAt (0xA4 + 8 * n)
        s.flag c 0 = true → s.flag c (if store = true then 2 else 1) = true →
        addr.toNat / 2 ^ s.fld c 7 3 = (s.reg (dbgAt (0xA0 + 8 * n))).toNat / 2 ^ s.fld c 7 3 →
        ∃ t, exec (.comparatorMatch (.access store addr) n pc mode) s = .next t ∧ enters s t 4 n pc mode) ∧
      (s.dbg.step = true → ∃ t, exec (.stepEvent pc mode) s = .next t ∧ enters s t 5 0 pc mode ∧ t.dbg.step = false)) ∧
    (∀ (s : State) (pc : Word) (mode : BitVec 2) (n : Nat), s.fld (dbgAt (0x80 + 8 * n)) 31 1 ≠ pc.toNat / 2 →
      exec (.comparatorMatch .instr n pc mode) s = .next s) ∧
    (∀ (s : State) (pc : Word) (mode : BitVec 2), s.takesDebugEvent = false → s.domainOn 82 = true → s.flag (dbgAt 0x54) 4 = true →
      exec (.ebreak pc mode) s = .next (s.bump (dbgAt 0x64) 15 0 1)) ∧
    (∀ (s : State) (pc : Word) (mode : BitVec 2), s.flag (dbgAt 0x54) 4 = false →
      exec (.ebreak pc mode) s = .next { s with out := s.out ++ [.ucBreak] }) ∧
    (∀ (s : State) (rq : Requester) (pc : Word) (mode : BitVec 2), s.Admits rq (dbgAt 0x58) →
      exec (.ucHaltRequest rq pc mode true) s =
        .next { s.crossReg rq (dbgAt 0x58) true with dbg := { s.dbg with deferred := 1, deferLeft := 16 } }) ∧
    (∀ (s : State) (ctl : Word), s.inMonitor = true → ctl.getLsbD 0 = true → ∃ t, exec (.monitorExit ctl) s = .next t ∧
      t.inMonitor = false ∧ t.dbg.step = ctl.getLsbD 1 ∧ t.dbg.core.pc = s.reg (dbgAt 0x5C) ∧ t.dbg.core.mode = s.fld (dbgAt 0x60) 9 8 ∧
      t.dbg.core.irqs = [])) ∧
  (
    (∀ (s : State) (w : Word), s.domainOn 82 = true → s.dbg.tx.length < 4 →
      exec (.dccTxPush w) s = .next { s with dbg := { s.dbg with tx := s.dbg.tx ++ [w] } }) ∧
    (∀ (s : State) (w : Word), s.domainOn 82 = true → 4 ≤ s.dbg.tx.length → exec (.dccTxPush w) s = .next (s.setFlag (dbgAt 0xC8) 8 true)) ∧
    (∀ (s : State) (rq : Requester) (w : Word) (ws : List Word), s.Reads rq (dbgAt 0xC0) → s.dbg.tx = w :: ws →
      (∀ h ∈ (s.page 0xA).holding, h.1 ≠ rq) → ∃ t, exec (.dccTxRead rq) s = .next t ∧
        t.busRead = some (rq, dbgAt 0xC0, w.setWidth 64) ∧ t.dbg.tx = if rq = .dbg then w :: ws else ws) ∧
    (∀ (s : State) (rq : Requester), s.Admits rq (dbgAt 0xC8) → ∃ t, exec (.dccTxPop rq) s = .next t ∧ t.dbg.tx = s.dbg.tx.tail ∧
      t.dbg.rx = s.dbg.rx) ∧
    (∀ (s : State) (rq : Requester) (w : Word), s.Admits rq (dbgAt 0xC4) → s.dbg.rx.length < 4 →
      ∃ t, exec (.dccRxPush rq w) s = .next t ∧ t.dbg.rx = s.dbg.rx ++ [w] ∧ t.dbg.tx = s.dbg.tx) ∧
    (∀ (s : State) (rq : Requester) (w : Word), s.Admits rq (dbgAt 0xC4) → 4 ≤ s.dbg.rx.length →
      exec (.dccRxPush rq w) s = .next ((s.crossReg rq (dbgAt 0xC4) true).setFlag (dbgAt 0xC8) 9 true)) ∧
    (∀ (s : State) (w : Word) (ws : List Word), s.dbg.rx = w :: ws →
      exec .dccRxRead s = .next { s with dbg := { s.dbg with rx := ws }, out := s.out ++ [.ucData w] }))

/-- The trace encoder: start, stop, trigger, window, full sink, retired branches, sleep and wake. START from OFF or
STOPPED runs and begins with the synchronisation units; STOP drains and stops. A trigger while running opens the
window when the stop trigger is selected, else sends a trigger packet. The end of the window or a full sink stops. A
retired branch adds its outcome to the open branch packet. Sleep drains the packets and sets the sleep bit; wake
clears it and, while tracing, takes the address to count from. -/
def Obligations.TraceRows : Prop :=
  (∀ (s : State) (rq : Requester), s.Admits rq (traceAt 0x40) → s.traceState = 0 ∨ s.traceState = 3 → s.fld (traceAt 0x44) 5 4 ≠ 3 →
    ∃ t, exec (.traceStart rq) s = .next t ∧ t.traceState = 1 ∧ t.trace.fifo.take 9 = List.replicate 8 0 ++ [0xFED5] ∧
      t.trace.lost = 0) ∧
  (∀ (s : State) (rq : Requester), s.Admits rq (traceAt 0x40) → s.traceState = 1 ∨ s.traceState = 2 →
    ∃ t, exec (.traceStop rq) s = .next t ∧ t.traceState = 3 ∧ t.trace.fifo = []) ∧
  (∀ s : State, s.traceState = 1 → s.flag (traceAt 0x4C) 3 = false →
    (s.flag (traceAt 0x48) 31 = true → ∃ t, exec (.traceTrigger .register) s = .next t ∧ t.traceState = 2 ∧
      t.trace.window = s.fld (traceAt 0x48) 23 0) ∧
    (s.flag (traceAt 0x48) 31 = false → s.trace.branch = [] → s.trace.idle < 8 → s.flag (traceAt 0x44) 2 = false →
      s.trace.fifo.length < 4096 →
      ∃ t, exec (.traceTrigger .register) s = .next t ∧ t.traceState = 1 ∧ t.trace.fifo = s.trace.fifo ++ [traceHead 5 0 (2 * 2 ^ 8)])) ∧
  (∀ s : State, s.traceState = 2 → s.trace.window = 0 → ∃ t, exec .traceWindowDone s = .next t ∧ t.traceState = 3 ∧ t.trace.fifo = []) ∧
  (∀ s : State, s.tracing = true → s.traceFull = true → ∃ t, exec .traceSinkFull s = .next t ∧ t.traceState = 3 ∧ t.trace.fifo = []) ∧
  (∀ (s : State) (r : Retired) (b : Bool), s.traceState = 1 → s.trace.fifo = [] → s.trace.lost = 0 → s.flag (traceAt 0x44) 0 = true →
    s.flag (traceAt 0x44) 3 = false → s.flag (traceAt 0x44) 7 = false → s.trace.bytes < 256 → s.trace.branch.length < 6 →
    s.dbg.deferred = 0 → s.domainOn 82 = true → r.mem = none → r.target = none → r.trap = none → r.branch = some b →
    ∃ t, exec (.retiredInstruction r) s = .next t ∧ t.trace.branch = s.trace.branch ++ [b] ∧ t.trace.fifo = [] ∧ t.traceState = 1) ∧
  (∀ (s : State) (cycles : Nat), ∃ t, exec (.ucSleep cycles) s = .next t ∧ t.flag (dbgAt 0x44) 4 = true ∧ t.trace.asleep = true ∧
    (s.tracing = true → t.trace.fifo = [])) ∧
  (∀ (s : State) (pc : Word) (mode : BitVec 2), ∃ t, exec (.ucWake pc mode) s = .next t ∧ t.flag (dbgAt 0x44) 4 = false ∧
    t.trace.asleep = false ∧ (s.tracing = true → t.trace.last = pc.toNat))

/-- GPIO sets, clears and toggles; pin selection; power switching of domains. GPIO set, clear and toggle change the output
bits of the requester's own pins and no pin sample. A write of a pin's selection stores it where the pin allows the
signal. A power request starts a switch, or waits while its domain is switching. A power request with retention of a
segment whose job is live is not meant here (it is refused). At the end of a switch-on the domain is on and its pages
are enabled, but for the two pin pages, which boot alone enables (R36); at the end of a switch-off of a segment its
sequencer is at rest and its banks are cleared, and with retention the banks are kept. A wake ends that segment's
waking only. The cleared value 0 of a bank switched off is the model's choice (log entry 9). -/
def Obligations.PinAndPowerRows : Prop :=
  (
    (∀ (s : State) (rq : Requester) (w : Nat) (bits : Word), w < 3 →
      let out := gpioAt (0x50 + 4 * w)
      let mine := bits &&& s.pinMask rq w
      (s.Admits rq (gpioAt (0x60 + 4 * w)) → ∃ t, exec (.gpioSet rq w bits) s = .next t ∧ t.reg out = s.reg out ||| mine ∧
        t.pins = s.pins) ∧
      (s.Admits rq (gpioAt (0x70 + 4 * w)) → ∃ t, exec (.gpioClr rq w bits) s = .next t ∧ t.reg out = s.reg out &&& ~~~mine ∧
        t.pins = s.pins) ∧
      (s.Admits rq (gpioAt (0x80 + 4 * w)) → ∃ t, exec (.gpioTgl rq w bits) s = .next t ∧ t.reg out = s.reg out ^^^ mine ∧
        t.pins = s.pins)) ∧
    (∀ (s : State) (p : Nat) (sel : BitVec 8), p < 92 → sel.toNat ≤ 160 → s.Admits .fw (xbarAt p) → s.flag (xbarAt p) 16 = false →
      signalDir sel.toNat ≠ .input → [0, 2, 3, 5].contains (s.fld (xbarAt p) 10 8) = true →
      ∃ t, exec (.gpioXbarSelWrite .fw p sel) s = .next t ∧ t.fld (xbarAt p) 7 0 = sel.toNat ∧
        t.fld (xbarAt p) 31 8 = s.fld (xbarAt p) 31 8)) ∧
  (
    (∀ (s : State) (rq : Requester) (v : Word), s.Admits rq (pwrAt 0x60) →
      let pd := v.toNat % 128
      let op := v.toNat / 2 ^ 8 % 4
      pd < 84 → op < 3 → (op = 2 → pd < 64 ∧ ∀ j, s.jobOfSeg pd = some j → (s.job j).live = false) → ¬ [68, 69, 79, 81, 83].contains pd → v.getLsbD 31 = true → s.pwr.queue = [] →
      (s.pwr.busy.any (fun b => b.pd == pd) = false → op ≠ 1 ∨ 64 ≤ pd →
        ∃ t, exec (.pwrReqGo rq v) s = .next t ∧ t.pwr = { s.pwr with busy := s.pwr.busy ++ [⟨pd, op, none⟩] }) ∧
      (s.pwr.busy.any (fun b => b.pd == pd) = true →
        ∃ t, exec (.pwrReqGo rq v) s = .next t ∧ t.pwr = { s.pwr with queue := [⟨pd, op, none⟩] })) ∧
    (∀ (s : State) (pd : Nat), s.pwr.busy = [⟨pd, 1, none⟩] → s.pwr.queue = [] → 74 ≤ pd → pd < 80 → s.domainOn pd = false →
      s.theham.waiting = [] → (∀ p ∈ domainPages pd, s.txnOf p = none) →
      ∃ t, exec (.domainSwitchOnDone pd) s = .next t ∧ t.domainOn pd = true ∧ t.pwr.busy = [] ∧
        (pd ≠ 78 → ∀ p ∈ domainPages pd, t.pgEnabled p = true)) ∧
    (∀ (s : State) (pd : Nat), s.pwr.busy = [⟨pd, 0, none⟩] → s.pwr.queue = [] → pd < 64 → s.domainOn pd = true →
      s.theham.waiting = [] → (∀ p ∈ domainPages pd, s.txnOf p = none) →
      ∃ t, exec (.domainSwitchOffDone pd) s = .next t ∧ t.domainOn pd = false ∧ t.pwr.busy = [] ∧ t.seq pd = {} ∧
        (∀ i, pd * 1048576 ≤ i → i < (pd + 1) * 1048576 → Sparse.get 0 t.fab.mb i = 0)) ∧
    (∀ (s : State) (pd : Nat), s.pwr.busy = [⟨pd, 2, none⟩] → s.pwr.queue = [] → pd < 64 → s.domainOn pd = true →
      s.theham.waiting = [] → (∀ p ∈ domainPages pd, s.txnOf p = none) →
      ∃ t, exec (.domainSwitchOffDone pd) s = .next t ∧ t.domainOn pd = false ∧ t.fab.mb = s.fab.mb ∧
        t.fab.retained.getLsbD pd = true) ∧
    (∀ (s : State) (g : Nat), g < 64 → ∃ t, exec (.bankWakeDone g) s = .next t ∧ t.fab.waking.getLsbD g = false ∧
      ∀ i, i ≠ g → t.fab.waking.getLsbD i = s.fab.waking.getLsbD i))

/-- Power-on reset, device reset and RST_CMD: what each clears and what it keeps. Without a bootable directory, each reset
ends in recovery with no job, a cleared fabric, HBM unlisted and the dispatcher empty; a device reset keeps the TAP,
whose boundary-scan instructions it has release the pads, the trace encoder, host memory, the package halt and the
owner digest, relocks debug and records its cause. RST_CMD acts only with the key 0xA5C3, and then as a command reset.
HBM reading 0 after a reset is the model's choice (log entry 10). -/
def Obligations.ResetRows : Prop :=
  (∀ (s : State) (boot : BootInput), s.theham.toBoot = [] → Sparse.get none s.theham.parts 0 = some [] →
    Sparse.get none s.theham.parts 1 = some [] →
    ∃ t, exec (.powerOnReset boot) s = .next t ∧ t.jobs = [] ∧ t.fab = {} ∧ t.hbm = [] ∧ t.pkgHalt = s.flag whistleReg 5 ∧ t.disp = {} ∧
      t.fld (PageKind.dev.at 0x44) 1 0 = 2) ∧
  (∀ (s : State) (boot : BootInput) (cause : ResetCause), cause ≠ .powerOn → s.flag whistleReg 5 = false →
    s.theham.toBoot = [] → Sparse.get none s.theham.parts 0 = some [] → Sparse.get none s.theham.parts 1 = some [] →
    ∃ t, exec (.deviceReset cause boot) s = .next t ∧ t.jobs = [] ∧ t.fab = {} ∧ t.hbm = [] ∧ t.disp = {} ∧ t.cap = {} ∧
      t.tap = { s.tap with refused := s.tap.refused || [3, 4, 5, 6, 7].contains s.tap.ir } ∧ t.trace = s.trace ∧ t.hostMem = s.hostMem ∧ t.pkgHalt = s.pkgHalt ∧ t.theham.owner = s.theham.owner ∧
      t.fld (dbgAt 0x44) 2 0 = 0 ∧ t.fld (PageKind.dev.at 0x44) 1 0 = 2 ∧
      t.fld (PageKind.rst.at 0x40) 2 0 = (if cause = .pin then 2 else 4)) ∧
  (∀ (s : State) (rq : Requester) (key : Word) (boot : BootInput), s.Admits rq (PageKind.rst.at 0x44) →
    (key.toNat % 2 ^ 16 ≠ 0xA5C3 → exec (.rstCmd rq key boot) s = .next (s.crossReg rq (PageKind.rst.at 0x44) true)) ∧
    (key.toNat % 2 ^ 16 = 0xA5C3 → ∃ t, exec (.rstCmd rq key boot) s = .next t ∧
      exec (.deviceReset .cmd boot) s = .next t))

/-- PLL losses and relocks, the STEPCLK frequency, die links, thermal trip and lost reference clocks. Loss of a die's
STEPCLK PLL clears its lock bit, raises the cause, counts, asks jobs on that die to halt with its fault record and
leaves other jobs alone; loss of the hub PLL asserts the whistle with its source; a relock sets the lock bit. A
STEPCLK write within the grade's range sets the frequency and drops the locks while no job is live, else WR_BUSY. Link
training marks the link good or failed; a link error marks every job at either end. A thermal trip latches, asserts
the whistle and records its cause. Losing TIMEREF acts as the hub PLL's loss, losing LANEREF as the loss of the other
PLLs. The link numbers in fault records are the model's (log entry 31). -/
def Obligations.ClockAndLinkRows : Prop :=
  (∀ (s : State) (die : Nat), die < 4 →
    (∀ j, (s.job j).live = true ∨ (s.job j).state = .destroying → ∀ g, g < 64 → (s.job j).mask.getLsbD g = true → dieOf g ≠ die) →
    ∃ t, exec (.stepclkPllUnlock die) s = .next t ∧ t.flag (PageKind.clk.at 0x44) die = false ∧ t.flag (hdr 2 0x10) 3 = true ∧
      t.fld (PageKind.clk.at 0x48) 15 0 = min 65535 (s.fld (PageKind.clk.at 0x48) 15 0 + 1) ∧ t.jobs = s.jobs ∧ t.fab = s.fab) ∧
  (∀ (s : State) (die j g : Nat), die < 4 → j < 64 → g < 64 → (s.job j).mask.getLsbD g = true → dieOf g = die →
    (s.job j).state = .starting → (s.job j).haltedBy = none → (∀ i, i ≠ j → (s.job i).live = false ∧ (s.job i).state ≠ .destroying) →
    ∃ t, exec (.stepclkPllUnlock die) s = .next t ∧ (t.job j).haltReq.isSome = true ∧
      ∃ r ∈ (t.job j).faults, r.code = 0x038A) ∧
  (∀ s : State, ∃ t, exec .hubPllUnlock s = .next t ∧ t.flag (PageKind.clk.at 0x44) 4 = false ∧ t.flag whistleReg 0 = true ∧
    t.flag whistleReg 4 = true) ∧
  (∀ (s : State) (die : Nat), die < 4 → exec (.pllRelock (.step die)) s = .next (s.setFlag (PageKind.clk.at 0x44) die true)) ∧
  (∀ s : State, s.flag (PageKind.clk.at 0x44) 4 = false → ∃ t, exec (.pllRelock .hub) s = .next t ∧
    t.flag (PageKind.clk.at 0x44) 4 = true) ∧
  (∀ (s : State) (rq : Requester) (n : Nat), s.Admits rq (PageKind.clk.at 0x40) → 200 ≤ n → n ≤ 1000 →
    (Config.gradeTen = false ∨ n ≤ 800) → s.txnOf 2 = none →
    (s.anyLive = false → s.fld (PageKind.clk.at 0x40) 9 0 ≠ n → ∃ t, exec (.clkStepWrite rq (BitVec.ofNat 32 n)) s = .next t ∧
      t.fld (PageKind.clk.at 0x40) 9 0 = n ∧ t.fld (PageKind.clk.at 0x44) 3 0 = 0) ∧
    (s.anyLive = true → exec (.clkStepWrite rq (BitVec.ofNat 32 n)) s =
      .next ((s.crossReg rq (PageKind.clk.at 0x40) true).pgErr 2 1 rq (PageKind.clk.at 0x40)))) ∧
  (∀ s : State, exec .stepclkRelock s = .next (s.setFld (PageKind.clk.at 0x44) 3 0 15)) ∧
  (∀ (s : State) (l : D2dLink), ∃ t, exec (.linkTraining l true) s = .next t ∧ l ∉ t.fab.linkBad ∧
    t = { s with fab := { s.fab with linkBad := t.fab.linkBad } }) ∧
  (∀ (s : State) (l : D2dLink), ∃ t, exec (.linkTraining l false) s = .next t ∧ l ∈ t.fab.linkBad ∧
    t = { s with fab := { s.fab with linkBad := t.fab.linkBad } }) ∧
  (∀ (s : State) (l : D2dLink) (j : Nat), j < 64 → (s.job j).state ≠ .free →
    (∃ g, g < 64 ∧ (s.job j).mask.getLsbD g = true ∧ (linkDies l).contains (dieOf g) = true) →
    ∃ t, exec (.linkUe l) s = .next t ∧ (t.job j).ue = true ∧ ∃ r ∈ (t.job j).faults, r.code = 0x0386 ∧ r.cls = 1) ∧
  (∀ s : State, ∃ t, exec .thermalTrip s = .next t ∧ t.pins.trip = true ∧ t.flag (PageKind.rst.at 0x40) 3 = true ∧
    t.flag whistleReg 0 = true) ∧
  (∀ s : State, exec (.refclkLoss .timeref) s = exec .hubPllUnlock s) ∧
  (∀ s : State, exec (.refclkLoss .laneref) s = .next (
    let stepLost := fun (s : State) (die : Nat) => match exec (.stepclkPllUnlock die) s with | .next t => t | _ => s
    let laneLost := fun (s : State) (group : Nat) => match exec (.lanePllUnlock group) s with | .next t => t | _ => s
    (List.range 4).foldl laneLost ((List.range 4).foldl stepLost s)))

/-- HALT_TAKES_EFFECT, HOLD_TIMEOUT and BULK_CLEAR_DONE. A halt that takes effect halts every running, padding or holding
segment of the job where it stands and changes neither m nor e. A hold of 65,536 blocks marks the timeout and changes
nothing in the fabric. The end of a bulk clear leaves the data stores, operand registers and banks of the job's
segments zero and ends the clearing of those segments. -/
def Obligations.HaltAndHoldRows : Prop :=
  (∀ (s : State) (j : Nat) (why : HaltWhy), (s.job j).haltReq = some why → (s.job j).state = .active →
    (∀ w ∈ s.theham.waiting, w.job ≠ j) → ∃ t, exec (.haltTakesEffect j) s = .next t ∧ (t.job j).haltReq = none ∧
      (t.job j).haltedBy = some why ∧ (t.job j).m = (s.job j).m ∧ (t.job j).e = (s.job j).e ∧
      ∀ g, g < 64 → (s.job j).mask.getLsbD g = true → (s.seq g).state = .run ∨ (s.seq g).state = .pad ∨ (s.seq g).state = .hold →
        t.seq g = { s.seq g with before := (s.seq g).state, state := .halted }) ∧
  (∀ (s : State) (j : Nat), (s.seq (s.job j).lead).state = .hold → 65536 ≤ (s.job j).blocks → (s.job j).timeoutUp = false →
    ∃ t, exec (.holdTimeout j) s = .next t ∧ t.job j = { s.job j with timeoutUp := true } ∧ t.fab = s.fab) ∧
  (∀ (s : State) (j : Nat), (s.job j).state = .starting → s.fab.clearing &&& (s.job j).mask ≠ 0 →
    ∃ t, exec (.bulkClearDone j) s = .next t ∧ t.fab.clearing &&& (s.job j).mask = 0 ∧ t.jobs = s.jobs ∧
      ∀ g, g < 64 → (s.job j).mask.getLsbD g = true →
        (∀ i, i < 8388608 → Sparse.get false t.fab.ds (g * 8388608 + i) = false) ∧
        (∀ i, i < 512 → Sparse.get 0 t.fab.ors (g * 512 + i) = 0) ∧
        (∀ i, i < 1048576 → Sparse.get 0 t.fab.mb (g * 1048576 + i) = 0))

/-- Tags, completions and undo-log captures of the decoupling queues. MQ_TAG_GRANT gives the free tag to the oldest
waiting entry of the group and changes no other queue. MQ_COMPLETION without an error takes the request from its
controller, writes HBM for an unsuppressed write and nothing else, and completes the entry with the 64 bytes read
under fresh check bits; with HBM off it completes the entry with an error. UNDO_LOG_CAPTURE copies the 512-byte run
into the newest checkpoint's undo records and releases the request. -/
def Obligations.QueueTransportRows : Prop :=
  (∀ (s : State) (cg key tag : Nat) (x : MqEntry), s.oldestWaiting cg = some (key, x) → s.freeTag cg = some tag →
    ∃ t, exec (.mqTagGrant cg) s = .next t ∧ t.mq (key / 8) (key % 8) =
      (s.mq (key / 8) (key % 8)).mapSlot x.slot (fun y => { y with state := .out tag }) ∧
      ∀ cl q, (cl, q) ≠ (key / 8, key % 8) → q < 8 → t.mq cl q = s.mq cl q) ∧
  (∀ (s : State) (tag key : Nat) (x : MqEntry) (c : Nat × RefReq) (result : HbmResult), s.tagEntry tag = some (key, x) →
    let p := entryPlace key x
    s.hbmOff p.1 = false → (s.ref p.1).ctl.find? (fun c => c.1 == keyCluster key / 32 % 16) = some c → c.2.id = tag →
    result ≠ .ue → (x.write = true → s.rmwOpen p.1 c.2.offset = false) →
    ∃ t, exec (.mqCompletion tag result) s = .next t ∧ t.ref p.1 = { s.ref p.1 with ctl := (s.ref p.1).ctl.erase c } ∧
      t.hbm = (if x.write = true ∧ x.suppress = false then s.hbmWrite p.1 p.2 x.data else s).hbm ∧
      t.mq (keyCluster key) (key % 8) = (s.mq (keyCluster key) (key % 8)).mapSlot x.slot (fun y => { y with
        state := .complete, ue := false
        buf := if x.write then [] else (List.range 8).map (fun i =>
          secded72 (BitVec.ofNat 64 (leNat (s.hbmRead p.1 (p.2 + 8 * i) 8)))) })) ∧
  (∀ (s : State) (tag key : Nat) (x : MqEntry), s.tagEntry tag = some (key, x) → s.hbmOff (entryPlace key x).1 = true →
    ∃ t, exec (.mqCompletion tag .ok) s = .next t ∧ t.hbm = s.hbm ∧
      t.mq (keyCluster key) (key % 8) = (s.mq (keyCluster key) (key % 8)).mapSlot x.slot (fun y => { y with
        state := .complete, ue := true, buf := if x.write then [] else (List.range 8).map (fun _ => secded72 0) })) ∧
  (∀ (s : State) (pc port key j : Nat) (p : RefPend) (ps : List RefPend) (x : MqEntry) (c : CkptRec), port < 16 →
    (s.ref pc).fifo port = p :: ps → p.held = true → s.tagEntry p.req.id = some (key, x) →
    s.jobOfSeg (keyCluster key / 64) = some j → (s.job j).prot.retained = [c] →
    ∃ t, exec (.undoLogCapture pc port) s = .next t ∧ t.hbm = s.hbm ∧ runOf pc p.req.offset ∈ (t.job j).prot.winDirty ∧
      (t.job j).prot.retained = [{ c with undo :=
        (runOf pc p.req.offset * 512, s.hbmRead pc (p.req.offset / 512 * 512) 512) :: c.undo }] ∧
      (((t.ref pc).fifo port).head?.map RefPend.held) = some false)

/-- Referees: arrivals, decisions, withdrawals and counter clears. A request that arrives stands last in its requester's
FIFO, with its own address and data; capture lines and queue entries are those staged. A decision grants the head that
outranks every other, locks only for a requester that may lock, and in the next cycle moves the granted head to the
controller. A withdrawn head leaves its FIFO, and when it was granted a wasted decision counts. Clearing a requester's
counters clears those three and no other requester's. -/
def Obligations.RefereeRows : Prop :=
  let arrived := fun (req : RefReq) (held : Bool) => ({ req := req, age := 0, boost := 0, waited := 0, fresh := true, held := held } : RefPend)
  (∀ (s : State) (pc q : Nat) (req : RefReq), pc < 128 → 17 ≤ q → q < 22 → ((s.ref pc).fifo q).length < 8 →
    exec (.refereeRequestArrive pc q req) s =
      .next (s.setRef pc ((s.ref pc).setFifo q ((s.ref pc).fifo q ++ [arrived { req with id := req.id % hostId } false])))) ∧
  (∀ (s : State) (pc a : Nat) (bs : List Byte) (rest : List (Nat × List Byte)) (req : RefReq), pc < 128 →
    ((s.ref pc).fifo 16).length < 8 → s.cap.stage = (a, bs) :: rest → pcOf a = pc →
    ∃ t, exec (.refereeRequestArrive pc 16 req) s = .next t ∧ t.cap.stage = rest ∧
      (t.ref pc).fifo 16 = (s.ref pc).fifo 16 ++ [arrived ⟨pcOffset a, true, bs, 1, 0⟩ false]) ∧
  (∀ (s : State) (pc q key : Nat) (req : RefReq) (x : MqEntry), pc < 128 → q < 16 → ((s.ref pc).fifo q).length < 8 →
    s.tagEntry req.id = some (key, x) → x.arrived = false → (entryPlace key x).1 = pc → keyCluster key / 32 = 16 * (pc % 8) + q →
    s.inOrder key x (fun y => match y.state with | .out _ => !y.arrived | _ => false) = true →
    s.heldForUndo (keyCluster key / 64) pc (entryPlace key x).2 = false →
    ∃ t, exec (.refereeRequestArrive pc q req) s = .next t ∧
      (t.ref pc).fifo q = (s.ref pc).fifo q ++ [arrived ⟨(entryPlace key x).2, x.write, x.data, 1, req.id⟩ false]) ∧
  (∀ (s : State) (pc : Nat) (h : Nat × RefPend), pc < 128 → (s.ref pc).state = .arb → (s.ref pc).granted = none →
    (∀ a ∈ s.access, a.reg = none) → (s.ref pc).ctl.length < 16 → h ∈ (s.ref pc).heads → (∀ g ∈ (s.ref pc).heads, g.1 ≠ h.1 → s.outranks pc h g = true) →
    ∃ t, exec (.refereeDecision pc) s = .next t ∧ (t.ref pc).granted = some h.1 ∧ (t.ref pc).ctl = (s.ref pc).ctl ∧
      ((t.ref pc).state = .locked ↔ mayLock h.1 = true ∧ 2 ≤ h.2.req.lock)) ∧
  (∀ (s : State) (pc q : Nat) (p : RefPend) (ps : List RefPend), pc < 128 → (s.ref pc).granted = some q →
    (∀ a ∈ s.access, a.reg = none) → (s.ref pc).fifo q = p :: ps → ∃ t, exec (.refereeDecision pc) s = .next t ∧ (t.ref pc).ctl = (s.ref pc).ctl ++ [(q, p.req)]) ∧
  (∀ (s : State) (pc q : Nat) (p : RefPend) (ps : List RefPend), pc < 128 → (s.ref pc).fifo q = p :: ps →
    ((s.ref pc).granted ≠ some q → exec (.requestWithdraw pc q) s = .next (s.setRef pc ((s.ref pc).setFifo q ps))) ∧
    ((s.ref pc).granted = some q → (s.ref pc).state = .arb → exec (.requestWithdraw pc q) s =
      .next ((s.bump (refAt pc 0x4C) 31 0 1).setRef pc { (s.ref pc).setFifo q ps with granted := none }))) ∧
  (∀ (s : State) (rq : Requester) (pc r : Nat), pc < 128 → r < 24 → s.Admits rq (refAt pc 0x54) →
    ∃ t, exec (.refCntClr rq pc (BitVec.ofNat 32 (2 ^ r))) s = .next t ∧
      t.reg (refAt pc (0x100 + 0x10 * r)) = 0 ∧ t.reg (refAt pc (0x104 + 0x10 * r)) = 0 ∧ t.reg (refAt pc (0x108 + 0x10 * r)) = 0 ∧
      ∀ q, q < 24 → q ≠ r → t.reg (refAt pc (0x100 + 0x10 * q)) = s.reg (refAt pc (0x100 + 0x10 * q)))

/-- HBM controllers: temperature, pseudo-channels out of service and completed hub requests. A temperature reading sets
the refresh rate by the two thresholds and asserts the whistle above 105 degrees. A pseudo-channel out of service
reads so, its referee's page and state are disabled unless locked, and HBM keeps its contents. A hub write completes
by writing HBM, a hub read by returning its 64 bytes with HBM unchanged; with HBM off the request is answered HBM_OFF. -/
def Obligations.HbmControllerRows : Prop :=
  (∀ (s : State) (k : Nat) (degC : BitVec 8), k < 4 → ∃ t, exec (.hbmRefreshRateChange k degC) s = .next t ∧
    t.fld (hbmcAt k 0x48) 7 0 = degC.toNat ∧
    t.fld (hbmcAt k 0x48) 9 8 = (if 95 < degC.toNat then 2 else if 85 < degC.toNat then 1 else 0) ∧
    t.flag (hbmcAt k 0x40) 2 = decide (95 < degC.toNat) ∧ (105 < degC.toNat → t.flag whistleReg 0 = true)) ∧
  (∀ (s : State) (n : Nat), n < 128 → ∃ t, exec (.pcOutOfService n) s = .next t ∧ t.pcOk n = false ∧ t.pgEnabled (0x20 + n) = false ∧
    ((s.ref n).state ≠ .locked → (t.ref n).state = .disabled) ∧ t.hbm = s.hbm) ∧
  (∀ (s : State) (n q : Nat) (req : RefReq), s.nextHub n = some (q, req) → (q, req) ∈ (s.ref n).ctl → req.id < hostId → s.hbmOff n = false →
    (req.write = true → ∃ t, exec (.hbmRequestComplete n .ok) s = .next t ∧ t.hbm = (s.hbmWrite n req.offset req.data).hbm ∧
      (t.ref n).ctl = (s.ref n).ctl.erase (q, req)) ∧
    (req.write = false → q ≠ 16 → ∃ t, exec (.hbmRequestComplete n .ok) s = .next t ∧ t.hbm = s.hbm ∧
      (q, req, ReqStatus.ok, s.hbmRead n req.offset 64) ∈ (t.ref n).done)) ∧
  (∀ (s : State) (n q : Nat) (req : RefReq), s.nextHub n = some (q, req) → s.hbmOff n = true →
    req.id < hostId → q ≠ 16 → ∃ t, exec (.hbmRequestComplete n .ok) s = .next t ∧ t.hbm = s.hbm ∧
      ∃ bs, (q, req, ReqStatus.hbmOff, bs) ∈ (t.ref n).done)

/-- The HBM address map and its inverse; the octant windows reach only their own pseudo-channels. For every physical HBM
address P, its pseudo-channel is (P >> 9) & 0x7F and its offset ((P >> 16) << 9) | (P & 0x1FF), and the inverse map
gives P back; every channel and offset is met. The next 512-byte run lies in the next pseudo-channel, round all 128. A
window address of octant o lies in a pseudo-channel congruent to o mod 8, and no two window addresses of one octant
meet. -/
def Obligations.HbmAddressesSpreadOverTheChannels : Prop :=
  (∀ p, p < 0x1800000000 → pcOf p = (p >>> 9) &&& 0x7F ∧ pcOffset p = ((p >>> 16) <<< 9) ||| (p &&& 0x1FF) ∧
    pcOf p < 128 ∧ hbmAddr (pcOf p) (pcOffset p) = p) ∧
  (∀ n off, n < 128 → pcOf (hbmAddr n off) = n ∧ pcOffset (hbmAddr n off) = off) ∧
  (∀ p, pcOf (p + 512) = (pcOf p + 1) % 128) ∧
  (∀ o a, o < 8 → windowPc o a % 8 = o ∧ windowPc o a < 128) ∧
  (∀ o a b, o < 8 → windowPc o a = windowPc o b → windowOffset a = windowOffset b → a = b)

/-- The scrubber: sweeps, pieces, patrol reads, triplicated words, checks of the golden signature, counter polls. A sweep
starts at the first segment to sweep, those skipped before included, or ends at once and counts when there is none; a
start during a sweep marks a further one due and raises its cause once. A first piece that matches the golden copy
moves on; one whose CRC differs records SIG_MISMATCH for the job with its place, counts and moves on. A patrol read of
a good word at a bank with nothing waiting moves on and changes nothing else. One odd copy of a word is rewritten,
counted and raises its cause; a rewrite that does not hold, or two odd copies, stop the scrubber. The check leaves a
scrubber with sound copies that moved or has no sweep; one that stopped, or whose voted signature differs, starts anew
with its configuration and whole copies. The poll clears the ECC counts of every powered segment. -/
def Obligations.ScrubRows : Prop :=
  (∀ s : State, s.scrubs = true → s.flag (scrubAt 0x44) 0 = false → (s.page 0x130).shadow = [] →
    let first := { s with scrub := { s.scrub with skip := 0 } }.sweepFrom 0
    (∀ g, first = some g → ∃ t, exec .scrubSweepStart s = .next t ∧ t.flag (scrubAt 0x44) 0 = true ∧
      t.reg (scrubAt 0x4C) = BitVec.ofNat 32 (scrubPos g 0 0 0) ∧ t.scrub.skip = 0) ∧
    (first = none → ∃ t, exec .scrubSweepStart s = .next t ∧ t.flag (scrubAt 0x44) 0 = false ∧
      t.reg (scrubAt 0x48) = s.reg (scrubAt 0x48) + 1)) ∧
  (∀ s : State, s.scrubs = true → s.flag (scrubAt 0x44) 0 = true → s.flag (scrubAt 0x44) 1 = false →
    ∃ t, exec .scrubSweepStart s = .next t ∧ t.flag (scrubAt 0x44) 1 = true ∧ t.scrub.due = true ∧
      t.flag (hdr 0x130 0x10) 5 = true ∧ t.reg (scrubAt 0x4C) = s.reg (scrubAt 0x4C)) ∧
  (∀ (s : State) (g j next : Nat), s.scrubs = true → s.flag (scrubAt 0x44) 0 = true → s.swept g = true → g < 64 →
    s.jobOfSeg g = some j → s.reg (scrubAt 0x4C) = BitVec.ofNat 32 (scrubPos g 0 0 0) → s.nextPiece g 0 0 0 = some next →
    let lo := cfgBase (g * 64) + storeBase 0
    let read := Sparse.bytes s.fab.cfg lo 1024
    let gold := Sparse.bytes s.fab.copy lo 1024
    (read = gold → ∃ t, exec .scrubPiece s = .next t ∧ t.jobs = s.jobs ∧ t.fab = s.fab ∧ t.reg (scrubAt 0x4C) = BitVec.ofNat 32 next) ∧
    (crc64 read ≠ crc64 gold → ∃ t, exec .scrubPiece s = .next t ∧ t.fab = s.fab ∧ t.reg (scrubAt 0x4C) = BitVec.ofNat 32 next ∧
      t.fld (scrubAt 0x50) 15 0 = min 65535 (s.fld (scrubAt 0x50) 15 0 + 1) ∧
      ∃ r ∈ (t.job j).faults, r.code = 0x0387 ∧ r.cls = 2 ∧ r.seg = g ∧ r.cl = 0 ∧ r.w6 = 0)) ∧
  (∀ (s : State) (bank w : Nat) (d : Dword), s.scrubs = true → bank < 16384 → w < 4096 →
    s.reg (scrubAt 0x60) = BitVec.ofNat 32 (bank + w * 2 ^ 14) → s.bankStatus bank = .ok → s.bankClearing bank = false →
    (∀ x ∈ s.fab.mbWb, x.bank ≠ bank) → s.fab.dyn.any (fun r => r.bank == bank) = false → s.bankRead bank w = (⟨d.toNat, 0, false⟩, false) →
    let next := BitVec.ofNat 32 (s.nextPatrol bank w)
    (s.fabricUse bank = none → exec .scrubPatrolRead s = .next (s.setReg (scrubAt 0x60) next)) ∧
    (∀ u, s.fabricUse bank = some u → u ≠ (true, w) → ∃ t, exec .scrubPatrolRead s = .next t ∧ t.reg (scrubAt 0x60) = next ∧
      t.fab = s.fab ∧ t.jobs = s.jobs)) ∧
  (∀ (s : State) (w : Nat) (u v : Word), s.domainOn 76 = true → s.flag (scrubAt 0x44) 2 = false → s.scrub.copies w = [0, 0, 0] → u ≠ 0 →
    (∃ t, exec (.scrubTmrFix ⟨w, u, 0, 0⟩ true) s = .next t ∧ t.flag (hdr 0x130 0x10) 3 = true ∧ t.scrub.copies w = [0, 0, 0] ∧
      t.flag (scrubAt 0x44) 2 = false ∧ t.fld (scrubAt 0x54) 15 0 = min 65535 (s.fld (scrubAt 0x54) 15 0 + 1)) ∧
    (∃ t, exec (.scrubTmrFix ⟨w, u, 0, 0⟩ false) s = .next t ∧ t.flag (hdr 0x130 0x10) 4 = true ∧ t.scrubs = false) ∧
    (v ≠ 0 → u ≠ v → ∃ t, exec (.scrubTmrFix ⟨w, u, v, 0⟩ true) s = .next t ∧ t.flag (hdr 0x130 0x10) 4 = true ∧ t.scrubs = false)) ∧
  (∀ s : State, s.fwUp = true → (s.page 0x130).frozen = false → s.flag (scrubAt 0x44) 2 = false → s.scrub.damage = [] →
    s.flag (scrubAt 0x44) 0 = false ∨ s.scrub.moved = true →
    exec .scrubSigCheck s = .next { s with scrub := { s.scrub with moved := false } }) ∧
  (∀ s : State, s.fwUp = true → (s.page 0x130).frozen = false → s.txnOf 0x130 = none →
    s.flag (scrubAt 0x44) 2 = true ∨ (s.scrub.damage ≠ [] ∧ scrubSig s.scrubVoted ≠ scrubSig s.scrubConfig) →
    ∃ t, exec .scrubSigCheck s = .next t ∧ t.flag (scrubAt 0x44) 2 = false ∧ t.scrub.damage = [] ∧ t.reg (scrubAt 0x40) = s.reg (scrubAt 0x40)) ∧
  (∀ s : State, s.fwUp = true → ∃ t, exec .eccCounterPoll s = .next t ∧
    (∀ g cl, g < 64 → s.domainOn g = true → cl / 64 = g → ∀ r ∈ eccCounters, t.fld (fabcAt cl r.1) 15 0 = 0) ∧
    t.fab = s.fab ∧ t.jobs = s.jobs)

/-- Checkpoints: the end of a copy, ageing, log thresholds, announcements and compared signatures. At the end of a copy in
whose pause no fault was found, with no request or write-back waiting at the banks and bank words that read without
error, the job's data stores, operand registers, lines, ST_HELD and copied bank words as they stood are the newest
checkpoint, its dirty bits are clear and its segments leave PAUSE. Checkpoints older than the newest one that is more
than 4,096 ms old, by the signed 64-bit difference, are retired. With firmware up: A log fill of 75 percent asks for a
checkpoint, of 100 percent drops the oldest. An announcement asks for a checkpoint the announced distance ahead and
puts its design cycle in the huddle's fields. Equal signatures make the checkpoint usable; unlike ones record
CMP_MISMATCH, mark the error and count. -/
def Obligations.CheckpointRows : Prop :=
  (∀ (s : State) (j : Nat) (ns : BitVec 32), (s.job j).prot.state = .copying → (s.seq (s.job j).lead).state = .pause →
    (s.job j).ue = false → s.fab.dyn = [] → s.fab.mbWb = [] → Sparse.wf 0 s.fab.mb = true →
    (∀ bank w, bank < 16384 → w < 4096 → (s.job j).mask.getLsbD (bank / 256) = true →
      (s.bankRead bank w).2 = false ∧ (s.bankRead bank w).1.syn = 0 ∧ (s.bankRead bank w).1.ue = false) →
    ∃ (u : State) (c : CkptRec), exec (.ckptCopyComplete j ns) s = .next (u.enterZero j) ∧ (u.job j).prot.state = .armed ∧
      (u.job j).prot.retained.getLast? = some c ∧ c.m = (s.job j).m ∧ (u.job j).m = (s.job j).m ∧
      c.ds = (s.job j).part s.fab.ds 8388608 ∧ c.ors = (s.job j).part s.fab.ors 512 ∧
      c.lines = (s.job j).lines ∧ c.stHeld = (s.job j).stHeld ∧
      ∀ g, g < 64 → (s.job j).mask.getLsbD g = true →
        (∀ i w, i < 256 → w < 4096 → s.copied j (g * 256 + i) w = true →
          Sparse.get 0 c.mb ((g * 256 + i) * 4096 + w) = Sparse.get 0 s.fab.mb ((g * 256 + i) * 4096 + w)) ∧
        (∀ i, i < 256 → Sparse.get 0 u.fab.dirty (g * 256 + i) = 0) ∧ ((s.seq g).state = .pause → (u.seq g).state = .run)) ∧
  (∀ (s : State) (j : Nat) (a cs : List CkptRec) (c : CkptRec), s.fwUp = true → (s.job j).prot.retained = a ++ c :: cs →
    let age := fun (k : CkptRec) => signedOf 64 (unsignedOf 64 ((s.flat : Int) - k.ns))
    4096000000 < age c → (∀ k ∈ cs, age k ≤ 4096000000) →
    ∃ t, exec (.ckptRetireAge j) s = .next t ∧ (t.job j).prot.retained = c :: cs ∧
      t.job j = { s.job j with prot := { (s.job j).prot with retained := c :: cs, log := (t.job j).prot.log } }) ∧
  (∀ (s : State) (j fill : Nat), j < 64 → s.fwUp = true → (s.job j).prot.state ≠ .off → (s.job j).prot.state ≠ .failed →
    let shown := s.setFld (ckptAt j 4) 22 16 (min 100 fill)
    (fill < 75 → exec (.replayLogThreshold j fill) s = .next shown) ∧
    (75 ≤ fill → fill < 100 → exec (.replayLogThreshold j fill) s = .next (shown.requestCkpt j)) ∧
    (∀ c cs, 100 ≤ fill → (s.job j).prot.retained = c :: cs → ∃ t, exec (.replayLogThreshold j fill) s = .next t ∧
      (t.job j).prot.retained = cs ∧ t.fld (ckptAt j 4) 22 16 = 100 ∧ (t.job j).prot.requested = ((shown.requestCkpt j).job j).prot.requested)) ∧
  (∀ (s : State) (j : Nat), j < 64 → s.fwUp = true → (s.job j).prot.state ≠ .off → (s.job j).prot.state ≠ .failed →
    s.peerLanes j ≠ [] → (s.job j).prot.requested = none → (s.job j).prot.replay = none → ∃ t, exec (.ckAnnounce j) s = .next t ∧
      (t.job j).prot.requested = some ((s.job j).m + s.fld (hudAt j 0) 10 4) ∧ t.flag (hudAt j 4) 6 = true ∧
      t.fld (hudAt j 4) 15 8 = ((s.job j).m + s.fld (hudAt j 0) 10 4) % 256) ∧
  (∀ (s : State) (j m : Nat) (a : BitVec 64), (s.job j).cmpDue = some (m, a, a) →
    ∃ t, exec (.compareSignatures j) s = .next t ∧ (t.job j).cmpDue = none ∧ (t.job j).ue = (s.job j).ue ∧
      ∀ c ∈ (t.job j).prot.retained, c.m = m + 1 → c.usable = true) ∧
  (∀ (s : State) (j m : Nat) (a b : BitVec 64), j < 64 → (s.job j).cmpDue = some (m, a, b) → a ≠ b →
    ∃ t, exec (.compareSignatures j) s = .next t ∧ (t.job j).cmpDue = none ∧ (t.job j).ue = true ∧
      (∃ r ∈ (t.job j).faults, r.code = 0x0388 ∧ r.cls = 1 ∧ r.job = j ∧ r.m = m) ∧
      t.fld (ckptAt j 0x1C) 15 0 = min 65535 (s.fld (ckptAt j 0x1C) 15 0 + 1))

/-- Fault handling, rollback, restore and replay markers. Firmware up: a class 1 fault of an unprotected job fails it; of
an armed job, at a place other than the last rollback's, it starts a rollback to the target with the frontier at the
fault's design cycle, or fails the job without a target. For a class 2 scrub mismatch, firmware rewrites exactly the
piece from the verified copy; where no rewrite held (a free choice, log entry 85) no store changes and a protected
job's protection fails. ROLLBACK_START drops later checkpoints, changes nothing in the fabric and opens the next
huddle epoch. RESTORE_COMPLETE gives the data stores and m of the checkpoint and re-executes, or on an error goes to
the next older checkpoint, or fails. A new replay marker on a peer lane starts the rollback to the checkpoint it
names. -/
def Obligations.RollbackRows : Prop :=
  (∀ (s : State) (j : Nat) (f : FaultRec), s.fwUp = true → (s.job j).faults = [f] → f.cls = 1 → (s.job j).live = true →
    (s.job j).reload = none → (∀ g, (s.job j).prot.recent = some g → f.samePlace g.1 = false) →
    ((s.job j).prot.state = .off → ∃ t, exec (.faultHandlingStart j) s = .next t ∧ (t.job j).failed = true ∧ (t.job j).faults = []) ∧
    ((s.job j).prot.state = .armed → (s.job j).prot.replay = none →
      (∀ mC, (s.job j).target f.m = some mC → ∃ t r, exec (.faultHandlingStart j) s = .next t ∧ (t.job j).faults = [] ∧
        (t.job j).prot.state = .rollback ∧ (t.job j).prot.replay = some r ∧ r.mC = mC ∧ r.mF = f.m ∧ r.fault = f ∧ r.restored = false ∧
        (t.job j).failed = (s.job j).failed) ∧
      ((s.job j).target f.m = none → ∃ t, exec (.faultHandlingStart j) s = .next t ∧ (t.job j).prot.state = .failed ∧
        (t.job j).failed = true))) ∧
  (∀ (s : State) (j cl st off n : Nat) (f : FaultRec), s.fwUp = true → (s.job j).faults = [f] → f.cls = 2 → f.code = 0x0387 →
    f.w7.testBit 0 = true → s.pieceOf j f = some (cl, st, off, n) →
    let held := Config.freeBit s.free || Config.freeBit (s.free + 1) || Config.freeBit (s.free + 2)
    ∃ t, exec (.faultHandlingStart j) s = .next t ∧
      (held = true → t.job j = { s.job j with faults := [] } ∧ t.fab = { s.fab with cfg := t.fab.cfg } ∧
        Sparse.bytes t.fab.cfg (cfgBase cl + storeBase st + off) n = Sparse.bytes s.fab.copy (cfgBase cl + storeBase st + off) n ∧
        ∀ a, a < cfgBase cl + storeBase st + off ∨ cfgBase cl + storeBase st + off + n ≤ a →
          Sparse.get 0 t.fab.cfg a = Sparse.get 0 s.fab.cfg a) ∧
      (held = false → t.fab.cfg = s.fab.cfg ∧
        ((s.job j).live = true → (s.job j).prot.state ≠ .off → (t.job j).prot.state = .failed))) ∧
  (∀ (s : State) (j : Nat) (r : Replay), j < 64 → s.fwUp = true → (s.job j).prot.state = .rollback → (s.job j).prot.replay = some r → r.restored = false →
    s.standing j = true → s.stepLocked j = true → (∀ f ∈ (s.job j).faults, 2 < f.cls) →
    ∃ t, exec (.rollbackStart j) s = .next t ∧ (t.job j).prot.replay = some { r with restored := true } ∧
      (∀ c ∈ (t.job j).prot.retained, c.m ≤ r.mC) ∧ t.fab = s.fab ∧
      (s.fld (hudAt j 4) 2 0 ≠ 0 → t.fld (hudAt j 4) 2 0 = 2 ∧ t.epoch j = (s.epoch j + 1) % 8)) ∧
  (∀ (s : State) (j : Nat) (r : Replay) (c : CkptRec), s.fwUp = true → (s.job j).reload = none → (s.job j).prot.state = .rollback → (s.job j).prot.replay = some r →
    r.restored = true → (segsOf (s.job j).mask).any s.segDown = false → (s.job j).windows.all (fun w => s.octantOk w.1) = true →
    (s.job j).prot.retained.find? (fun k => k.m == r.mC) = some c →
    (Sparse.wf false c.ds = true → ∃ t, exec (.restoreComplete j false) s = .next t ∧ (t.job j).prot.state = .reexec ∧
      (t.job j).prot.replay = some r ∧ (t.job j).m = c.m ∧ (t.job j).e = 0 ∧ (t.job j).lines = c.lines ∧ (t.job j).ue = false ∧
      ∀ g i, g < 64 → (s.job j).mask.getLsbD g = true → i < 8388608 →
        Sparse.get false t.fab.ds (g * 8388608 + i) = Sparse.get false c.ds (g * 8388608 + i)) ∧
    (∀ o, ((s.job j).prot.retained.filter (fun k => decide (k.m < c.m))).getLast? = some o →
      ∃ t, exec (.restoreComplete j true) s = .next t ∧ (t.job j).prot.state = .rollback ∧
        (t.job j).prot.replay = some { r with mC := o.m } ∧ t.fab = s.fab ∧ ∀ k ∈ (t.job j).prot.retained, k.m < c.m) ∧
    ((s.job j).prot.retained.filter (fun k => decide (k.m < c.m)) = [] →
      ∃ t, exec (.restoreComplete j true) s = .next t ∧ (t.job j).prot.state = .failed)) ∧
  (∀ (s : State) (n j : Nat) (m : BitVec 64) (attempt : BitVec 8) (c : CkptRec), s.laneJob n = some j → n ∈ s.peerLanes j →
    (s.job j).live = true → (s.lane n).state = .operational →
    (∀ k ∈ s.peerLanes j, (s.lane k).markerSeen ≠ some (m.toNat, attempt.toNat)) → (s.job j).prot.state = .armed →
    (s.job j).prot.replay = none → (s.job j).prot.recent = none → (s.job j).prot.unlogged = false →
    (s.job j).prot.retained.find? (fun k => k.m == m.toNat) = some c →
    ∃ t r, exec (.replayMarkerRx n m attempt) s = .next t ∧ (t.job j).prot.state = .rollback ∧ (t.job j).prot.replay = some r ∧
      r.mC = c.m ∧ r.mF = (s.job j).m ∧ (t.lane n).markerSeen = some (m.toNat, attempt.toNat))

/-- Lane bring-up: each event takes a lane to the state the state diagram gives and leaves every other lane. From OFF a
lane that is told to come up waits for a signal once its group's PLL is locked, or goes to TEST; told to go down it is
OFF. A signal leads to ALIGN; alignment to TRAIN, or its timeout to FAILED 2; training with the frames held and the
figure of merit reached to MEASURE, or its timeout to FAILED 3; the measured latency within lambda to OPERATIONAL,
beyond it to FAILED 4. A lost lock leads to FAILED 5, or to ALIGN with automatic retraining. A lost group PLL fails
every lane of the group that is not OFF with code 1 and no lane elsewhere. -/
def Obligations.LaneBringUpRows : Prop :=
  ∀ (s : State) (n : Nat), n < 64 →
    let l := s.lane n
    let reaches := fun (c : Instr) (st : LaneState) (fail : Nat) => ∃ t, exec c s = .next t ∧ (t.lane n).state = st ∧
      (t.lane n).failCode = fail ∧ t.flag (hdr (lanePage n) 0x10) 3 = true ∧ ∀ k, k ≠ n → t.lane k = s.lane k
    (∀ rq, s.Admits rq (laneAt n 0x40) → s.txnOf (lanePage n) = none → s.laneJob n = none →
      (l.state = .off → s.lanePllLocked n = true → reaches (.laneUpWrite rq n 1) .waitSignal 0) ∧
      (l.state = .off → s.lanePllLocked n = false → ∃ t, exec (.laneUpWrite rq n 1) s = .next t ∧ (t.lane n).state = .off) ∧
      (l.state = .off → reaches (.laneUpWrite rq n 0x21) .test 0) ∧
      (l.state ≠ .off → reaches (.laneUpWrite rq n 0) .off 0)) ∧
    (l.state = .waitSignal → reaches (.signalDetected n) .align 0) ∧
    (l.state = .align → reaches (.alignDone n) .train 0 ∧ reaches (.alignTimeout n) .failed 2) ∧
    (l.state = .train → 16 ≤ l.holdFrames → s.fld (laneAt n 0x54) 31 24 ≤ s.fld (laneAt n 0x54) 7 0 → reaches (.trainDone n) .measure 0) ∧
    (l.state = .train → reaches (.trainTimeout n) .failed 3) ∧
    (l.state = .measure → 1024 ≤ l.samples →
      let meas := (l.maxRtt + 1) / 2 + 8
      (∃ t, exec (.measureDone n) s = .next t ∧ t.fld (laneAt n 0x48) 25 16 = min 1023 meas) ∧
      (meas ≤ s.lambda n → reaches (.measureDone n) .operational 0) ∧
      (s.lambda n < meas → reaches (.measureDone n) .failed 4)) ∧
    (l.state.receives = true → s.flag (laneAt n 0x40) 1 = false → reaches (.lockLost n) .failed 5) ∧
    (l.state.receives = true → s.flag (laneAt n 0x40) 1 = true →
      ∃ t, exec (.lockLost n) s = .next t ∧ (t.lane n).state = .align ∧ t.flag (hdr (lanePage n) 0x10) 3 = true) ∧
    (∃ t, exec (.lanePllUnlock (n / 16)) s = .next t ∧ t.lanePllLocked n = false ∧
      (l.state ≠ .off → (t.lane n).state = .failed ∧ (t.lane n).failCode = 1) ∧
      (l.state = .off → (t.lane n).state = .off) ∧ ∀ k, k / 16 ≠ n / 16 → t.lane k = s.lane k)

/-- Lane traffic: frames sent and received, elastic buffer, control frames, figure of merit, patterns and injected errors.
A command sends the next message of a frame (log entry 90): the first carries the fixed word, the frame number and the
identity of package and lane and keeps the stamp; after the fourth the frame is whole and the next number follows; in
far-end loopback the message received last is sent. A lost message counts and raises its cause, the eighth in a row
loses lock. A good first message resets the run of losses and records the partner. A received word is placed lambda
after its position in a buffer that is not full and leaves the others. A control frame that is not whole counts; a PTP
frame with no PTP instance, and a firmware frame on a lane of no job, leave all else as it was. The figure of merit,
its low mark and the low flag follow the sample. A locked checker counts the bits it hears and stays locked; one not
locked counts nothing and cannot lock before 64 bits. The clear zeroes both counters; an injection counts and is owed
to the next symbols. -/
def Obligations.LaneTrafficRows : Prop :=
  ∀ (s : State) (n : Nat), n < 64 →
    let l := s.lane n
    (∀ stamp, l.state.sends = true → ∃ t m, exec (.frameTransmit n stamp) s = .next t ∧ (t.lane n).state = l.state ∧
      (l.line.cw < 3 → (t.lane n).line.cw = l.line.cw + 1 ∧ (t.lane n).line.msgs = l.line.msgs ++ [m] ∧ (t.lane n).sent = l.sent ∧
        (t.lane n).txSeq = l.txSeq) ∧
      (3 ≤ l.line.cw → (t.lane n).line.cw = 0 ∧ (t.lane n).line.msgs = [] ∧ (t.lane n).sent = l.line.msgs ++ [m] ∧
        (t.lane n).txSeq = l.txSeq + 1) ∧
      (l.line.cw = 0 → (t.lane n).line.stamp = stamp.toNat) ∧ (l.line.cw = 1 → (t.lane n).eqAckTx = 0) ∧
      (s.fld (laneAt n 0x40) 7 6 = 2 → m = l.line.rxMsg.getD 0) ∧
      (s.fld (laneAt n 0x40) 7 6 ≠ 2 → l.line.cw = 0 →
        natBits m.toNat 63 0 = 0xB10A0B0F5A3C96E1 ∧ natBits m.toNat 95 64 = l.txSeq.toNat ∧
        natBits m.toNat 100 96 = s.fld (laneGroupAt 0 0x44) 4 0 ∧ natBits m.toNat 106 101 = n ∧ natBits m.toNat 137 136 = 0)) ∧
    (∀ msg k stamp, l.state.receives = true → s.fld (laneAt n 0x40) 7 6 ≠ 1 → l.line.held = none →
      ∃ t, exec (.codewordMessageRx n msg false k stamp) s = .next t ∧
        (l.lostRun < 7 → t.lane n = { l with lostRun := l.lostRun + 1, rxWhole := false, line := l.line.missed }) ∧
        (7 ≤ l.lostRun → (t.lane n).state = if s.flag (laneAt n 0x40) 1 then .align else .failed) ∧
        t.fld (laneAt n 0x64) 31 0 = min 4294967295 (s.fld (laneAt n 0x64) 31 0 + 1) ∧ t.flag (hdr (lanePage n) 0x10) 6 = true) ∧
    (∀ msg k stamp, l.state.receives = true → s.fld (laneAt n 0x40) 7 6 ≠ 1 →
      let v := BitVec.toNat msg
      crc32Bits 5108 (v % 2 ^ 5108) = BitVec.ofNat 32 (v / 2 ^ 5108) → natBits v 137 136 = 0 →
      ∃ t, exec (.codewordMessageRx n msg true k stamp) s = .next t ∧ (t.lane n).lostRun = 0 ∧ (t.lane n).rxCw = 1 ∧
        (t.lane n).line.rxMsg = some msg ∧ t.lanePartner n = some (natBits v 100 96, natBits v 106 101)) ∧
    (∀ j abs w parked, (s.job j).abs ≤ abs + s.lambda n → (l.elastic.filter (fun v => v.due != abs + s.lambda n)).length < 1024 →
      let t := s.placeBlock n j abs [w] parked
      ⟨abs + s.lambda n, w, parked⟩ ∈ (t.lane n).elastic ∧
      ∀ v ∈ l.elastic, v.due ≠ abs + s.lambda n → v ∈ (t.lane n).elastic) ∧
    (∀ i, l.line.ctlIn.length ≤ i → exec (.controlFrameRx n i) s = .next s) ∧
    (∀ f i, l.line.ctlIn[i]? = some f →
      let u := s.setLane n { l with line := { l.line with ctlIn := l.line.ctlIn.eraseIdx i } }
      (f.whole = false → exec (.controlFrameRx n i) s = .next (u.bump (laneAt n 0x6C) 31 16 1)) ∧
      (f.whole = true → s.fwUp = false → exec (.controlFrameRx n i) s = .next s) ∧
      (f.whole = true → s.fwUp = true → f.kind = 1 → s.time.ptp = none → exec (.controlFrameRx n i) s = .next u) ∧
      (f.whole = true → s.fwUp = true → f.kind = 2 → s.laneJob n = none → exec (.controlFrameRx n i) s = .next { u with free := s.free + 1 })) ∧
    (∀ fom, ∃ t, exec (.fomUpdate n fom) s = .next t ∧ t.fld (laneAt n 0x54) 7 0 = fom.toNat ∧
      t.fld (laneAt n 0x74) 7 0 = min fom.toNat (s.fld (laneAt n 0x74) 7 0) ∧
      t.flag (laneAt n 0x44) 3 = decide (fom.toNat < s.fld (laneAt n 0x54) 23 16)) ∧
    (∀ heard : List Bool, l.state = .test → s.fld (laneAt n 0x80) 7 4 ≠ 0 → s.fld (laneAt n 0x40) 7 6 ≠ 1 →
      ∃ t, exec (.patternCheckerLock ⟨n, heard⟩) s = .next t ∧ (t.lane n).state = .test ∧
        (s.flag (laneAt n 0x90) 0 = true → t.flag (laneAt n 0x90) 0 = true ∧
          t.reg64 (laneAt n 0x9C) = (s.reg64 (laneAt n 0x9C) + heard.length) % 2 ^ 64 ∧
          ∃ e, e ≤ heard.length ∧ t.reg64 (laneAt n 0x94) = (s.reg64 (laneAt n 0x94) + e) % 2 ^ 64) ∧
        (s.flag (laneAt n 0x90) 0 = false → l.line.run + heard.length < 64 → t.flag (laneAt n 0x90) 0 = false ∧
          t.reg64 (laneAt n 0x94) = s.reg64 (laneAt n 0x94) ∧ t.reg64 (laneAt n 0x9C) = s.reg64 (laneAt n 0x9C))) ∧
    (∀ rq, s.Admits rq (laneAt n 0xA4) →
      exec (.lanePatClr rq n) s = .next (((s.crossReg rq (laneAt n 0xA4) true).setReg64 (laneAt n 0x94) 0).setReg64 (laneAt n 0x9C) 0)) ∧
    (∀ rq, s.Admits rq (laneAt n 0xA8) → s.fld (laneAt n 0xA8) 9 2 ≠ 0 → 3 ≤ s.fld (laneAt n 0xA8) 13 10 →
      s.fld (laneAt n 0xA8) 13 10 ≤ 12 → l.state = .test ∨ l.state = .operational →
      (s.fld (laneAt n 0xA8) 1 0 = 1 → ∃ t, exec (.laneInjFire rq n) s = .next t ∧ (t.lane n).line.owed = l.line.owed + 1 ∧
        t.reg (laneAt n 0xAC) = s.reg (laneAt n 0xAC)) ∧
      (s.fld (laneAt n 0xA8) 1 0 = 2 → ∃ t, exec (.laneInjFire rq n) s = .next t ∧
        (t.lane n).line.owed = l.line.owed + s.fld (laneAt n 0xA8) 9 2 ∧
        t.reg (laneAt n 0xAC) = s.reg (laneAt n 0xAC)))

namespace Sys2Proof.Machine
/-- A bank that serves a request at once: awake, in no bulk clear, with no fabric access in the position and nothing waiting. -/
structure State.BankIdle (s : State) (bank : Nat) : Prop where
  awake : s.bankStatus bank = .ok
  clear : s.bankClearing bank = false
  use   : s.fabricUse bank = none
  queue : s.fab.dyn.any (fun x => x.bank == bank) = false
  wb    : s.fab.mbWb.all (fun x => x.bank != bank) = true

/-- No access of the function is in progress, and none of another has anything left to present. -/
def State.FnIdle (s : State) (fn : Nat) : Prop := ∀ a ∈ s.access, a.todo = [] ∧ a.reqs = [] ∧ a.reg = none ∧ a.fn ≠ fn
end Sys2Proof.Machine

/-- The capture engine: arm, stop, trigger, markers, records, rearm and gaps. ARM empties the engine and waits in the
first segment; STOP closes the segment with its status and counts it; a host trigger sets the host event. A boundary
marker settles the oldest record that still owes it. An assembled record is written at the ring's place, or its design
cycle is lost and counted when there is no room; where its records would cover the TRIG record the segment closes
first. A trigger starts the count of records after it and fixes its design cycle, time and state. Rearm goes to the
next segment, around the ring of segments, or is done. A gap record is written once there is room and ends the loss,
unless it would cover the TRIG record: then the segment closes with the loss still owed. -/
def Obligations.CaptureRows : Prop :=
  (∀ (s : State) (rq : Requester) (j : Nat), s.Admits rq (capAt 0 0x58) → s.cap.job = some j →
    s.cap.state = .idle ∨ s.cap.state = .done ∨ s.cap.state = .stopped →
    ∃ t, exec (.capArm rq) s = .next t ∧ t.cap.state = .armed ∧ t.cap.seq = 0 ∧ t.cap.seg = 0 ∧ t.cap.off = 64 ∧ t.cap.ring = [] ∧
      t.cap.recs = [] ∧ t.cap.stage = s.cap.stage ∧ t.reg (capAt 0 0x60) = 0) ∧
  (∀ (s : State) (rq : Requester), s.Admits rq (capAt 0 0x58) →
    (∀ status, (s.cap.state = .armed ∧ status = 3) ∨ (s.cap.state = .post ∧ status = 2) →
      ∃ t, exec (.capStop rq) s = .next t ∧ t.cap.state = .stopped ∧ t.cap.closed = status ∧ t.cap.recs = [] ∧
        t.fld (capAt 0 0x60) 16 0 = min 131071 (s.fld (capAt 0 0x60) 16 0 + 1)) ∧
    exec (.capTrigger rq) s = .next ((s.crossReg rq (capAt 0 0x58) true).setCap { s.cap with hostEv := true })) ∧
  (∀ (s : State) (seg : Nat) (a rs : List CapRec) (r : CapRec), s.cap.recs = a ++ r :: rs → (∀ x ∈ a, seg ∉ x.owed) → seg ∈ r.owed →
    exec (.capBoundaryMarker seg) s =
      .next (s.setCap { s.cap with recs := a ++ { r with owed := r.owed.filter (· != seg) } :: rs })) ∧
  (∀ (s : State) (r : CapRec) (rs : List CapRec), s.cap.recs = r :: rs → r.owed = [] → r.wait = false →
    let len := 1 + (s.cap.probes.length + 63) / 64
    (s.cap.state = .rearm → exec .capRecordAssemble s = .next s) ∧
    (s.cap.state = .post → s.capWouldCover (s.capWrites r) = true → ∃ t, exec .capRecordAssemble s = .next t ∧ t.cap.state = .rearm ∧
      t.cap.closed = 2 ∧ t.cap.recs = s.cap.recs ∧ t.cap.lost = s.cap.lost) ∧
    (s.cap.state = .armed → r.replay = none → s.cap.seq < 16 → s.reg (capAt 1 (0x40 + 0x10 * s.cap.seq)) = 0 →
      s.reg (capAt 1 (0x44 + 0x10 * s.cap.seq)) = 0 → s.cap.lost = none →
      (s.capRoom len = true → s.cap.off + 8 * len ≤ s.capSize → ∃ t, exec .capRecordAssemble s = .next t ∧ t.cap.state = .armed ∧
        t.cap.recs = rs ∧ t.cap.off = s.cap.off + 8 * len ∧ t.cap.ring.getLast? = some ⟨s.cap.off, len, 1, r.m⟩ ∧
        t.reg64 (capAt 0 0x68) = r.m % 2 ^ 64 ∧ t.cap.lost = none) ∧
      (s.capRoom len = false → ∃ t, exec .capRecordAssemble s = .next t ∧ t.cap.lost = some (r.m, 1) ∧ t.cap.off = s.cap.off ∧
        t.cap.recs = rs ∧ t.reg (capAt 0 0x70) = BitVec.ofNat 32 (min 4294967295 ((s.reg (capAt 0 0x70)).toNat + 1))))) ∧
  (∀ (s : State) (st m : Nat) (stamp : Stamp), s.cap.state = .armed → let t := s.capFire st m stamp false none
    t.cap.state = .post ∧ t.cap.left = s.fld (capAt 0 0x50) 31 0 ∧ t.flag (hdr 0x110 0x10) 3 = true ∧
    ∃ x, t.cap.trig = some x ∧ x.m = m ∧ x.origin = m ∧ x.stamp = stamp ∧ x.state = st) ∧
  (∀ (s : State), s.cap.state = .rearm →
    let count := s.fld (capAt 0 0x4C) 16 0
    (s.cap.seg + 1 < count → ∃ t, exec .capRearmDone s = .next t ∧ t.cap.state = .armed ∧ t.cap.seg = s.cap.seg + 1 ∧
      t.cap.off = 64 ∧ t.cap.ring = []) ∧
    (count ≤ s.cap.seg + 1 → s.flag (capAt 0 0x40) 8 = true → ∃ t, exec .capRearmDone s = .next t ∧ t.cap.state = .armed ∧
      t.cap.seg = 0 ∧ t.cap.off = 64 ∧ t.cap.ring = []) ∧
    (count ≤ s.cap.seg + 1 → s.flag (capAt 0 0x40) 8 = false → ∃ t, exec .capRearmDone s = .next t ∧ t.cap.state = .done ∧
      t.cap.recs = [] ∧ t.flag (hdr 0x110 0x10) 5 = true)) ∧
  (∀ (s : State) (m n : Nat), s.cap.lost = some (m, n) → s.cap.state = .armed ∨ s.cap.state = .post → s.capRoom (2 + s.capLen) = true →
    (s.capWouldCover [2] = false → ∃ t, exec .capGap s = .next t ∧ t.cap.lost = none ∧
      t.fld (capAt 0 0x74) 15 0 = min 65535 (s.fld (capAt 0 0x74) 15 0 + 1) ∧ t.flag (hdr 0x110 0x10) 6 = true ∧
      (s.cap.state = .armed → t.cap.state = .armed ∧ ∃ i ∈ t.cap.ring, i.type = 2 ∧ i.m = m)) ∧
    (s.capWouldCover [2] = true → ∃ t, exec .capGap s = .next t ∧ t.cap.state = .rearm ∧ t.cap.closed = 2 ∧ t.cap.lost = some (m, n)))

/-- PCIe link training, resets, function-level resets and MSI-X unmasking. Training sets the lower of the two speeds, the
width and FLIT mode; an up link rests in L1 where Link Control enables it. A reset clears every function and the link
status, drops the host's reads in progress, keeps HBM and jobs and counts unless it is hot. A function-level reset
clears that function (function 0: every one), its ring indices and its accesses, counts and logs. Unmasking a vector
with no other message due clears its mask alone, and with MSI-X on and the function unmasked sends the pending message
with the table's address and data. -/
def Obligations.PcieRows : Prop :=
  (∀ (s : State) (partner : BitVec 3) (width : BitVec 5), (∀ flit, s.flag (clkAt 0x44) 9 = true → partner ≠ 0 →
    s.fld (pcieAt 0x44) 2 0 ≠ 0 → ∃ t, exec (.pcieLinkTraining partner width (.up flit)) s = .next t ∧
      t.fld (pcieAt 0x40) 2 0 = min partner.toNat (s.fld (pcieAt 0x44) 2 0) ∧ t.fld (pcieAt 0x40) 7 3 = width.toNat ∧
      t.flag (pcieAt 0x40) 8 = (flit || min partner.toNat (s.fld (pcieAt 0x44) 2 0) == 6) ∧ t.flag (pcieAt 0x40) 9 = false) ∧
    (s.fld (pcieAt 0x40) 2 0 ≠ 0 → ((s.pcieFn 0).config 0 cfgLink).getLsbD 1 = true →
      exec (.pcieLinkTraining partner width .l1) s = .next (s.setFlag (pcieAt 0x40) 9 true)) ∧
    (((s.pcieFn 0).config 0 cfgLink).getLsbD 1 = false → exec (.pcieLinkTraining partner width .l1) s = .next s)) ∧
  (∀ (s : State) (kind : PcieResetKind), ∃ t, exec (.pcieReset kind) s = .next t ∧ t.fns = [] ∧ t.reg (pcieAt 0x40) = 0 ∧
    t.access = s.access.filter (fun a => a.write || a.fw) ∧ t.hbm = s.hbm ∧ t.jobs = s.jobs ∧
    t.fld (pcieAt 0x58) 15 0 = (if kind = .hot then s.fld (pcieAt 0x58) 15 0 else min 65535 (s.fld (pcieAt 0x58) 15 0 + 1))) ∧
  (∀ (s : State) (fn : Nat), fn < 64 → ∃ t, exec (.flr fn) s = .next t ∧
    (∀ k, k < 64 → k = fn ∨ fn = 0 → t.pcieFn k = {} ∧ (∀ a ∈ t.access, a.fn = k → a.fw = true) ∧
      t.reg (mboxAt k 0x54) = 0 ∧ t.reg (mboxAt k 0x58) = 0 ∧ t.reg (mboxAt k 0x60) = 0) ∧
    (fn ≠ 0 → ∀ k, k ≠ fn → t.pcieFn k = s.pcieFn k) ∧
    t.fld (pcieAt 0x58) 31 16 = min 65535 (s.fld (pcieAt 0x58) 31 16 + 1) ∧ t.theham.logSeq = s.theham.logSeq + 1) ∧
  (∀ (s : State) (fn v : Nat), v < 8 →
    let f := s.pcieFn fn
    (∀ i, i < 8 → i ≠ v → f.pba.getLsbD i = true → f.sends fn i = false) →
    ∃ t, exec (.msixUnmask fn v) s = .next t ∧ (t.pcieFn fn).masked.getLsbD v = false ∧ (t.pcieFn fn).table = f.table ∧
      (∀ i, i ≠ v → (t.pcieFn fn).masked.getLsbD i = f.masked.getLsbD i ∧ (t.pcieFn fn).pba.getLsbD i = f.pba.getLsbD i) ∧
      (f.msixOn fn = true → (t.pcieFn fn).pba.getLsbD v = false ∧
        t.out = if f.pba.getLsbD v then s.out ++ [.msix fn v (f.message v).1 (f.message v).2] else s.out) ∧
      (f.msixOn fn = false → (t.pcieFn fn).pba = f.pba ∧ t.out = s.out))

/-- Host BAR2 accesses and atomics, and NoC packets. A BAR2 access beyond the size limits is malformed; one that is not
served is answered UR or ignored and recorded. With nothing of the function in progress, on a bank that serves at
once, a read returns it, ADD and SWAP store their result and return the old word, a write stores. A 64-byte HBM access
enters the host's FIFO at its pseudo-channel with its data and changes nothing yet. An atomic of another place, size
or kind is answered CA. A packet's flits count at each router output of its route, x first and then y, and at no
other. A malformed packet, or a management packet from a source that may not manage, is dropped and counted; a
register write or read packet acts as the access of its requester and is answered with its tag to its source; an
atomic ADD packet at the bridge stores the sum and is answered with its tag and the old word. -/
def Obligations.HostMemoryAndNocRows : Prop :=
  (
    (∀ (s : State) (fn off n : Nat) (bytes : List Byte),
      (4096 < n → exec (.bar2Read fn off n) s = .next (s.aer fn 18)) ∧
      (512 < bytes.length → exec (.bar2Write fn off bytes) s = .next (s.aer fn 18)) ∧
      (n ≤ 4096 → s.bar2Served fn off n = false → exec (.bar2Read fn off n) s =
        .next (((s.crossBar2 off n false).hostFail fn false false 1 off .ur).emit (.completion fn [] .ur))) ∧
      (bytes.length ≤ 512 → s.bar2Served fn off bytes.length = false → exec (.bar2Write fn off bytes) s =
        .next ((s.crossBar2 off bytes.length true).hostFail fn true false 1 off .ur))) ∧
    (∀ (s : State) (fn bank w : Nat) (old d : Dword), bank < 16384 → w < 4096 →
      let off := apertureBase + bank * 0x8000 + w * 8
      s.bar2Served fn off 8 = true → s.BankIdle bank → s.FnIdle fn →
      (s.bankRead bank w = (⟨old.toNat, 0, false⟩, false) →
        (∃ t, exec (.bar2Read fn off 8) s = .next t ∧ t.out = s.out ++ [.completion fn (leBytes 8 old.toNat) .ok] ∧ t.fab = s.fab ∧
          t.access = s.access ∧ t.regs = s.regs) ∧
        (∃ t, exec (.pcieAtomic fn 2 off 0 64 d) s = .next t ∧ t.fab.mb = (s.bankStore bank w (old + d)).fab.mb ∧ t.access = s.access ∧
          .completion fn (leBytes 8 old.toNat) .ok ∈ t.out) ∧
        (∃ t, exec (.pcieAtomic fn 2 off 1 64 d) s = .next t ∧ t.fab.mb = (s.bankStore bank w d).fab.mb ∧ t.access = s.access ∧
          .completion fn (leBytes 8 old.toNat) .ok ∈ t.out)) ∧
      ∃ t, exec (.bar2Write fn off (leBytes 8 d.toNat)) s = .next t ∧ t.fab.mb = (s.bankStore bank w d).fab.mb ∧ t.access = s.access) ∧
    (∀ (s : State) (fn p : Nat), p % 64 = 0 → p < apertureBase → s.bar2Served fn p 64 = true →
      s.FnIdle fn → ((s.ref (pcOf p)).fifo 20).length < 8 →
      let arrived := fun (write : Bool) (bytes : List Byte) =>
        ({ req := { offset := pcOffset p, write := write, data := bytes, lock := 1, id := s.nextAccess }, age := 0, boost := 0
           waited := 0, fresh := true, held := false } : RefPend)
      (∃ t, exec (.bar2Read fn p 64) s = .next t ∧ (t.ref (pcOf p)).fifo 20 = (s.ref (pcOf p)).fifo 20 ++ [arrived false []] ∧
        t.hbm = s.hbm ∧ t.out = s.out) ∧
      (∀ bytes : List Byte, bytes.length = 64 → ∃ t, exec (.bar2Write fn p bytes) s = .next t ∧
        (t.ref (pcOf p)).fifo 20 = (s.ref (pcOf p)).fifo 20 ++ [arrived true bytes] ∧ t.hbm = s.hbm ∧ t.out = s.out)) ∧
    (∀ (s : State) (fn bar off kind size : Nat) (d : Dword), bar ≠ 2 ∨ 2 ≤ kind ∨ size ≠ 64 ∨ off % 8 ≠ 0 ∨ off < apertureBase ∨ apertureEnd ≤ off →
      exec (.pcieAtomic fn bar off kind size d) s =
        .next (((s.crossBar2 off 8 false).hostFail fn false true (barCode bar) off .ca).emit (.completion fn [] .ca)))) ∧
  (
    ∀ (s : State) (p : NocPacket),
      let addr := nocFld p 127 64
      let access := nocRegAccess p
      let route := nocRoute (nocFld p 10 8) (nocFld p 13 11) (nocFld p 2 0) (nocFld p 5 3)
      let u := s.nocCarry p (nocFld p 22 20)
      (∀ k, Sparse.get 0 u.noc.flits k =
        if k ∈ route then (Sparse.get 0 s.noc.flits k + 1 + nocFld p 41 35) % 2 ^ 32 else Sparse.get 0 s.noc.flits k) ∧
      (nocBad p = true → nocFld p 22 20 ≠ 7 → exec (.nocPacket p) s = .next (u.bump (PageKind.noc.at 0x58) 15 0 1)) ∧
      (nocBad p = false → nocFld p 22 20 = 7 → nocMayManage p = false → nocRequester p = none →
        exec (.nocPacket p) s = .next ((s.bump (PageKind.noc.at 0x44) 15 0 1).nocCarry p 6)) ∧
      (∀ rq, nocBad p = false → nocFld p 22 20 ≠ 7 → nocRequester p = some rq → (nocFld p 2 0, nocFld p 5 3) ≠ (3, 3) →
        addr < 0x4000000 → pageRouter (addr / 0x1000) = some (nocFld p 2 0, nocFld p 5 3) →
        (nocFld p 19 16 = 2 → exec (.nocPacket p) s = .next (u.writeNow rq addr access.1 access.2)) ∧
        (nocFld p 19 16 = 3 → ∃ q, exec (.nocPacket p) s = .next ((u.writeNow rq addr access.1 access.2).nocReply q) ∧
          nocFld q 19 16 = 9 ∧ nocFld q 34 23 = nocFld p 34 23 ∧ nocFld q 7 0 = nocFld p 15 8) ∧
        (nocFld p 19 16 = 1 → ∃ q, exec (.nocPacket p) s = .next ((u.readNow rq addr access.1).nocReply q) ∧
          nocFld q 19 16 = 8 ∧ nocFld q 34 23 = nocFld p 34 23 ∧ nocFld q 7 0 = nocFld p 15 8 ∧ q.data.length = 1)) ∧
      (∀ (fn bank w : Nat) (old : Dword), nocBad p = false → nocFld p 22 20 ≠ 7 → nocRequester p = some (fnRequester fn) → fn < 64 →
        (nocFld p 2 0, nocFld p 5 3) = (3, 3) → nocFld p 19 16 = 4 → bank < 16384 → w < 4096 → addr = apertureBase + bank * 0x8000 + w * 8 →
        s.bar2Served fn addr 8 = true → s.BankIdle bank → s.FnIdle fn → s.bankRead bank w = (⟨old.toNat, 0, false⟩, false) →
        ∃ t q, exec (.nocPacket p) s = .next t ∧ t.access = s.access ∧ .noc q ∈ t.out ∧ nocFld q 19 16 = 10 ∧
          nocFld q 34 23 = nocFld p 34 23 ∧ nocFld q 7 0 = nocFld p 15 8 ∧ nocFld q 335 272 = old.toNat ∧
          t.fab.mb = (s.bankStore bank w (old + BitVec.ofNat 64 (nocFld p 335 272))).fab.mb))

/-- Command rings: doorbells, enabling, taking commands, the agent ring and the board controller. A doorbell of a function
that exists waits behind its posted writes; else a value within the ring's bound is kept, and a command doorbell shows
it; one beyond sets the ring's error. Enabling a ring within the size limits zeroes its indices and doorbells, with an
error for a misaligned base. COMMAND_TAKE with no more commands posted than the ring holds takes the descriptor at the
index, or records the failed read. The agent's ring and the board controller's single command are taken likewise. A
poll stores the indices the agent wrote, which firmware sees while it runs. A submission is accepted while the
controller is free and otherwise marks an overrun; an acknowledge clears valid. -/
def Obligations.MailboxRows : Prop :=
  (∀ (s : State) (fn : Nat) (v : Word), s.fnOn fn = true →
    let ahead := (v - s.reg (mboxAt fn 0x54)).toNat
    let old := (s.pcieFn fn).dbCpl
    let written := (s.reg (mboxAt fn 0x58) - old).toNat
    let waits := fun (off : Nat) => s.addAccess { id := s.nextAccess, fn := fn, write := true, offset := bar4Base + off, len := 0, left := 1
                                                  reg := some (fnRequester fn, bar4Base + off, 32, v.setWidth 64) }
    (s.behind (fnRequester fn) = true → exec (.mboxDbCmd fn v) s = .next (waits 0) ∧ exec (.mboxDbCpl fn v) s = .next (waits 8)) ∧
    (s.behind (fnRequester fn) = false →
      (s.flag (mboxAt fn 0x50) 0 = false ∨ ahead ≤ 2 ^ s.fld (mboxAt fn 0x50) 7 4 →
        exec (.mboxDbCmd fn v) s = .next ((s.setPcieFn fn { s.pcieFn fn with dbCmd := v }).setReg (mboxAt fn 0x60) v)) ∧
      (s.flag (mboxAt fn 0x50) 0 = true → 2 ^ s.fld (mboxAt fn 0x50) 7 4 < ahead → s.flag (mboxAt fn 0x5C) 0 = false →
        exec (.mboxDbCmd fn v) s = .next (s.setFld (mboxAt fn 0x5C) 3 0 3)) ∧
      (s.flag (mboxAt fn 0x50) 0 = false ∨ (v - old).toNat ≤ written →
        exec (.mboxDbCpl fn v) s = .next (s.setPcieFn fn { s.pcieFn fn with dbCpl := v })) ∧
      (s.flag (mboxAt fn 0x50) 0 = true → written < (v - old).toNat → s.flag (mboxAt fn 0x5C) 0 = false →
        exec (.mboxDbCpl fn v) s = .next (s.setFld (mboxAt fn 0x5C) 3 0 5)))) ∧
  (∀ (s : State) (fn : Nat), fn < 64 → s.Admits (fnRequester fn) (PageKind.mbox.at 0x50) → s.txnOf (pageNo (mboxAt fn 0x50)) = none →
    s.flag (mboxAt fn 0x50) 0 = false → 4 ≤ s.fld (mboxAt fn 0x50) 7 4 → s.fld (mboxAt fn 0x50) 7 4 ≤ 12 →
    4 ≤ s.fld (mboxAt fn 0x50) 11 8 → s.fld (mboxAt fn 0x50) 11 8 ≤ 12 →
    ∃ t, exec (.mboxRingEnable (fnRequester fn) fn) s = .next t ∧ t.flag (mboxAt fn 0x50) 0 = true ∧ t.reg (mboxAt fn 0x54) = 0 ∧
      t.reg (mboxAt fn 0x58) = 0 ∧ (t.pcieFn fn).dbCmd = 0 ∧ (t.pcieFn fn).dbCpl = 0 ∧
      t.fld (mboxAt fn 0x5C) 3 0 = (if s.fld (mboxAt fn 0x40) 5 0 = 0 ∧ s.fld (mboxAt fn 0x48) 5 0 = 0 then 0 else 7)) ∧
  (∀ (s : State) (fn : Nat) (bufOk : Bool), s.serving = true → s.flag (mboxAt fn 0x50) 0 = true → s.flag (mboxAt fn 0x5C) 0 = false →
    let cidx := s.reg (mboxAt fn 0x54)
    let slot := cidx.toNat % 2 ^ s.fld (mboxAt fn 0x50) 7 4
    (s.pcieFn fn).dbCmd ≠ cidx → ((s.pcieFn fn).dbCmd - cidx).toNat ≤ 2 ^ s.fld (mboxAt fn 0x50) 7 4 → (cidx - (s.pcieFn fn).dbCpl).toNat < 2 ^ s.fld (mboxAt fn 0x50) 11 8 → s.roomFor (.host fn) = true →
    exec (.commandTake (.host fn) true bufOk) s = .next ((s.setReg (mboxAt fn 0x54) (cidx + 1)).enqueue
      (queuedOf (.host fn) cidx.toNat bufOk (s.hostMem.bytes (s.reg64 (mboxAt fn 0x40) + 64 * slot) 64))).startReady ∧
    exec (.commandTake (.host fn) false bufOk) s = .next (s.setFld (mboxAt fn 0x5C) 3 0 9).startReady) ∧
  (∀ (s : State) (bufOk : Bool), s.serving = true → s.theham.posted ≠ s.theham.taken →
    (s.theham.taken - s.theham.consumed).toNat < 64 → s.roomFor .agent = true →
    ∃ u : State, exec (.commandTake .agent true bufOk) s = .next u.startReady ∧ u.theham.taken = s.theham.taken + 1 ∧ u.regs = s.regs ∧
      u.theham.queued = s.theham.queued ++ [queuedOf .agent s.theham.taken.toNat bufOk
        (s.theham.shared.bytes (64 * (s.theham.taken.toNat % 64)) 64)]) ∧
  (∀ (s : State), s.serving = true → s.theham.bmcBusy = true → s.theham.bmcCmd ≠ [] → s.roomFor .bmc = true →
    exec (.commandTake .bmc true true) s = .next ({ s with theham := { s.theham with
      bmcCmd := [], queued := s.theham.queued ++ [queuedOf .bmc (s.theham.bmcSent % 2 ^ 32) true s.theham.bmcCmd] } }).startReady) ∧
  (∀ (s : State) (posted consumed : Word), ∃ t, exec (.agentRingPoll posted consumed) s = .next t ∧
    (s.fwUp = true → t.theham.posted = posted ∧ t.theham.consumed = consumed) ∧ t.theham.taken = s.theham.taken ∧ t.theham.shared.bytes 0x2000 4 = leBytes 4 posted.toNat ∧
    t.theham.shared.bytes 0x2004 4 = leBytes 4 consumed.toNat) ∧
  (∀ (s : State) (d : List Byte), s.theham.bmcBusy = false → s.theham.bmcValid = false → d.length = 64 →
    exec (.bmcSubmit d) s = .next { s with theham := { s.theham with bmcCmd := d, bmcBusy := true } }) ∧
  (∀ (s : State) (d : List Byte), s.theham.bmcBusy = true ∨ s.theham.bmcValid = true →
    exec (.bmcSubmit d) s = .next { s with theham := { s.theham with bmcOver := true } }) ∧
  (∀ s : State, exec .bmcAck s = .next { s with theham := { s.theham with bmcValid := false } })

/-- The transaction dispatcher: doorbells, scheduling, packets in both directions and flow commands. A doorbell of no flow
counts, one beyond the ring records its code on the group page, counts and is an event, one with new entries makes an
idle flow ready. The deficit round robin picks a group whose head fits its deficit; an engine takes that flow. At a
bank that serves at once, a host-to-design packet lands in its mailbox slot with its header; a design-to-host packet
lands in the host's buffer with length, status, tag and index, or stops the flow when the host does not answer.
D2H_TAKE takes the labelled packet to its flow or drops and counts it. Flows are created with a free handle, restarted
from cidx when stopped, and destroyed once no engine serves them. -/
def Obligations.DispatcherRows : Prop :=
  (∀ (s : State) (fn h : Nat) (v : Word), s.fnOn fn = true → s.behind (fnRequester fn) = false → h < 131072 →
    (s.flow fn h = none → exec (.dispatchDoorbell fn h v) s = .next (s.bump (dispAt (s.groupOfFn fn) 0x5C) 31 16 1)) ∧
    (∀ f, s.flow fn h = some f → 2 ^ f.log2 < cntDiff v.toNat f.cidx →
      exec (.dispatchDoorbell fn h v) s =
        .next (((s.pgErr (groupPage f.group) 0x0167 (fnRequester fn) 0).bump (dispAt f.group 0x5C) 31 16 1).dispEvent f.group 6 0x0167 f.job)) ∧
    (∀ f, s.flow fn h = some f → cntDiff v.toNat f.cidx ≤ 2 ^ f.log2 → f.h2d = true → f.state = .unloaded ∨ f.state = .idle →
      s.contexts < 4096 → cntDiff v.toNat f.cidx ≠ 0 → ∃ t, exec (.dispatchDoorbell fn h v) s = .next t ∧
        t.flow fn h = some { f with pidx := v.toNat, state := .ready } ∧
        (t.group f.group).ready = (s.group f.group).ready ++ [(fn, h)])) ∧
  (∀ (n g h : Nat) (s u : State), State.pickGroup n s g = some (h, u) →
    u.groupEligible h = true ∧ ∃ f, u.headFlow h = some f ∧ u.nextLen f ≤ (u.group h).deficit) ∧
  (∀ (s u : State) (e g : Nat) (f : Flow), e < 32 → Sparse.get none s.disp.engines e = none →
    State.pickGroup 17 s.dispStaged s.disp.turn = some (g, u) → u.headFlow g = some f →
    ∃ t, exec (.engineSelect e) s = .next t ∧ Sparse.get none t.disp.engines e = some (f.fn, f.handle) ∧ t.disp.turn = g ∧
      (t.group g).ready = (u.group g).ready.drop 1 ∧ ∃ x, t.flow f.fn f.handle = some x ∧ x.state = .service ∧ x.cidx = f.cidx) ∧
  (∀ (s : State) (e fn h : Nat) (f : Flow) (x : Port), Sparse.get none s.disp.engines e = some (fn, h) → s.flow fn h = some f →
    f.h2d = true → s.port f.job f.port = some x → (s.job f.job).compare = false → s.portOpen f.job x = true → x.overrun = false →
    s.domainOn (x.cl / 64) = true → s.BankIdle (x.bankNo 0) → x.bankNo 0 < 16384 → x.slotAt x.count + x.words < 4096 →
    f.undelivered = true →
    let entry := f.entryAt (f.cidx + f.ahead)
    let len := Sparse.num s.hostMem (entry + 8) 2
    let bytes := padTo (8 * x.words) (s.hostMem.bytes (Sparse.num s.hostMem entry 8) len)
    let cnt := cntOf (s.cntFetch x 0).1
    1 ≤ len → len ≤ 8 * x.words → cntDiff x.ann cnt ≤ x.slots → cntDiff x.count cnt < x.slots →
    ∃ t, exec (.enginePacketDone e true) s = .next t ∧ Sparse.get none t.disp.engines e = none ∧
      (t.port f.job f.port).map Port.count = some (x.count + 1) ∧
      t.bankPeek (x.bankNo 0) (x.slotAt x.count) =
        BitVec.ofNat 64 (len + f.channel * 2 ^ 16 + Sparse.num s.hostMem (entry + 12) 4 * 2 ^ 32) ∧
      ∀ w, w < x.words → t.bankPeek (x.bankNo 0) (x.slotAt x.count + 1 + w) = BitVec.ofNat 64 (leNat ((bytes.drop (8 * w)).take 8))) ∧
  (∀ (s : State) (e fn h : Nat) (f : Flow) (k : Packet), Sparse.get none s.disp.engines e = some (fn, h) → s.flow fn h = some f →
    f.h2d = false → (s.group f.group).queue.find? f.owns = some k → e < 32 → f.dying = false → f.pidx ≠ f.cidx → s.disp.parked = [] →
    let entry := f.entryAt f.cidx
    let cap := Sparse.num s.hostMem (entry + 8) 2
    (∃ t x, exec (.enginePacketDone e true) s = .next t ∧ Sparse.get none t.disp.engines e = none ∧
      t.flow fn h = some x ∧ x.cidx = (f.cidx + 1) % 2 ^ 32 ∧
      t.hostMem = (((s.hostMem.putBytes (Sparse.num s.hostMem entry 8) (k.data.take cap)).putBytes (entry + 8)
        (leBytes 2 (k.data.take cap).length)).putBytes (entry + 10)
        (leBytes 2 (if cap < k.data.length then 0x0163 else 0) ++ leBytes 4 k.tag)).putBytes f.cidxWb (leBytes 8 ((f.cidx + 1) % 2 ^ 32))) ∧
    (∃ t x, exec (.enginePacketDone e false) s = .next t ∧ t.flow fn h = some x ∧ x.state = .stopped ∧
      t.hostMem = s.hostMem.putBytes (entry + 10) (leBytes 2 0x0164) ∧ t.flag (hdr (groupPage f.group) 0x10) 5 = true)) ∧
  (∀ (s : State) (j p m : Nat) (x : Port), s.port j p = some x → x.h2d = false → x.overrun = false → s.portOpen j x = true →
    x.label x.count = some m → (s.job j).cmpDue = none → s.BankIdle (x.bankNo 0) →
    let head := ((s.slotFetch x 0 x.count).1.getD 0 0).toNat
    let len := natBits head 15 0
    let k : Packet := { job := j, port := p, channel := natBits head 31 16, tag := natBits head 63 32, data := s.slotBytes x 0 x.count len, label := m }
    1 ≤ len → len ≤ 8 * x.words →
    (s.disp.flows.find? (fun f => f.owns k) = none → ∃ t, exec (.d2hTake j p) s = .next t ∧
      (t.port j p).map Port.count = some (x.count + 1) ∧
      t.fld (dispAt (s.groupOfFn (s.job j).fn) 0x5C) 15 0 = min 65535 (s.fld (dispAt (s.groupOfFn (s.job j).fn) 0x5C) 15 0 + 1)) ∧
    (∀ f, s.disp.flows.find? (fun f => f.owns k) = some f → s.flow f.fn f.handle = some f → f.state = .idle →
      (s.group f.group).spill = [] → (s.group f.group).queue.length < 256 → ∃ t, exec (.d2hTake j p) s = .next t ∧
        (t.port j p).map Port.count = some (x.count + 1) ∧ (t.group f.group).queue = (s.group f.group).queue ++ [k])) ∧
  (∀ (s : State) (fn j p ch h log2 vec every : Nat) (ring wb : Dword) (x : Port), s.port j p = some x → s.freeHandle fn = some h →
    (s.job j).state ≠ .free → (s.job j).fn = fn → ch < 65536 → ring.toNat % 16 = 0 → 4 ≤ log2 → log2 ≤ 16 → wb.toNat % 8 = 0 → vec < 8 →
    1 ≤ every → every ≤ 256 → s.disp.flows.length < 262144 →
    (x.h2d = true ∨ ∀ f ∈ s.disp.flows, ¬ (f.h2d = false ∧ f.job = j ∧ f.port = p ∧ f.channel = ch)) →
    (∀ f ∈ s.disp.flows, f.fn = fn → f.handle ≠ h) ∧
    exec (.flowCreate fn j p ch 0 ring log2 wb vec every) s = .next { s with disp := { s.disp with flows := s.disp.flows ++
      [{ fn := fn, handle := h, job := j, port := p, channel := ch, group := 0, ring := ring.toNat, log2 := log2, cidxWb := wb.toNat
         vector := vec, irqEvery := every, h2d := x.h2d }] } }) ∧
  (∀ (s : State) (fn h : Nat) (f : Flow), s.flow fn h = some f → s.disp.parked = [] →
    (f.state = .stopped → (∀ e ∈ s.disp.engines, e.2 ≠ some (fn, h)) → s.contexts < 4096 → f.h2d = true →
      (cntDiff f.pidx f.cidx = 0 → ∃ t, exec (.flowRestart fn h) s = .next t ∧ t.flow fn h = some { f with state := .idle, ahead := 0 }) ∧
      (cntDiff f.pidx f.cidx ≠ 0 → ∃ t, exec (.flowRestart fn h) s = .next t ∧
        t.flow fn h = some { f with state := .ready, ahead := 0 } ∧
        (t.group f.group).ready = (s.group f.group).ready ++ [(fn, h)])) ∧
    (f.state ≠ .service → ∃ t, exec (.flowDestroy fn h) s = .next t ∧ t.flow fn h = none) ∧
    (f.state = .service → ∃ t, exec (.flowDestroy fn h) s = .next t ∧ t.flow fn h = some { f with dying := true }))

/-- Theham: lockstep faults, watchdogs, events and routes, sensors, log and scoreboard. A lockstep fault asserts the
whistle, restarts the firmware and changes no job's progress; waiting commands being kept is the model's choice (log
entry 30). WDT1's expiry asserts the whistle and counts, and undoes an unproven activation; WDT0's reloads; a kick
with its key reloads it. An event sets its pending bit, is logged when its route says so and, when not already
pending, sends its message or has it held back. A sensor reading is kept; power is the sum of voltage times current,
and each limit acts by its samples; recovery rolls protected jobs back. While firmware runs, a flush writes a sector
of unflushed entries below the hour's limit, else they are dropped and counted. Samples add to the scoreboard, which
is then written. -/
def Obligations.ManagementRows : Prop :=
  (∀ s : State, ∃ t, exec .lockstepFault s = .next t ∧ t.flag whistleReg 0 = true ∧ t.flag whistleReg 3 = true ∧ t.fab = s.fab ∧
    t.theham.queued = s.theham.queued ∧ t.fld (PageKind.rst.at 0x48) 15 0 = min 65535 (s.fld (PageKind.rst.at 0x48) 15 0 + 1) ∧
    ∀ j, (t.job j).m = (s.job j).m ∧ (t.job j).state = (s.job j).state) ∧
  (∀ s : State, (∃ t, exec (.wdt1Expire false) s = .next t ∧ t.flag whistleReg 0 = true ∧
      t.fld (wdtAt 0x4C) 31 24 = min 255 (s.fld (wdtAt 0x4C) 31 24 + 1)) ∧
    (s.theham.older ≠ [] → ∃ t, exec (.wdt1Expire true) s = .next t ∧ t.theham.older = [] ∧ t.flag (PageKind.dev.at 0x44) 3 = true)) ∧
  (∀ s : State, s.flag (wdtAt 0x40) 0 = true → s.inMonitor = false → ∃ t, exec .wdt0Expire s = .next t ∧
    t.fld (wdtAt 0x44) 23 0 = s.fld (wdtAt 0x40) 31 8 ∧ (s.flag (dbgAt 0x40) 2 = false → t.jobs = s.jobs)) ∧
  (∀ s : State, s.flag (wdtAt 0x40) 0 = false → exec .wdt0Expire s = .next s) ∧
  (∀ (s : State) (rq : Requester) (key : Word), s.Admits rq (wdtAt 0x48) → 
    let u := s.crossReg rq (wdtAt 0x48) true
    exec (.wdt0Kick rq key) s = .next (if natBits key.toNat 15 0 = 0x5A5A then u.setFld (wdtAt 0x44) 23 0 (s.fld (wdtAt 0x40) 31 8) else u)) ∧
  (∀ s : State, exec .agentFault s = .next { s with out := s.out ++ [.ucFault] }) ∧
  (∀ (s : State) (source : Nat) (code : BitVec 16) (job sev : BitVec 8) (d : List Word), source < 512 →
    let pending := PageKind.evt.at (0x40 + 4 * (source / 32))
    ∃ t, exec (.eventRaise source code job sev d) s = .next t ∧ t.flag pending (source % 32) = true ∧ t.jobs = s.jobs ∧ t.fab = s.fab ∧
      (s.flag (evtRoute source) 15 = true → t.theham.logSeq = s.theham.logSeq + 1 ∧
        ∃ e ∈ t.theham.log, e.code = code.toNat ∧ e.source = source ∧ e.job = job.toNat ∧ e.sev = sev.toNat % 4 ∧ e.seqNo = s.theham.logSeq) ∧
      (s.flag (evtRoute source) 15 = false → t.theham = s.theham) ∧
      (s.flag pending (source % 32) = false → s.flag (evtRoute source) 9 = true →
        let fn := s.fld (evtRoute source) 5 0
        let v := s.fld (evtRoute source) 8 6
        ((s.pcieFn fn).sends fn v = true → .msix fn v ((s.pcieFn fn).message v).1 ((s.pcieFn fn).message v).2 ∈ t.out) ∧
        ((s.pcieFn fn).sends fn v = false → (t.pcieFn fn).pba.getLsbD v = true)) ∧
      (s.flag pending (source % 32) = true → t.out = s.out ∧ t.fns = s.fns)) ∧
  (∀ (s : State) (r : SensorReading), s.fwUp = true →
    let powers := (samplePower r s.free :: s.theham.powers).take 10000
    ∃ t, exec (.sensorSample r) s = .next t ∧ t.theham.temps = r.temps ∧ t.theham.volts = r.volts ∧ t.theham.currents = r.currents ∧
      t.theham.powers = powers ∧ t.fld (sensAt 0x5C) 15 0 = min 65535 (meanPower powers 100) ∧
      t.theham.high = (r.temps.any (fun x => decide (400 < x.toInt)) || overPower powers 100 8500) ∧
      t.theham.hotRuns.length = r.temps.length ∧
      (∀ (i : Nat) (x : BitVec 11), r.temps[i]? = some x →
        t.theham.hotRuns[i]? = some (if 420 < x.toInt then s.theham.hotRuns.getD i 0 + 1 else 0)) ∧
      (overPower powers 10 9350 = true ∨ overPower powers 10000 8500 = true ∨ (r.volt10us = true ∧ offLimits r = true) ∨
        (∃ n ∈ t.theham.hotRuns, 10 ≤ n) → t.flag whistleReg 0 = true) ∧
      (r.volt10us = true → offLimits r = true → t.theham.voltFault = true)) ∧
  (∀ s : State, s.fwUp = true → s.theham.voltFault = true → ∃ t, exec .voltRecovered s = .next t ∧ t.theham.voltFault = false ∧
    ∀ j mC, j < 64 → (s.job j).live = true → (s.job j).prot.state = .armed → (s.job j).prot.replay = none → (s.job j).prot.recent = none →
      (s.job j).target (s.job j).m = some mC → (t.job j).prot.state = .rollback) ∧
  (∀ s : State, s.fwUp = true → 2048 ≤ s.theham.unflushed →
    let n := if s.theham.dropped = 0 then 2048 else 2047
    (s.theham.erases < 40 → ∃ t sector, exec .logFlush s = .next t ∧ t.theham.unflushed = s.theham.unflushed - n ∧ t.theham.dropped = 0 ∧
      t.theham.erases = s.theham.erases + 1 ∧ t.theham.log = s.theham.log ∧ t.theham.flash.getLast? = some sector ∧
      ∀ e ∈ (s.theham.log.drop (s.theham.log.length - s.theham.unflushed)).take n, e ∈ sector) ∧
    (40 ≤ s.theham.erases → exec .logFlush s = .next { s with theham := { s.theham with
      dropped := s.theham.dropped + 2048, unflushed := s.theham.unflushed - 2048 } })) ∧
  (∀ s : State, s.fwUp = true → (∃ t, exec (.scoreboardSample false) s = .next t ∧ ∀ n, n < 64 → (s.lane n).state = .operational →
      let i := 544 + n * 32 + s.fld (laneAt n 0x54) 7 0 / 8
      Sparse.get 0 t.theham.score i = min 4294967295 (Sparse.get 0 s.theham.score i + 1)) ∧
    (∃ t, exec (.scoreboardSample true) s = .next t ∧ t.theham.erases = 0 ∧ t.theham.eccHour = [] ∧
      Sparse.get 0 t.theham.score 3872 = min 4294967295 (Sparse.get 0 s.theham.score 3872 + 1)) ∧
    exec .scoreboardWrite s = .next { s with theham := { s.theham with scoreOut := s.theham.score } })

namespace Sys2Proof.Machine
/-- Firmware serves command `op` of caller `c` (R407, R439, R440, R445). -/
structure State.Serves (s : State) (c : Call) (op : Nat) : Prop where
  up      : s.fwUp = true
  caller  : s.callerFn c.ring < 64
  running : s.theham.shutdown = false ∨ op = 0x0101 ∨ op = 0x0102
  normal  : s.recovery = false ∨ coreGroups.contains (op / 256) = true
  rights  : s.permitted c.ring op = true

/-- Firmware serves a command on job `j`, which the caller sees (R439). -/
structure State.ServesJob (s : State) (c : Call) (op j : Nat) : Prop extends State.Serves s c op where
  sees : s.sees c.ring j = true

end Sys2Proof.Machine

namespace Sys2Proof
/-- A caller's buffer holds `n` bytes at an aligned address, and the host's memory answers (R435, R438). -/
structure Call.Reaches (c : Call) (buffer : Dword) (n : Nat) : Prop where
  aligned : buffer.toNat % 64 = 0
  fits    : Machine.bufFits c.ring buffer.toNat n = true
  answers : c.dmaOk = true
end Sys2Proof

/-- DEV_INFO, DEV_STATUS, DEV_POWER, DEV_CLOCK, DEV_WHISTLE, DEV_SHUTDOWN and DEV_NOP. Served, DEV_INFO returns grade,
revision, boot state, versions, segments out of service and serial number; DEV_STATUS the lanes, pseudo-channels,
power, temperature, whistle, jobs and domains the caller sees; DEV_NOP its data. DEV_POWER is done when the domain is
there already, busy or too hot by its status, else waits for its switch. DEV_CLOCK sets the frequency while no job is
live. DEV_WHISTLE asserts or clears, with WHISTLE_HELD while it is held. DEV_SHUTDOWN asserts the whistle and writes
the scoreboard. The ROM version is the model's value (log entry 6). -/
def Obligations.DeviceCommandRows : Prop :=
  ∀ (s : State) (c : Call),
    (s.Serves c 0x0101 → exec (.devInfo c) s = .next (s.complete c 0x0101 0 0 (leBytes 1 (boolNat Config.gradeTen) ++
      leBytes 1 Config.siliconRev.toNat ++ leBytes 2 s.devBoot ++ leBytes 4 0x00010000 ++ leBytes 4 ((s.theham.versionOf 2).getD 0) ++
      leBytes 8 (mask64 s.segDown) ++ leBytes 8 (max 1 Config.serial.toNat)))) ∧
    (s.Serves c 0x0102 → ∃ lanes pcs jobs off, exec (.devStatus c) s = .next (s.complete c 0x0102 0 0 (leBytes 8 lanes ++ leBytes 1 pcs ++
        [0] ++ leBytes 2 (s.fld (sensAt 0x5C) 15 0) ++ leBytes 2 (s.fld (sensAt 0x48) 10 0) ++
        leBytes 1 (boolNat (s.flag whistleReg 0) + 2 * boolNat s.theham.high) ++ [0] ++ leBytes 8 jobs ++ leBytes 11 off)) ∧
      (∀ n, n < 64 → natBit lanes n = ((s.lane n).state == .operational && s.seesLane c.ring n)) ∧
      (∀ j, j < 64 → natBit jobs j = ((s.job j).state != .free && s.seesJob c.ring j)) ∧
      (∀ d, d < 84 → natBit off d = !s.domainOn d) ∧ pcs = (List.range 128).countP s.pcOk) ∧
    (∀ data, s.Serves c 0x0107 → data.length = 40 → exec (.devNop c data) s = .next (s.complete c 0x0107 0 0 data)) ∧
    (∀ pd op, s.Serves c 0x0103 → pd < 84 → op < 3 → op ≠ 2 ∨ pd < 64 → pd ≠ 68 → pd ≠ 69 → pd ≠ 79 → pd ≠ 81 → pd ≠ 83 →
      (s.atState pd op = true → exec (.devPower c pd op) s = .next (s.reply c 0x0103 0)) ∧
      (s.atState pd op = false → op ≠ 1 → s.domainBusy pd = true → exec (.devPower c pd op) s = .next (s.reply c 0x0103 0x0190)) ∧
      (s.atState pd op = false → op = 1 → s.theham.high = true → exec (.devPower c pd op) s = .next (s.reply c 0x0103 0x0209)) ∧
      (s.atState pd op = false → op = 1 ∨ s.domainBusy pd = false → op ≠ 1 ∨ s.theham.high = false →
        ∃ t, exec (.devPower c pd op) s = .next t ∧ ⟨pd, op, some c⟩ ∈ t.pwr.busy ++ t.pwr.queue ∧ t.pwr.on = s.pwr.on)) ∧
    (∀ n, s.Serves c 0x0104 → 200 ≤ n → n ≤ 1000 → n ≤ 800 ∨ Config.gradeTen = false →
      (s.anyLive = true → exec (.devClock c n) s = .next (s.reply c 0x0104 0x0191)) ∧
      (s.anyLive = false → ∃ t, exec (.devClock c n) s = .next t ∧ t.fld (clkAt 0x40) 9 0 = n ∧
        (s.fld (clkAt 0x40) 9 0 ≠ n → t.fld (clkAt 0x44) 3 0 = 0))) ∧
    (s.Serves c 0x0105 → (∃ t, exec (.devWhistle c 1) s = .next t ∧ t.flag whistleReg 0 = true ∧ t.flag whistleReg 2 = true) ∧
      (s.flag whistleReg 5 = true → exec (.devWhistle c 2) s = .next (s.reply c 0x0105 0x0140)) ∧
      (s.flag whistleReg 5 = false → s.flag (clkAt 0x44) 4 = true →
        ∃ t, exec (.devWhistle c 2) s = .next t ∧ t.fld whistleReg 4 0 = 0 ∧ t.pkgHalt = s.pkgHalt)) ∧
    (s.Serves c 0x0106 → ∃ t, exec (.devShutdown c) s = .next t ∧ t.theham.shutdown = true ∧ t.flag whistleReg 0 = true ∧
      t.theham.scoreOut = t.theham.score)

/-- JOB_CREATE, JOB_DESTROY, DESTROY_COMPLETE, JOB_QUERY, JOB_WINDOW_ALLOC and JOB_WINDOW_FREE. A job is created with the
lowest free number on segments of no job, whose pages are enabled and owned by its function, or refused by its code.
Destroying marks the job and no other and aborts its queued commands that the job's callers gave; at its end the job
is free, its pages belong to no function and its design state is cleared; its banks are cleared, or with keep marked
as that function's. A query returns state, protection, mask and m. A window allocation takes the lowest free run in
the octant; a free gives exactly those units back, or is refused. -/
def Obligations.JobRows : Prop :=
  (∀ (s : State) (c : Call) (mask : Dword) (fn : Nat), s.Serves c 0x0201 → fn < 64 → s.callerFn c.ring = 0 ∨ s.callerFn c.ring = fn →
    (∀ code, s.makeJob mask fn = .inl code → exec (.jobCreate c mask fn) s = .next (s.reply c 0x0201 code)) ∧
    (∀ j u, s.makeJob mask fn = .inr (j, u) →
      exec (.jobCreate c mask fn) s = .next (u.await { call := c, op := 0x0201, job := j }).createDone ∧
      j < 64 ∧ (s.job j).state = .free ∧ (∀ k, k < j → (s.job k).state ≠ .free) ∧ mask ≠ 0 ∧
      (u.job j).state = .created ∧ (u.job j).mask = mask ∧ (u.job j).fn = fn ∧
      ∀ g, g < 64 → mask.getLsbD g = true → s.jobOfSeg g = none ∧ u.pgEnabled (0x1000 + g * 0x80) = true ∧
        u.owner (0x1000 + g * 0x80) = (rqClass (fnRequester fn), fn))) ∧
  (∀ (s : State) (c : Call) (j : Nat) (keep : Bool), s.ServesJob c 0x0202 j →
    ((s.job j).state ≠ .destroying → ∃ t, exec (.jobDestroy c j keep) s = .next t ∧ (t.job j).state = .destroying ∧
      (t.job j).keepDestroy = keep ∧ (t.job j).load = none ∧ (t.job j).reload = none ∧ ∀ k, k ≠ j → t.job k = s.job k) ∧
    ((s.job j).state = .destroying → exec (.jobDestroy c j keep) s = .next ((s.abortQueued j).await { call := c, op := 0x0202, job := j })) ∧
    ∃ t, exec (.jobDestroy c j keep) s = .next t ∧ ∀ q ∈ t.theham.queued, q.job = j → s.sees q.call.ring j = false) ∧
  (∀ (s : State) (j : Nat), s.fwUp = true → (s.job j).state = .destroying → (s.job j).haltReq = none → s.standing j = true →
    ∃ t, exec (.destroyComplete j) s = .next t ∧ t.job j = {} ∧ (∀ k, k ≠ j → t.job k = s.job k) ∧
      ∀ g, g < 64 → (s.job j).mask.getLsbD g = true → t.owner (0x1000 + g * 0x80) = (0, 0) ∧
        (∀ i, i < 8388608 → Sparse.get false t.fab.ds (g * 8388608 + i) = false) ∧
        ((s.job j).keepDestroy = false → ∀ i, i < 1048576 → Sparse.get 0 t.fab.mb (g * 1048576 + i) = 0) ∧
        ((s.job j).keepDestroy = true → t.fab.kept.getLsbD g = true ∧ Sparse.get 0 t.fab.keeper g = (s.job j).fn)) ∧
  (∀ (s : State) (c : Call) (j : Nat), s.ServesJob c 0x0203 j → exec (.jobQuery c j) s =
    .next (s.complete c 0x0203 0 0 (leBytes 4 (s.jobStat j) ++ leBytes 1 (s.seq (s.job j).lead).state.code ++
      leBytes 1 (s.job j).prot.state.code ++ [0, 0] ++ leBytes 8 (s.job j).mask.toNat ++ leBytes 8 (s.job j).m))) ∧
  (∀ (s : State) (c : Call) (j o n u : Nat), s.ServesJob c 0x0204 j → o < 8 → 1 ≤ n → u + n ≤ 768 → (octantsOf (s.job j).mask).contains o = true →
    (∀ i, i < n → s.unitFree o (u + i) = true) → (∀ v, v < u → ∃ i, i < n ∧ s.unitFree o (v + i) = false) → s.octantOk o = true →
    exec (.jobWindowAlloc c j o n) s = .next ((s.setJob j { s.job j with windows := (s.job j).windows ++ [(o, u, n)] }).complete c 0x0204 0 0
      (leBytes 4 u))) ∧
  (∀ (s : State) (c : Call) (j o n off : Nat), s.ServesJob c 0x0205 j → o < 8 → (s.job j).state = .created ∨ (s.job j).state = .loaded →
    (s.job j).image = none →
    ((∀ i, i < n → (o, off + i) ∈ (s.job j).units) → ∃ t, exec (.jobWindowFree c j o n off) s = .next t ∧
      ∀ v, v ∈ (t.job j).units ↔ v ∈ (s.job j).units ∧ ¬(v.1 = o ∧ off ≤ v.2 ∧ v.2 < off + n)) ∧
    ((∃ i, i < n ∧ (o, off + i) ∉ (s.job j).units) → exec (.jobWindowFree c j o n off) s = .next (s.reply c 0x0205 0x0207)))

/-- IMG_LOAD, LOADING_COMPLETE, PRELOAD_COMPLETE, IMG_RELOAD, REGION_STORES_WRITTEN and IMG_INFO. A load puts the job in
LOADING. A load with a fault in phase 0 leaves stores, state and image as they were; one with no fault leaves the job
LOADED with its image, L and cleared design state. A preload starts the job, or on an error leaves it LOADED. A reload
is refused for a bad region; with no fault it fixes B1 at the boundary count ahead and changes no store yet. Region
stores written leave the region's sequencers idle and its data stores clear. IMG_INFO returns the image's header. -/
def Obligations.ImageRows : Prop :=
  (∀ (s : State) (c : Call) (j len cap : Nat) (hbm shift compare : Bool) (addr report : Dword), s.ServesJob c 0x0301 j → cap ≤ 256 →
    addr.toNat % 64 = 0 → report.toNat % 64 = 0 → bufFits c.ring report.toNat (32 * cap) = true → (s.job j).state = .created →
    exec (.imgLoad c j hbm shift compare addr len report cap) s = .next (s.setJob j { s.job j with
      prev := .created, state := .loading
      load := some { call := c, place := ⟨hbm, s.callerFn c.ring, addr.toNat⟩, len := len, shift := shift, compare := compare
                     report := report.toNat, capacity := cap } })) ∧
  (∀ (s : State) (j : Nat) (q : LoadReq), s.fwUp = true → (s.job j).state = .loading → (s.job j).load = some q → q.call.dmaOk = true →
    let im := s.readImage q.place q.len q.shift q.compare
    (∀ f, s.phase0 j im q.compare false = some f → ∃ t, exec (.loadingComplete j) s = .next t ∧ t.fab = s.fab ∧
      (t.job j).state = (s.job j).prev ∧ (t.job j).load = none ∧ (t.job j).image = (s.job j).image) ∧
    (∀ u, s.phase0 j im q.compare false = none → s.allocNeeds j im.needs q.compare = some u →
      u.checkPlan (u.planOf j im q.compare false) im (u.job j).units q.compare = [] →
      ∃ t, exec (.loadingComplete j) s = .next t ∧ (t.job j).state = .loaded ∧ (t.job j).image = some im ∧ (t.job j).load = none ∧
        (t.job j).len = im.jobLen ∧ (t.job j).compare = q.compare ∧ (t.job j).m = 0 ∧
        ∀ g, g < 64 → (s.job j).mask.getLsbD g = true → (t.seq g).state = .idle ∧
          (∀ i, i < 8388608 → Sparse.get false t.fab.ds (g * 8388608 + i) = false) ∧
          ∀ i, i < 512 → Sparse.get 0 t.fab.ors (g * 512 + i) = 0)) ∧
  (∀ (s : State) (j : Nat) (im : Image), s.fwUp = true → (s.job j).state = .starting → (s.job j).image = some im → s.fab.clearing &&& (s.job j).mask = 0 →
    (s.preloadBad im = false → ∃ t, exec (.preloadComplete j) s = .next t ∧ (t.job j).state = .active ∧ (t.job j).m = (s.job j).m ∧
      (t.job j).haltReq = none) ∧
    (s.preloadBad im = true → ∃ t, exec (.preloadComplete j) s = .next t ∧ (t.job j).state = .loaded ∧ t.fab = s.fab)) ∧
  (∀ (s : State) (c : Call) (j len cap n : Nat) (hbm shift : Bool) (addr report : Dword), s.ServesJob c 0x0302 j → cap ≤ 256 →
    addr.toNat % 64 = 0 → report.toNat % 64 = 0 → 1 ≤ n → n < 65536 → bufFits c.ring report.toNat (32 * cap) = true → c.dmaOk = true →
    (s.job j).reload = none → (s.job j).state = .active → (s.job j).replaying = false →
    let im := s.readImage ⟨hbm, s.callerFn c.ring, addr.toNat⟩ len shift false
    (s.regionBad j im = true → exec (.imgReload c j hbm shift addr len report cap n) s = .next (s.reply c 0x0302 0x0207)) ∧
    (∀ u, s.regionBad j im = false → s.reserve j (segsOf im.mask) = some u → u.phase0 j im false true = none → s.linesDiffer j im = false →
      u.checkPlan (u.planOf j im false true) im (s.job j).units (s.job j).compare = [] →
      ∃ t r, exec (.imgReload c j hbm shift addr len report cap n) s = .next t ∧ (t.job j).reload = some r ∧ r.mask = im.mask ∧
        r.parked = false ∧ r.call = c ∧ r.b1 = (s.job j).m + n + (if (s.job j).e = 0 then 0 else 1) ∧ t.fab = s.fab ∧
        (t.job j).state = .active)) ∧
  (∀ (s : State) (j : Nat) (r : Reload), s.fwUp = true → (s.job j).reload = some r → r.parked = true → r.written = false → r.image.preloads = [] →
    ∃ t x, exec (.regionStoresWritten j) s = .next t ∧ (t.job j).reload = some x ∧ x.written = true ∧ x.mask = r.mask ∧ x.call = r.call ∧
      ∀ g, g < 64 → r.mask.getLsbD g = true → (t.seq g).state = .idle ∧
        ∀ i, i < 8388608 → Sparse.get false t.fab.ds (g * 8388608 + i) = false) ∧
  (∀ (s : State) (c : Call) (j : Nat) (im : Image), s.ServesJob c 0x0303 j → (s.job j).image = some im → (s.job j).state = .loaded →
    exec (.imgInfo c j) s = .next (s.complete c 0x0303 0 0 (leBytes 2 im.jobLen ++
      leBytes 1 (boolNat im.shift + 2 * boolNat (s.job j).compare) ++ [0] ++ leBytes 4 im.tool ++ leBytes 1 im.keySlot ++
      List.replicate 7 0 ++ leBytes 8 im.mask.toNat)))

/-- RUN_START, RUN_HALT, RUN_RESUME, RUN_STOP, RUN_UNTIL, STATE_READ and STATE_WRITE. A start within its field ranges puts
the job in STARTING at m = 0 with its dividers, lag and checkpoint distance, or is refused by its code, a fault of
phase 3 with its one record. A halt is asked for and waits; of a job not live it is refused. A resume lets the halted
segments go on, unless the package is halted or a condition of RUN_BLOCKED holds. A stop leaves a standing job LOADED
without protection, else it waits for a halt. RUN_UNTIL refuses a target that has passed, or else sets it, resuming a
halted job that may be resumed. STATE_READ returns the design state of each BP; STATE_WRITE stores it and changes no
bank. -/
def Obligations.RunControlRows : Prop :=
  ∀ (s : State) (c : Call) (j : Nat),
    (∀ d1 d2 d3 lag ck pinGate, s.ServesJob c 0x0401 j → runFields d1 d2 d3 lag ck = true →
      (∀ im, s.startFault j d1 d2 d3 = none → (s.job j).image = some im → ∃ t, exec (.runStart c j d1 d2 d3 lag ck pinGate) s = .next t ∧
        (t.job j).state = .starting ∧ (t.job j).m = 0 ∧ (t.job j).d1 = d1 ∧ (t.job j).d2 = d2 ∧ (t.job j).d3 = d3 ∧
        t.fld (hudAt j 0) 3 0 = lag ∧ t.fld (hudAt j 0) 10 4 = ck ∧ t.flag (hudAt j 0) 11 = pinGate ∧
        { call := c, op := 0x0401, job := j } ∈ t.theham.waiting ∧ ((s.job j).bulk = true → (t.job j).stage = 3 ∧
          t.fab.clearing = s.fab.clearing ||| (s.job j).mask)) ∧
      (∀ code, s.startFault j d1 d2 d3 = some code →
        ((∀ im f, (s.job j).image = some im → s.phase3 j im = some f → f.code ≠ code) →
          exec (.runStart c j d1 d2 d3 lag ck pinGate) s = .next (s.reply c 0x0401 code)) ∧
        (∀ im f, (s.job j).image = some im → s.phase3 j im = some f → f.code = code →
          exec (.runStart c j d1 d2 d3 lag ck pinGate) s = .next (s.complete c 0x0401 code 1 (recordBytes [f]))))) ∧
    (s.ServesJob c 0x0402 j → (s.job j).live = true → (s.job j).haltedBy = none → s.stands j = false →
      ∃ t, exec (.runHalt c j) s = .next t ∧ (t.job j).haltReq.isSome = true ∧ (t.job j).untilM = none ∧
        { call := c, op := 0x0402, job := j } ∈ t.theham.waiting) ∧
    (s.ServesJob c 0x0402 j → (s.job j).live = false → exec (.runHalt c j) s = .next (s.reply c 0x0402 0x0203)) ∧
    (s.ServesJob c 0x0403 j → (s.job j).failed = false →
      (s.pkgHalt = false → (s.job j).haltedBy = none → exec (.runResume c j) s = .next (s.reply c 0x0403 0)) ∧
      (s.pkgHalt = true ∨ ((s.job j).haltedBy.isSome = true ∧ s.runBlocked j = true) →
        exec (.runResume c j) s = .next (s.reply c 0x0403 0x0402)) ∧
      ((s.job j).haltedBy.isSome = true → s.pkgHalt = false → s.runBlocked j = false → s.lostLanes j = [] →
        (s.job j).prot.state ≠ .rollback → (s.seq (s.job j).lead).before ≠ .pause →
        ∃ t, exec (.runResume c j) s = .next t ∧ (t.job j).haltedBy = none ∧ (t.job j).haltReq = none ∧
          ∀ g, g < 64 → (s.job j).mask.getLsbD g = true → (s.seq g).state = .halted → (s.seq g).before ≠ .pause →
            t.seq g = { s.seq g with state := (s.seq g).before })) ∧
    (s.ServesJob c 0x0404 j → (s.job j).state = .active → (s.job j).reload = none →
      (s.stands j = true → ∃ t, exec (.runStop c j) s = .next t ∧ (t.job j).state = .loaded ∧ (t.job j).prot = {} ∧
        ∀ g, g < 64 → (s.job j).mask.getLsbD g = true → (t.seq g).state = .idle) ∧
      (s.stands j = false → (s.job j).haltedBy = none → ∃ t, exec (.runStop c j) s = .next t ∧ (t.job j).haltReq = some .stop ∧
        { call := c, op := 0x0404, job := j } ∈ t.theham.waiting)) ∧
    (∀ target, s.ServesJob c 0x0405 j → (s.job j).failed = false → (s.job j).live = true →
      (target.toNat ≤ (s.job j).m → exec (.runUntil c j target) s = .next (s.reply c 0x0405 0x0401)) ∧
      ((s.job j).m < target.toNat → (s.job j).haltedBy.isSome = true → s.pkgHalt = true ∨ s.runBlocked j = true →
        exec (.runUntil c j target) s = .next (s.reply c 0x0405 0x0402)) ∧
      ((s.job j).m < target.toNat → (s.job j).haltedBy = none ∨ (s.pkgHalt = false ∧ s.runBlocked j = false ∧ s.lostLanes j = []) →
        ∃ t, exec (.runUntil c j target) s = .next t ∧ (t.job j).untilM = some target.toNat ∧ (t.job j).haltedBy = none ∧
          { call := c, op := 0x0405, job := j } ∈ t.theham.waiting)) ∧
    (∀ first count buffer, s.ServesJob c 0x0501 j → 1 ≤ count → count ≤ 4096 → c.Reaches buffer (count * 16448) →
      s.stands j = true ∨ (s.job j).state = .loaded → s.rangeInJob j first count = true →
      exec (.stateRead c j first count buffer) s = .next ((s.bufWrite c.ring buffer.toNat
        ((List.range count).flatMap (fun i => s.getState (first + i)))).complete c 0x0501 0 0 [])) ∧
    (∀ first buffer, s.ServesJob c 0x0502 j → c.Reaches buffer 16448 → (s.job j).state = .loaded → (s.job j).replaying = false →
      s.rangeInJob j first 1 = true → ∃ t, exec (.stateWrite c j first 1 buffer) s = .next t ∧
        t.getState first = s.bufRead c.ring buffer.toNat 16448 ∧ t.fab.mb = s.fab.mb)

/-- CKPT_ENABLE, CKPT_DISABLE, CKPT_REQUEST, CKPT_LIST, CKPT_REPLAY, CAP_OPEN and CAP_CLOSE. Enabling arms the protection
with its parameters and no checkpoint, or fails for want of HBM; disabling ends it. A request asks for a checkpoint,
or joins the one asked for, and waits; without protection it is refused, which is an event. The list returns the
design cycles retained. A replay of a halted, armed job to a usable checkpoint, with no compare mismatch at its last
frontier, starts the rollback with the frontier at m. An open session has its store, probes and owner, or is refused
by its code; closing it empties the engine. A close without a session answering CMD_STATE is the model's choice (log
entry 13). -/
def Obligations.ProtectionAndCaptureCommandRows : Prop :=
  ∀ (s : State) (c : Call) (j : Nat),
    (∀ k limit logGib storeGib ext, s.ServesJob c 0x0601 j → 10 ≤ k → k ≤ 32 → 1 ≤ limit → limit ≤ 7 → 1 ≤ logGib → logGib ≤ 64 →
      storeGib ≤ 64 → (s.job j).state = .loaded ∨ (s.job j).state = .starting ∨ (s.job j).state = .active → (s.job j).prot.state = .off →
      (s.protOn j logGib storeGib = none → exec (.ckptEnable c j k limit logGib storeGib ext) s = .next (s.reply c 0x0601 0x0206)) ∧
      (∀ u, s.protOn j logGib storeGib = some u → ∃ t, exec (.ckptEnable c j k limit logGib storeGib ext) s = .next t ∧
        (t.job j).prot.state = .armed ∧ (t.job j).prot.retained = [] ∧ t.flag (ckptAt j 0) 0 = true ∧ t.fld (ckptAt j 0) 6 1 = k ∧
        t.fld (ckptAt j 0) 10 8 = limit ∧ t.fld (ckptAt j 0) 22 16 = logGib ∧ t.reg64 (ckptAt j 0x20) = ext.toNat)) ∧
    (s.ServesJob c 0x0602 j → ((s.job j).prot.state = .off → exec (.ckptDisable c j) s = .next (s.reply c 0x0602 0)) ∧
      ((s.job j).prot.state ≠ .off → ∃ t, exec (.ckptDisable c j) s = .next t ∧ (t.job j).prot = {} ∧ t.flag (ckptAt j 0) 0 = false)) ∧
    (s.ServesJob c 0x0603 j → ((s.job j).prot.state = .off → exec (.ckptRequest c j) s = .next ((s.event j 0x0601 j []).reply c 0x0603 0x0601)) ∧
      ((s.job j).prot.state = .armed → (s.job j).failed = false →
        let first := s.theham.waiting.find? (fun w => w.op == 0x0603 && w.job == j)
        (first = none → exec (.ckptRequest c j) s = .next ((s.requestCkpt j).await
          { call := c, op := 0x0603, job := j, arg := if (s.job j).live then (s.job j).m else 0 })) ∧
        (∀ w, first = some w → exec (.ckptRequest c j) s = .next (s.await { call := c, op := 0x0603, job := j, arg := w.arg })))) ∧
    (∀ buffer cap, s.ServesJob c 0x0604 j → c.Reaches buffer (8 * cap) → (s.job j).prot.state ≠ .off →
      let ms := (s.job j).prot.retained.map (fun (k : CkptRec) => k.m)
      exec (.ckptList c j buffer cap) s = .next ((s.bufWrite c.ring buffer.toNat ((ms.take cap).flatMap (leBytes 8))).complete c 0x0604 0
        ms.length [])) ∧
    (∀ mode target, s.ServesJob c 0x0605 j → mode < 2 → (s.job j).prot.state = .armed → (s.job j).prot.replay = none →
      (s.job j).failed = false → (s.job j).haltedBy.isSome = true → (s.seq (s.job j).lead).state = .halted → (s.job j).prot.unlogged = false →
      (s.job j).prot.recent = none → (∃ k ∈ (s.job j).prot.retained, k.usable = true ∧ k.m = BitVec.toNat target) →
      ∃ t r, exec (.ckptReplay c j mode target) s = .next t ∧ (t.job j).prot.state = .rollback ∧ (t.job j).prot.replay = some r ∧
        r.mC = target.toNat ∧ r.mF = (s.job j).m ∧ r.asked = true ∧ { call := c, op := 0x0605, job := j, arg := mode } ∈ t.theham.waiting ∧
        (s.pkgHalt = false → s.flag whistleReg 0 = false → s.fld (clkAt 0x44) 3 0 = 15 → (t.job j).haltedBy = some .fault)) ∧
    (∀ size count, s.ServesJob c 0x0701 j → 12 ≤ size → size ≤ 34 → 1 ≤ count → count ≤ 65536 →
      (∀ code, s.capOpenFault j size count = some code → exec (.capOpen c j size count) s = .next (s.reply c 0x0701 code)) ∧
      (∀ base u, s.capOpenFault j size count = none → s.allocHbm (count * 2 ^ size) 64 = some (base, u) →
        ∃ t, exec (.capOpen c j size count) s = .next t ∧ t.cap.job = some j ∧ t.cap.state = .idle ∧ t.fld (capAt 0 0x40) 5 0 = j ∧
          t.reg (capAt 0 0x48) = BitVec.ofNat 32 size ∧ t.reg (capAt 0 0x4C) = BitVec.ofNat 32 count ∧
          t.reg (capAt 0 0x44) = BitVec.ofNat 32 (base / 4096) ∧ t.reg (capAt 0 0x54) = BitVec.ofNat 32 t.cap.probes.length ∧
          t.owner 0x110 = (rqClass (fnRequester (s.job j).fn), rqVf (fnRequester (s.job j).fn) % 64))) ∧
    (s.ServesJob c 0x0702 j → (s.cap.job ≠ some j → exec (.capClose c j) s = .next (s.reply c 0x0702 0x0015)) ∧
      (s.cap.job = some j → ∃ t, exec (.capClose c j) s = .next t ∧ t.cap = {} ∧ t.owner 0x110 = (0, 0)))

/-- LANE_UP, its timeout, LANE_DOWN, LANE_STATUS, TIME_PTP_ON, TIME_PTP_OFF, TIME_PTP_STATUS, TIME_UNIT and TIME_ARM.
LANE_UP and LANE_DOWN are refused where a lane is bound to a job; else the lanes start to come up with their
parameters and package number, which changes with every lane OFF alone, or are OFF. The timeout that expires first
completes its command with the lanes that are operational. LANE_STATUS returns a record a lane the caller sees and
clears their lost count. PTP takes the TIME page for firmware with its lanes, domain and asymmetries and gives it
back; with a lane not OPERATIONAL it is refused. Its status shows parent, offset, delay and grandmaster. TIME_UNIT
sets a compare or capture unit, or with the clock domain off is refused (log entry 13). TIME_ARM arms. -/
def Obligations.LaneAndTimeCommandRows : Prop :=
  ∀ (s : State) (c : Call),
    (∀ lanes coding reach preset auto lambda pkg timeout, s.Serves c 0x0801 → coding < 3 → reach < 2 → preset < 8 → 16 ≤ lambda →
      lambda ≤ 1023 → timeout ≤ 10000 → pkg < 32 ∨ pkg = 0xFF →
      let kept := pkg = 0xFF ∨ pkg = s.fld (laneGroupAt 0 0x44) 4 0
      (s.anyBound lanes = true → exec (.laneUp c lanes coding reach preset auto lambda pkg timeout) s = .next (s.reply c 0x0801 0x0801)) ∧
      (s.anyBound lanes = false → ¬ kept → (∃ n, n < 64 ∧ (s.lane n).state ≠ .off) →
        exec (.laneUp c lanes coding reach preset auto lambda pkg timeout) s = .next (s.reply c 0x0801 0x0015)) ∧
      (s.anyBound lanes = false → kept ∨ (∀ n, n < 64 → (s.lane n).state = .off) →
        ∃ t, exec (.laneUp c lanes coding reach preset auto lambda pkg timeout) s = .next t ∧
        (pkg < 32 → t.fld (laneGroupAt 0 0x44) 4 0 = pkg) ∧ ∀ n, n < 64 → lanes.getLsbD n = true → s.domainOn (64 + n / 16) = true → s.lanePllLocked n = true →
          (t.lane n).state = .waitSignal ∧ t.lambda n = lambda ∧ t.fld (laneAt n 0x40) 3 2 = coding ∧
          t.flag (laneAt n 0x40) 1 = auto ∧ t.fld (laneAt n 0x5C) 2 0 = preset ∧
          { call := c, op := 0x0801, lanes := lanes, arg := s.flat + (if timeout = 0 then 100 else timeout) * 1000000 } ∈ t.theham.waiting)) ∧
    (∀ a w b, s.fwUp = true → s.theham.waiting = a ++ w :: b → w.op = 0x0801 → (∀ x ∈ a, x.op = 0x0801 → w.arg < x.arg) →
      (∀ x ∈ b, x.op = 0x0801 → w.arg ≤ x.arg) → exec .laneUpTimeout s =
      .next ({ s with theham := { s.theham with waiting := a ++ b } }.complete w.call 0x0801 0x0802 0 (leBytes 8 (s.operMask w.lanes)))) ∧
    (∀ lanes, s.Serves c 0x0802 → (s.anyBound lanes = true → exec (.laneDown c lanes) s = .next (s.reply c 0x0802 0x0801)) ∧
      (s.anyBound lanes = false → ∃ t, exec (.laneDown c lanes) s = .next t ∧ ∀ n, n < 64 →
        (lanes.getLsbD n = true → (t.lane n).state = .off ∧ t.flag (laneAt n 0x40) 0 = false) ∧
        (lanes.getLsbD n = false → t.lane n = s.lane n))) ∧
    (∀ buffer, s.Serves c 0x0803 → c.Reaches buffer 1024 → ∃ u : State, exec (.laneStatus c buffer) s =
        .next ((u.bufWrite c.ring buffer.toNat ((List.range 64).flatMap (fun n =>
          if s.seesLane c.ring n then s.laneRecord n else List.replicate 16 0))).complete c 0x0803 0 0 []) ∧
      u.lanes = s.lanes ∧ u.jobs = s.jobs ∧ ∀ n, n < 64 → u.reg (laneAt n 0x64) = if s.seesLane c.ring n then 0 else s.reg (laneAt n 0x64)) ∧
    (∀ (lanes : Dword) (domain pps : Nat) (asymmetry : Dword), s.Serves c 0x0901 → domain < 256 → pps < 4 ∨ pps = 0xFF →
      asymmetry = 0 ∨ c.Reaches asymmetry 512 →
      ((∃ n, n < 64 ∧ lanes.getLsbD n = true ∧ (s.lane n).state ≠ .operational) →
        exec (.timePtpOn c lanes domain pps asymmetry) s = .next (s.reply c 0x0901 0x0015)) ∧
      ((∀ n, n < 64 → lanes.getLsbD n = true → (s.lane n).state = .operational) →
        ∃ t, exec (.timePtpOn c lanes domain pps asymmetry) s = .next t ∧ t.owner 7 = (2, 0) ∧
          ∃ p, t.time = { s.time with ptp := some p } ∧ p.lanes = lanes ∧ p.domain = domain ∧ p.pps = pps ∧ p.first = true ∧
            p.parent = none ∧ ∀ n, n < 64 → p.asym.getD n 0 = if asymmetry = 0 then 0 else
              BitVec.ofNat 64 (leNat (((s.bufRead c.ring asymmetry.toNat 512).drop (8 * n)).take 8)))) ∧
    (s.Serves c 0x0902 → ∃ t, exec (.timePtpOff c) s = .next t ∧ t.owner 7 = (0, 0) ∧ t.time = { s.time with ptp := none }) ∧
    (s.Serves c 0x0903 → (s.time.ptp = none → exec (.timePtpStatus c) s = .next (s.complete c 0x0903 0 0 [])) ∧
      (∀ p, s.time.ptp = some p → exec (.timePtpStatus c) s = .next (s.complete c 0x0903 0 0
        (leBytes 1 (if p.parent.isSome then 2 else if p.master then 3 else 1) ++ leBytes 1 (p.parent.getD 0) ++ List.replicate 6 0 ++
          leBytes 8 (unsignedOf 64 p.offset) ++ leBytes 8 (unsignedOf 64 (Sparse.get 0 p.delays (p.parent.getD 0))) ++
          (p.dataset.drop 6).take 8 ++ leBytes 2 (bodyGet p.dataset 14 2 + boolNat p.parent.isSome))))) ∧
    (∀ unit target period control, s.Serves c 0x0904 → unit < 12 →
      (s.domainOn 77 = false → exec (.timeUnit c unit target period control) s = .next (s.reply c 0x0904 0x0015)) ∧
      (s.domainOn 77 = true → unit < 8 → ∃ t, exec (.timeUnit c unit target period control) s = .next t ∧
        t.reg64 (timeAt (0x100 + 0x10 * unit)) = BitVec.toNat target ∧ t.reg (timeAt (0x108 + 0x10 * unit)) = period) ∧
      (s.domainOn 77 = true → 8 ≤ unit → exec (.timeUnit c unit target period control) s =
        .next ((s.storeWord .fw (timeAt (0x200 + 0x10 * (unit - 8))) control).1.reply c 0x0904 0))) ∧
    (s.Serves c 0x0905 → ∃ t, exec (.timeArm c) s = .next t ∧ t.flag (timeAt 0x64) 0 = true ∧ t.time = s.time)

/-- SEC_OWNER, SEC_KEY_SET, SEC_KEY_CLEAR, SEC_ATTEST, SEC_IDENTITY, LOG_READ, LOG_ACK, LOG_ROUTE and SCORE_READ. The
owner digest is set once. A signed record of the right kind enrols or clears exactly its slot and counts; an unsigned
one is refused. Attestation writes the report and its signature, identity the key and certificates. LOG_READ returns
the entries held for the caller and moves only its cursor; LOG_ACK clears the pending bits the caller may; LOG_ROUTE
sets a route, or is refused for a function the source is not routed to. SCORE_READ returns the scoreboard's bytes. -/
def Obligations.SecurityAndLogRows : Prop :=
  ∀ (s : State) (c : Call),
    (∀ buffer, s.Serves c 0x0A01 → c.Reaches buffer 64 →
      (s.theham.owner = none → exec (.secOwner c buffer) s = .next ({ s with theham := { s.theham with
        owner := some (Config.sm3 (s.bufRead c.ring buffer.toNat 64)) } }.reply c 0x0A01 0)) ∧
      (s.theham.owner.isSome = true → exec (.secOwner c buffer) s = .next (s.reply c 0x0A01 0x0A03))) ∧
    (∀ buffer, c.Reaches buffer 192 →
      let r := s.bufRead c.ring buffer.toNat 192
      let kind := (r.getD 100 0).toNat
      let slot := (r.getD 101 0).toNat
      let keys := fun (t : State) => if kind = 0 then t.theham.imgKeys else t.theham.agentKeys
      s.recordSigned r = true → s.theham.enrol < 1000 →
      (s.Serves c 0x0A02 → recordOk r 1 = true → ∃ t, exec (.secKeySet c buffer) s = .next t ∧ t.theham.enrol = s.theham.enrol + 1 ∧
        Sparse.get none (keys t) slot = some (of512 r) ∧ ∀ i, i ≠ slot → Sparse.get none (keys t) i = Sparse.get none (keys s) i) ∧
      (s.Serves c 0x0A03 → recordOk r 2 = true → Sparse.get none (keys s) slot ≠ none → ∃ t, exec (.secKeyClear c buffer) s = .next t ∧
        t.theham.enrol = s.theham.enrol + 1 ∧ Sparse.get none (keys t) slot = none) ∧
      (s.Serves c 0x0A03 → recordOk r 2 = true → Sparse.get none (keys s) slot = none →
        exec (.secKeyClear c buffer) s = .next (s.reply c 0x0A03 0x0A02))) ∧
    (∀ buffer, c.Reaches buffer 192 → s.Serves c 0x0A02 → recordOk (s.bufRead c.ring buffer.toNat 192) 1 = true →
      s.recordSigned (s.bufRead c.ring buffer.toNat 192) = false → exec (.secKeySet c buffer) s = .next (s.reply c 0x0A02 0x0A01)) ∧
    (∀ nonce buffer, s.Serves c 0x0A04 → c.Reaches buffer 768 → exec (.secAttest c nonce buffer) s =
      .next (({ s with free := s.free + 1 }.bufWrite c.ring buffer.toNat (s.reportBody nonce ++
        bytes512 (Config.sm2Sign (Config.sm3 (s.reportBody nonce)) s.free))).complete c 0x0A04 0 0 [])) ∧
    (∀ buffer cap, s.Serves c 0x0A05 → c.Reaches buffer (64 + Config.certificateLen) → 64 + Config.certificateLen ≤ cap →
      exec (.secIdentity c buffer cap) s = .next ((s.bufWrite c.ring buffer.toNat
        (identityKey ++ (List.range Config.certificateLen).map Config.certificate)).complete c 0x0A05 0 (64 + Config.certificateLen) [])) ∧
    (∀ most buffer, s.Serves c 0x0B01 →
      let es := (s.logHeld c.ring).take most
      c.Reaches buffer (32 * es.length) → ∃ (u : State) (lost : Nat), exec (.logRead c false most buffer) s =
        .next ((u.bufWrite c.ring buffer.toNat (es.flatMap LogEntry.bytes)).complete c 0x0B01 0 es.length (leBytes 4 lost)) ∧
        u = { s with theham := { s.theham with cursors := u.theham.cursors } } ∧ ∀ e ∈ es, e.seqNo < u.theham.cursor c.ring) ∧
    (∀ first mask, s.Serves c 0x0B02 → first % 64 = 0 → first < 512 → c.irq = false → ∃ t, exec (.logAck c first mask) s = .next t ∧
      ∀ i, i < 64 → t.flag (evtPend ((first + i) / 32)) (i % 32) =
        (s.flag (evtPend ((first + i) / 32)) (i % 32) && !(mask.getLsbD i && s.routedTo c.ring (first + i)))) ∧
    (∀ source value, s.Serves c 0x0B03 → source < 512 → value.toNat < 65536 →
      (s.callerFn c.ring = 0 → exec (.logRoute c source value) s = .next ((s.setReg (evtRoute source) value).reply c 0x0B03 0)) ∧
      (s.callerFn c.ring ≠ 0 → s.routedTo c.ring source = false →
        exec (.logRoute c source value) s = .next (s.reply c 0x0B03 0x0012))) ∧
    (∀ off n buffer, s.Serves c 0x0B04 → c.Reaches buffer n → off + n ≤ 15512 → exec (.scoreRead c off n buffer) s =
      .next ((s.bufWrite c.ring buffer.toNat ((List.range n).map (fun i =>
        (leBytes 4 (Sparse.get 0 s.theham.score ((off + i) / 4))).getD ((off + i) % 4) 0))).complete c 0x0B04 0 0 []))

/-- UPD_BEGIN, UPD_DATA, UPD_FINISH, UPD_ACTIVATE, UPD_COMMIT and UPD_ABORT. An update is opened by its type and length,
takes data at its offsets from the ring that opened it, and at its end stands in the other slot and is pending when it
verifies with a version not below the minimum, else dropped. Activation is refused while a job is live, else the
pending package of a type with two slots is in use and what it replaced is kept, or, where it does not verify, the old
slot is used with the fallback flag. A commit raises that type's minimum alone to the version in use, and is refused
in recovery or with none. An abort drops the open update of its own ring or the pending ones. That a new update of a
type drops the pending one is the model's choice (log entry 21). -/
def Obligations.UpdateRows : Prop :=
  ∀ (s : State) (c : Call),
    (∀ kind len, s.Serves c 0x0C01 → kind < 6 → len ≤ packageRoom kind → s.theham.update = none → exec (.updBegin c kind len) s =
      .next ({ s with theham := { s.theham with toBoot := s.theham.toBoot.filter (fun u => u.kind != kind)
                                                update := some { kind := kind, len := len, ring := c.ring, data := [], version := none } } }.reply
        c 0x0C01 0)) ∧
    (∀ u off n buffer, s.Serves c 0x0C02 → c.Reaches buffer n → s.theham.update = some u → u.ring = c.ring → 1 ≤ n → n ≤ 4096 →
      off + n ≤ u.len → exec (.updData c off n buffer) s = .next ((s.setUpdate (some { u with
        data := u.data.putBytes off (s.bufRead c.ring buffer.toNat n) })).reply c 0x0C02 0)) ∧
    (∀ u, s.Serves c 0x0C03 → s.theham.update = some u → u.ring = c.ring → Sparse.get 0 s.theham.writes (s.theham.writeSlot u.kind) < 1000 →
      let v := (Config.packageVersion (u.bytes 0 u.len)).toNat
      (s.packageOk u.kind (u.bytes 0 u.len) = true → s.versionOk u.kind (u.bytes 0 u.len) = true →
        ∃ t, exec (.updFinish c) s = .next t ∧ t.theham.update = none ∧ t.theham.toBoot = s.theham.toBoot ++ [{ u with version := some v }] ∧
          (u.kind < 4 → t.theham.part u.kind (!natBit s.theham.slotsUsed u.kind) = u.bytes 0 u.len)) ∧
      (s.packageOk u.kind (u.bytes 0 u.len) = false ∨ s.versionOk u.kind (u.bytes 0 u.len) = false →
        ∃ t, exec (.updFinish c) s = .next t ∧ t.theham.update = none ∧ t.theham.toBoot = s.theham.toBoot)) ∧
    (∀ u, s.Serves c 0x0C04 → s.theham.toBoot = [u] → (s.anyLive = true → exec (.updActivate c) s = .next (s.reply c 0x0C04 0x0C04)) ∧
      (s.anyLive = false → u.kind < 4 →
        let old := natBit s.theham.slotsUsed u.kind
        let new := s.theham.part u.kind (!old)
        (s.packageOk u.kind new = true → ∃ t, exec (.updActivate c) s = .next t ∧ t.theham.toBoot = [] ∧
          natBit t.theham.slotsUsed u.kind = !old ∧ t.theham.packages u.kind = [new] ∧
          t.theham.older.map OldPart.kind = [u.kind]) ∧
        (s.packageOk u.kind new = false → ∃ t, exec (.updActivate c) s = .next t ∧ t.theham.toBoot = [] ∧
          natBit t.theham.slotsUsed u.kind = old ∧ t.theham.older = [] ∧ t.flag (PageKind.dev.at 0x44) 3 = true))) ∧
    (∀ kind, s.Serves c 0x0C05 → kind < 6 →
      (∀ v, s.recovery = false → s.theham.versionOf kind = some v → ∃ t, exec (.updCommit c kind) s = .next t ∧
        Sparse.get 0 t.theham.minimum kind = max v (Sparse.get 0 s.theham.minimum kind) ∧
        ∀ k, k ≠ kind → Sparse.get 0 t.theham.minimum k = Sparse.get 0 s.theham.minimum k) ∧
      (s.recovery = true ∨ s.theham.versionOf kind = none → exec (.updCommit c kind) s = .next (s.reply c 0x0C05 0x0C05))) ∧
    (s.Serves c 0x0C06 → (∀ u, s.theham.update = some u → u.ring = c.ring → exec (.updAbort c) s = .next ((s.setUpdate none).reply c 0x0C06 0)) ∧
      (∀ u, s.theham.update = some u → u.ring ≠ c.ring → exec (.updAbort c) s = .next (s.reply c 0x0C06 0x0C01)) ∧
      (s.theham.update = none → s.theham.toBoot ≠ [] → exec (.updAbort c) s =
        .next ({ s with theham := { s.theham with toBoot := [] } }.reply c 0x0C06 0)))

/-- The debug port: identification, boundary scan and its refusal, DAP_STAT, the access queue and DBG_RST_N. IDCODE and
BYPASS shift out their values. SAMPLE takes the pins and loads the cells; EXTEST and its forms drive the pins while
the device is in reset and otherwise are refused and flagged, with CLAMP and HIGHZ. DAP_STAT shows its fields. An
access with its enqueue bit waits in the queue of four, else the queue is full; a capture takes the oldest answer, or
shows the full queue or none. Accesses are answered in order: done, page error, locked or domain off, by space, page,
unlock and power; a space 0 write crosses the mesh and is the debug port's write of that register. DBG_RST_N resets
the port and the debug and trace registers and touches no job. That the instruction shift returns 1 and the layout of
what is emitted are the model's (log entry 22). -/
def Obligations.DebugPortRows : Prop :=
  ∀ s : State,
    let tdo := fun (ir : Nat) (xs : List Out) (t : Tap) => { s with tap := { t with ir := ir }, out := s.out ++ xs }
    exec .idcode s = .next (tdo 0x01 [.tdo 1 8, .tdo 0x1D0044F1 32] s.tap) ∧
    exec .bypass s = .next (tdo 0xFF [.tdo 1 8, .tdo 0 1] s.tap) ∧
    (∀ pins bits, exec (.samplePreload pins bits) s = .next (tdo 0x02 [.tdo 1 8, .tdo pins.toNat 493] { s.tap with cells := bits })) ∧
    (∀ pins bits, pins.getLsbD 288 = false →
      let acts := fun (ir : Nat) (d : PadDrive) =>
        tdo ir [.tdo 1 8, .pads s.tap.cells d, .tdo pins.toNat 493, .pads bits d] { s.tap with refused := false, cells := bits }
      exec (.extest pins bits) s = .next (acts 0x03 .steady) ∧ exec (.extestPulse pins bits) s = .next (acts 0x04 .pulse) ∧
      exec (.extestTrain pins bits) s = .next (acts 0x05 .train)) ∧
    (∀ pins bits, pins.getLsbD 288 = true →
      let refuses := fun (ir : Nat) => tdo ir [.tdo 1 8, .tdo 0 1] { s.tap with refused := true }
      exec (.extest pins bits) s = .next (refuses 0x03) ∧ exec (.extestPulse pins bits) s = .next (refuses 0x04) ∧
      exec (.extestTrain pins bits) s = .next (refuses 0x05) ∧ exec (.clamp true) s = .next (refuses 0x06) ∧
      exec (.highz true) s = .next (refuses 0x07)) ∧
    exec (.clamp false) s = .next (tdo 0x06 [.tdo 1 8, .pads s.tap.cells .steady, .tdo 0 1] { s.tap with refused := false }) ∧
    exec (.highz false) s = .next (tdo 0x07 [.tdo 1 8, .pads s.tap.cells .off, .tdo 0 1] { s.tap with refused := false }) ∧
    (∃ v, exec .dapStat s = .next (tdo 0x21 [.tdo 1 8, .tdo v 32] s.tap) ∧ v < 65536 ∧ natBit v 0 = s.domainOn 82 ∧
      natBits v 6 4 = min 7 s.tap.queue.length ∧ natBit v 7 = s.tap.refused ∧
      natBit v 1 = (s.domainOn 82 && s.flag (dbgAt 0x44) 0) ∧ natBit v 2 = (s.domainOn 82 && s.flag (dbgAt 0x44) 3) ∧
      natBit v 3 = (s.domainOn 82 && s.packageStands) ∧ natBits v 15 8 = if s.domainOn 82 = true then s.fld (hdr 0xA 0x1C) 7 0 else 0) ∧
    (∀ bits : BitVec 72, (bits.getLsbD 10 = false → exec (.dapAccUpdate bits) s = .next (tdo 0x20 [] { s.tap with full := false })) ∧
      (bits.getLsbD 10 = true → s.tap.queue.length < 4 → exec (.dapAccUpdate bits) s = .next (tdo 0x20 [] { s.tap with
        queue := s.tap.queue ++ [dapRequest bits], full := false })) ∧
      (bits.getLsbD 10 = true → 4 ≤ s.tap.queue.length → exec (.dapAccUpdate bits) s = .next (tdo 0x20 [] { s.tap with full := true }))) ∧
    (s.tap.full = true → exec .dapAccCapture s = .next (tdo 0x20 [.tdo (5 * 2 ^ 7 + s.tap.queue.length * 2 ^ 4) 72] { s.tap with full := false })) ∧
    (s.tap.full = false → (∀ r, s.tap.queue.head? = some r → r.answer = none) →
      exec .dapAccCapture s = .next (tdo 0x20 [.tdo (s.tap.queue.length * 2 ^ 4) 72] s.tap)) ∧
    (∀ r rest result data, s.tap.full = false → s.tap.queue = r :: rest → r.answer = some (result, data) →
      exec .dapAccCapture s = .next (tdo 0x20 [.tdo (dapResponse r result data rest.length) 72] { s.tap with queue := rest })) ∧
    ((∀ r ∈ s.tap.queue, r.answer.isSome = true) → exec .dapAccessDone s = .next s) ∧
    (∀ done rest r, s.tap.queue = done ++ r :: rest → (∀ d ∈ done, d.answer.isSome = true) → r.answer = none →
      let answered := fun (result : Nat) (data : Word) (t : State) =>
        t.tap.queue = done ++ { r with answer := some (result, data) } :: rest ∧ t.jobs = s.jobs
      let unlocked := s.flag (dbgAt 0x44) 0 = true ∧ s.flag (dbgAt 0x44) 2 = true
      (s.domainOn 82 = false → exec .dapAccessDone s =
        .next { s with tap := { s.tap with queue := done ++ { r with answer := some (4, 0) } :: rest } }) ∧
      (s.domainOn 82 = true → r.space = 0 → r.write = false → s.Reads .dbg (r.addr * 4) →
        ∃ t v, exec .dapAccessDone s = .next t ∧ answered 1 v t) ∧
      (s.domainOn 82 = true → r.space = 0 → r.write = true → s.Admits .dbg (r.addr * 4) → ∃ t, exec .dapAccessDone s = .next t ∧
        { t with tap := {} } = { (s.cross .dbg (r.addr * 4) true).performWrite .dbg (r.addr * 4) r.data with tap := {} }) ∧
      (s.domainOn 82 = true → r.space = 0 → (∃ code, s.accessFault .dbg (r.addr * 4) = some code) →
        ∃ t, exec .dapAccessDone s = .next t ∧ (answered 2 0 t ∨ answered 4 0 t)) ∧
      (s.domainOn 82 = true → r.space = 1 → s.domainOn 80 = true → ∃ t v, exec .dapAccessDone s = .next t ∧ answered 1 v t) ∧
      (s.domainOn 82 = true → r.space = 2 → ∃ t v, exec .dapAccessDone s = .next t ∧ (unlocked → answered 1 v t) ∧
        (¬ unlocked → answered 3 0 t)) ∧
      (s.domainOn 82 = true → r.space = 3 → ∃ t, exec .dapAccessDone s = .next t ∧ answered 2 0 t)) ∧
    (∃ t, exec .dbgRstN s = .next t ∧ t.tap = {} ∧ t.tap.ir = 0x01 ∧ t.tap.queue = [] ∧
      t.dbg = { uc := s.dbg.uc, fw := s.dbg.fw, core := s.dbg.core } ∧ (∀ p off, p = 0xA ∨ p = 0xB → 0x40 ≤ off → off < 0x1000 →
        t.reg (hdr p off) = resetWord (hdr p off)) ∧ t.fab = s.fab ∧ t.jobs = s.jobs)

namespace Sys2Proof.Machine
/-- The firmware commands of a caller, with their opcodes (R445, R447–R454). -/
inductive Commands (c : Call) : Instr → Nat → Prop where
  | devInfo : Commands c (.devInfo c) 0x0101
  | devStatus : Commands c (.devStatus c) 0x0102
  | devPower (d o : Nat) : Commands c (.devPower c d o) 0x0103
  | devClock (n : Nat) : Commands c (.devClock c n) 0x0104
  | devWhistle (o : Nat) : Commands c (.devWhistle c o) 0x0105
  | devShutdown : Commands c (.devShutdown c) 0x0106
  | devNop (d : List Byte) : Commands c (.devNop c d) 0x0107
  | jobCreate (m : Dword) (fn : Nat) : Commands c (.jobCreate c m fn) 0x0201
  | jobDestroy (j : Nat) (k : Bool) : Commands c (.jobDestroy c j k) 0x0202
  | jobQuery (j : Nat) : Commands c (.jobQuery c j) 0x0203
  | jobWindowAlloc (j o u : Nat) : Commands c (.jobWindowAlloc c j o u) 0x0204
  | jobWindowFree (j o u f : Nat) : Commands c (.jobWindowFree c j o u f) 0x0205
  | imgLoad (j n k : Nat) (h f p : Bool) (a r : Dword) : Commands c (.imgLoad c j h f p a n r k) 0x0301
  | imgReload (j n k b : Nat) (h f : Bool) (a r : Dword) : Commands c (.imgReload c j h f a n r k b) 0x0302
  | imgInfo (j : Nat) : Commands c (.imgInfo c j) 0x0303
  | runStart (j d1 d2 d3 l k : Nat) (p : Bool) : Commands c (.runStart c j d1 d2 d3 l k p) 0x0401
  | runHalt (j : Nat) : Commands c (.runHalt c j) 0x0402
  | runResume (j : Nat) : Commands c (.runResume c j) 0x0403
  | runStop (j : Nat) : Commands c (.runStop c j) 0x0404
  | runUntil (j : Nat) (t : Dword) : Commands c (.runUntil c j t) 0x0405
  | stateRead (j f n : Nat) (b : Dword) : Commands c (.stateRead c j f n b) 0x0501
  | stateWrite (j f n : Nat) (b : Dword) : Commands c (.stateWrite c j f n b) 0x0502
  | ckptEnable (j i l g k : Nat) (x : Dword) : Commands c (.ckptEnable c j i l g k x) 0x0601
  | ckptDisable (j : Nat) : Commands c (.ckptDisable c j) 0x0602
  | ckptRequest (j : Nat) : Commands c (.ckptRequest c j) 0x0603
  | ckptList (j n : Nat) (b : Dword) : Commands c (.ckptList c j b n) 0x0604
  | ckptReplay (j m : Nat) (t : Dword) : Commands c (.ckptReplay c j m t) 0x0605
  | capOpen (j l n : Nat) : Commands c (.capOpen c j l n) 0x0701
  | capClose (j : Nat) : Commands c (.capClose c j) 0x0702
  | laneUp (m : Dword) (a r p l k t : Nat) (u : Bool) : Commands c (.laneUp c m a r p u l k t) 0x0801
  | laneDown (m : Dword) : Commands c (.laneDown c m) 0x0802
  | laneStatus (b : Dword) : Commands c (.laneStatus c b) 0x0803
  | timePtpOn (m a : Dword) (d p : Nat) : Commands c (.timePtpOn c m d p a) 0x0901
  | timePtpOff : Commands c (.timePtpOff c) 0x0902
  | timePtpStatus : Commands c (.timePtpStatus c) 0x0903
  | timeUnit (u : Nat) (t : Dword) (p k : Word) : Commands c (.timeUnit c u t p k) 0x0904
  | timeArm : Commands c (.timeArm c) 0x0905
  | secOwner (b : Dword) : Commands c (.secOwner c b) 0x0A01
  | secKeySet (b : Dword) : Commands c (.secKeySet c b) 0x0A02
  | secKeyClear (b : Dword) : Commands c (.secKeyClear c b) 0x0A03
  | secAttest (n : BitVec 256) (b : Dword) : Commands c (.secAttest c n b) 0x0A04
  | secIdentity (b : Dword) (n : Nat) : Commands c (.secIdentity c b n) 0x0A05
  | logRead (f : Bool) (n : Nat) (b : Dword) : Commands c (.logRead c f n b) 0x0B01
  | logAck (f : Nat) (m : Dword) : Commands c (.logAck c f m) 0x0B02
  | logRoute (n : Nat) (v : Word) : Commands c (.logRoute c n v) 0x0B03
  | scoreRead (o n : Nat) (b : Dword) : Commands c (.scoreRead c o n b) 0x0B04
  | updBegin (k n : Nat) : Commands c (.updBegin c k n) 0x0C01
  | updData (o n : Nat) (b : Dword) : Commands c (.updData c o n b) 0x0C02
  | updFinish : Commands c (.updFinish c) 0x0C03
  | updActivate : Commands c (.updActivate c) 0x0C04
  | updCommit (k : Nat) : Commands c (.updCommit c k) 0x0C05
  | updAbort : Commands c (.updAbort c) 0x0C06

/-- Commands whose only parameter that can be out of range is the job. -/
inductive PlainJobCommands (c : Call) (j : Nat) : Instr → Nat → Prop where
  | jobDestroy (k : Bool) : PlainJobCommands c j (.jobDestroy c j k) 0x0202
  | jobQuery : PlainJobCommands c j (.jobQuery c j) 0x0203
  | imgInfo : PlainJobCommands c j (.imgInfo c j) 0x0303
  | runHalt : PlainJobCommands c j (.runHalt c j) 0x0402
  | runResume : PlainJobCommands c j (.runResume c j) 0x0403
  | runStop : PlainJobCommands c j (.runStop c j) 0x0404
  | runUntil (t : Dword) : PlainJobCommands c j (.runUntil c j t) 0x0405
  | ckptDisable : PlainJobCommands c j (.ckptDisable c j) 0x0602
  | ckptRequest : PlainJobCommands c j (.ckptRequest c j) 0x0603
  | capClose : PlainJobCommands c j (.capClose c j) 0x0702
end Sys2Proof.Machine

/-- In recovery the device, security, update and log groups are served and every other command is refused. For every
firmware command of any caller, in recovery and before a shutdown: a command of another group answers RECOVERY_MODE
and does nothing else; a permitted command of the four groups goes on to the check of its fields. -/
def Obligations.RecoveryRefusesTheOtherGroups : Prop :=
  ∀ (s : State) (c : Call) (i : Instr) (op : Nat), Commands c i op → s.fwUp = true → s.theham.shutdown = false → s.recovery = true →
    (op / 256 ≠ 0x01 → op / 256 ≠ 0x0A → op / 256 ≠ 0x0B → op / 256 ≠ 0x0C → exec i s = .next (s.reply c op 0x0013)) ∧
    (op / 256 = 0x01 ∨ op / 256 = 0x0A ∨ op / 256 = 0x0B ∨ op / 256 = 0x0C → ∀ fields body, s.permitted c.ring op = true →
      s.gate c op fields body = if fields then body s else s.reply c op 0x0011)

/-- Commands with firmware in reset or after shutdown, without the right, or of a job out of range or not seen do nothing
beyond answering their status. While the firmware cores are in reset a command does nothing (the model's reading, log
entry 83). After DEV_SHUTDOWN every command but DEV_INFO and DEV_STATUS answers CMD_STATE. A command its ring has no
right to answers its right's status or BAD_FIELD. A job command of a number beyond 63 answers BAD_FIELD, and of a job
the caller does not see NO_JOB. In each of these cases nothing else happens than the completion. -/
def Obligations.CommandGateRefuses : Prop :=
  (∀ (s : State) (c : Call) (i : Instr) (op : Nat), Commands c i op → s.fwUp = false → exec i s = .next s) ∧
  (∀ (s : State) (c : Call) (i : Instr) (op : Nat), Commands c i op → s.fwUp = true → s.theham.shutdown = true → op ≠ 0x0101 → op ≠ 0x0102 →
    exec i s = .next (s.reply c op 0x0015)) ∧
  (∀ (s : State) (c : Call) (i : Instr) (op : Nat), Commands c i op → s.fwUp = true → s.theham.shutdown = false → s.recovery = false →
    s.permitted c.ring op = false → exec i s = .next (s.reply c op 0x0012) ∨ exec i s = .next (s.reply c op 0x0011)) ∧
  (∀ (s : State) (c : Call) (j : Nat) (i : Instr) (op : Nat), PlainJobCommands c j i op → s.Serves c op →
    (64 ≤ j → s.recovery = false → s.theham.shutdown = false → exec i s = .next (s.reply c op 0x0011)) ∧
    (j < 64 → s.sees c.ring j = false → exec i s = .next (s.reply c op 0x0202)))

/-- A completion is written to its own ring, with its phase bit, and to no other byte of host memory. To a function's
enabled ring: the 64 bytes stand at the slot of the completion index with the phase of its pass, every other byte of
host memory is as before, the index is one more, and no job and no HBM byte changes. To a ring that is off or was
turned off since, nothing is written. To the agent the index advances and its interrupt is raised, or waits in monitor
mode; to the board controller its completion is valid and its command slot free. -/
def Obligations.CompletionsReachTheirRing : Prop :=
  ∀ (s : State) (c : Call) (op status detail : Nat) (result : List Byte),
    let t := s.complete c op status detail result
    (∀ fn, c.ring = .host fn → fn < 64 → s.flag (mboxAt fn 0x50) 0 = true → c.lost = false →
      let n := (s.reg (mboxAt fn 0x58)).toNat
      let size := 2 ^ s.fld (mboxAt fn 0x50) 11 8
      let at_ := s.reg64 (mboxAt fn 0x48) + 64 * (n % size)
      t.hostMem.bytes at_ 64 = completionBytes op status c detail result (1 - n / size % 2) ∧
      (∀ a, a < at_ ∨ at_ + 64 ≤ a → Sparse.get 0 t.hostMem a = Sparse.get 0 s.hostMem a) ∧
      t.reg (mboxAt fn 0x58) = s.reg (mboxAt fn 0x58) + 1 ∧ t.jobs = s.jobs ∧ t.hbm = s.hbm) ∧
    (∀ fn, c.ring = .host fn → fn < 64 → s.flag (mboxAt fn 0x50) 0 = false ∨ c.lost = true →
      t.hostMem = s.hostMem ∧ t.reg (mboxAt fn 0x58) = s.reg (mboxAt fn 0x58)) ∧
    (c.ring = .agent → t.theham.written = s.theham.written + 1 ∧ t.hostMem = s.hostMem ∧ (s.flag (dbgAt 0x44) 3 = false → .ucIrq 512 ∈ t.out) ∧
      (s.flag (dbgAt 0x44) 3 = true → 512 ∈ t.dbg.core.irqs)) ∧
    (c.ring = .bmc → t.theham.bmcCpl = completionBytes op status c detail result (1 - s.theham.bmcSent % 2) ∧ t.theham.bmcBusy = false ∧
      t.theham.bmcValid = true ∧ t.theham.bmcSent = s.theham.bmcSent + 1 ∧ t.hostMem = s.hostMem)

/-- The write-backs, injections, dynamic requests and debug-port commands complete where the spec lets them act. Each has
its effect under conditions on the state and its operands alone. A pending instruction-store write-back is made and
counted, and a pending bank write-back, with its bank not in clear mode, leaves the queue. An admitted write of an
injection register leaves its arm bit as written. On an available bank where nothing waits, the word reads clean and
the fabric leaves the cycle, a dynamic request of each kind, new or waiting, is answered OK with the old word or 0.
IDCODE, BYPASS, SAMPLE, the EXTEST forms, CLAMP and HIGHZ in device reset, and DAP_STAT shift out what they capture;
an access is queued where there is room, performed, and its answer captured; DBG_RST_N empties the queue and selects
IDCODE. That each instruction shift returns 1 is the model's (log entry 22). -/
def Obligations.EccBankAndDebugPortCommandsComplete : Prop :=
  (∀ (s : State) (x : IstoreWb), s.fab.istoreWb.find? (fun y => y.cl == x.cl && y.bp == x.bp && y.entry == x.entry) = some x →
    ∃ t, exec (.istoreWriteback x.cl x.bp x.entry) s = .next t ∧ t.fab.istoreWb = s.fab.istoreWb.erase x ∧
      t.fld (fabcAt x.cl 0x40) 15 0 = min 65535 (s.fld (fabcAt x.cl 0x40) 15 0 + 1)) ∧
  (∀ (s : State) (x : MbWb), s.fab.mbWb.find? (fun y => y.bank == x.bank) = some x → s.bankClearing x.bank = false →
    ∃ t, exec (.mbEccWriteback x.bank) s = .next t ∧ t.fab.mbWb = s.fab.mbWb.erase x) ∧
  (∀ (s : State) (rq : Requester) (cl : Nat) (v : Word), cl < 4096 →
    (s.Admits rq (fabcAt cl 0x58) → ∃ t, exec (.bpEccInject rq cl v) s = .next t ∧ t.flag (fabcAt cl 0x58) 31 = v.getLsbD 31) ∧
    (s.Admits rq (fabcAt cl 0x88) → ∃ t, exec (.cwEccInject rq cl v) s = .next t ∧ t.flag (fabcAt cl 0x88) 31 = v.getLsbD 31) ∧
    (s.Admits rq (fabcAt cl 0x108) → ∃ t, exec (.netEccInject rq cl v) s = .next t ∧ t.flag (fabcAt cl 0x108) 31 = v.getLsbD 31) ∧
    (s.Admits rq (fabcAt cl 0x194) → ∃ t, exec (.mbEccInject rq cl v) s = .next t ∧ t.flag (fabcAt cl 0x194) 31 = v.getLsbD 31)) ∧
  (∀ (s : State) (src : DynSrc) (bank w : Nat) (old v : Dword) (mask : BitVec 8) (busy : Bool), bank < 16384 → w < 4096 →
    (∀ fn, src ≠ .host fn) → s.bankStatus bank = .ok → s.bankClearing bank = false → s.access = [] → s.fab.dyn = [] → s.fab.mbWb = [] →
    s.fab.dynWait = [] → s.bankRead bank w = (⟨old.toNat, 0, false⟩, false) → busy = false ∨ s.fabricUse bank = none →
    let served := fun (c : Instr) (u : State) (d : Dword) =>
      ∃ t, exec c u = .next t ∧ t.fab.resp = s.fab.resp ++ [⟨src, bank, w, d, .ok⟩] ∧ t.fab.dyn = []
    served (.mbDynRead src bank w busy) s old ∧ served (.mbDynWrite src bank w v busy) s 0 ∧
    served (.mbDynMaskedWrite src bank w v mask busy) s 0 ∧ served (.mbDynAdd src bank w v busy) s old ∧
    served (.mbDynSwap src bank w v busy) s old ∧
    served (.mbDynRetry bank busy) { s with fab := { s.fab with dyn := [⟨src, bank, w, .read, false⟩] } } old) ∧
  (∀ s : State,
    let shifts := fun (c : Instr) (ir : Nat) (xs : List Out) => ∃ t, exec c s = .next t ∧ t.tap.ir = ir ∧ t.out = s.out ++ .tdo 1 8 :: xs
    shifts .idcode 0x01 [.tdo 0x1D0044F1 32] ∧ shifts .bypass 0xFF [.tdo 0 1] ∧
    (∀ pins bits, shifts (.samplePreload pins bits) 0x02 [.tdo pins.toNat 493]) ∧
    (∀ pins bits, pins.getLsbD 288 = false →
      shifts (.extest pins bits) 0x03 [.pads s.tap.cells .steady, .tdo pins.toNat 493, .pads bits .steady] ∧
      shifts (.extestPulse pins bits) 0x04 [.pads s.tap.cells .pulse, .tdo pins.toNat 493, .pads bits .pulse] ∧
      shifts (.extestTrain pins bits) 0x05 [.pads s.tap.cells .train, .tdo pins.toNat 493, .pads bits .train]) ∧
    shifts (.clamp false) 0x06 [.pads s.tap.cells .steady, .tdo 0 1] ∧ shifts (.highz false) 0x07 [.pads s.tap.cells .off, .tdo 0 1] ∧
    (∃ v, shifts .dapStat 0x21 [.tdo v 32] ∧ natBit v 0 = s.domainOn 82) ∧
    (∀ bits : BitVec 72, bits.getLsbD 10 = true → s.tap.queue.length < 4 →
      ∃ t, exec (.dapAccUpdate bits) s = .next t ∧ t.tap.queue = s.tap.queue ++ [dapRequest bits]) ∧
    (∀ r rest result data, s.tap.full = false → s.tap.queue = r :: rest → r.answer = some (result, data) →
      ∃ t, exec .dapAccCapture s = .next t ∧ t.tap.queue = rest ∧ t.out = s.out ++ [.tdo (dapResponse r result data rest.length) 72]) ∧
    (∀ r, s.tap.queue = [r] → r.answer = none → s.domainOn 82 = true → r.space = 0 → r.write = false → s.Reads .dbg (r.addr * 4) →
      ∃ t v, exec .dapAccessDone s = .next t ∧ t.tap.queue = [{ r with answer := some (1, v) }]) ∧
    ∃ t, exec .dbgRstN s = .next t ∧ t.tap.ir = 0x01 ∧ t.tap.queue = [])

/-- The machine after reset: every queue empty, every job free, lane off, segment idle and transaction free. In
State.reset no command waits, the log is empty, the TAP holds IDCODE, the package is not halted, every job is free and
unprotected, every lane is OFF, every segment idle, every transaction free, every latched time the counter, lambda at
its Reset value 160, and HBM and host memory list nothing (unlisted bytes read 0: log entry 10). -/
def Obligations.ResetState : Prop :=
  State.reset.pending = [] ∧ State.reset.theham.waiting = [] ∧ State.reset.theham.log = [] ∧ State.reset.tap.ir = 1 ∧
  State.reset.pkgHalt = false ∧ (∀ j, (State.reset.job j).state = .free ∧ (State.reset.job j).prot.state = .off) ∧
  (∀ n, (State.reset.lane n).state = .off) ∧ (∀ g, (State.reset.seq g).state = .idle) ∧
  (∀ t, (State.reset.slotAt t).state = .free) ∧ (∀ p, State.reset.txnOf p = none) ∧ (∀ rq, State.reset.timeCopy rq = State.reset.time.now) ∧
  (∀ n, n < 64 → State.reset.lambda n = 160) ∧ State.reset.hbm = [] ∧ State.reset.hostMem = []

/-- The state after reset satisfies the invariant Sound. State.reset satisfies Sound: HBM and host memory are in canonical
form, there are four DEV transaction slots, at most four debug accesses wait, and the event log holds at most 4,096
entries. -/
def Obligations.SoundAtReset : Prop := State.reset.Sound

/-- Every step of every sound state leads to a sound state. For every state that satisfies Sound, whatever command stands
at the front of its queue, a step that answers a next state answers one that satisfies Sound: HBM and host memory stay
in canonical form, the DEV slots stay four, the queue of debug accesses stays within four and the event log within
4,096 entries. -/
def Obligations.SoundIsKept : Prop := ∀ s t : State, s.Sound → step s = .next t → t.Sound

/-- No command adds to, removes from or reorders the queue of waiting commands. For every command and state, when exec
answers a next state its queue of waiting commands is the one before: commands come from outside only (log entry 2). -/
def Obligations.ExecLeavesTheQueueAlone : Prop := ∀ (c : Instr) (s t : State), exec c s = .next t → t.pending = s.pending

end
end

