-- ==== Sys2Proof/WellFormed.lean ====
section
/-! DEFINITION. Which commands are well formed: every operand names a unit that exists. A value that comes from outside the
package, and a command's parameter that firmware checks itself (R438), is not restricted. -/

namespace Sys2Proof

/-- A global segment (R15). -/
def segOk (n : Nat) : Bool := decide (n < 64)

/-- A job (R226). -/
def jobOk (n : Nat) : Bool := decide (n < 64)

/-- A package cluster (R16). -/
def clusterOk (n : Nat) : Bool := decide (n < 4096)

/-- A BP of a cluster (R57). -/
def bpOk (n : Nat) : Bool := decide (n < 64)

/-- A package bank (R16). -/
def bankOk (n : Nat) : Bool := decide (n < 16384)

/-- A bank of a cluster (R152). -/
def portBankOk (n : Nat) : Bool := decide (n < 4)

/-- A word of a bank (R152). -/
def wordOk (n : Nat) : Bool := decide (n < 4096)

/-- An instruction-store entry (R57). -/
def entryOk (n : Nat) : Bool := decide (n < 1024)

/-- A pseudo-channel (R174). -/
def pcOk (n : Nat) : Bool := decide (n < 128)

/-- A lane (R284). -/
def laneOk (n : Nat) : Bool := decide (n < 64)

/-- A PCIe function (R355). -/
def fnOk (n : Nat) : Bool := decide (n < 64)

/-- A cluster group (R183). -/
def groupOk (n : Nat) : Bool := decide (n < 128)

/-- A slot of DEV transactions (R51). -/
def slotOk (n : Nat) : Bool := decide (n < 4)

/-- A page number (R35). -/
def pageOk (n : Nat) : Bool := decide (n < 16384)

/-- A fabric die (R14). -/
def dieOk (n : Nat) : Bool := decide (n < 4)

/-- A referee requester (R193). -/
def requesterOk (n : Nat) : Bool := decide (n < 24)

/-- A transaction engine (R395). -/
def engineOk (n : Nat) : Bool := decide (n < 32)

/-- A power domain (R18). -/
def domainOk (n : Nat) : Bool := decide (n < 84)

/-- A general-purpose pin (R487). -/
def pinOk (n : Nat) : Bool := decide (n < 96)

/-- A port number (R193, R380). -/
def portOk (n : Nat) : Bool := decide (n < 16)

/-- A BAR0 offset (R35). -/
def addrOk (n : Nat) : Bool := decide (n < 67108864)

/-- The address of a register access: a BAR0 offset, or for a host function one of its BAR4 or configuration space (R357, R364). -/
def regAddrOk (rq : Requester) (n : Nat) : Bool := addrOk n || rq.hostSpace n

/-- A host read of at most 4,096 bytes (R355). -/
def readSizeOk (n : Nat) : Bool := decide (n ≤ 4096)

/-- A write's payload of at most 512 bytes (R355). -/
def payloadOk (n : Nat) : Bool := decide (n ≤ 512)

/-- An event source (R425). -/
def sourceOk (n : Nat) : Bool := decide (n < 512)

/-- A capture channel (R320). -/
def channelOk (n : Nat) : Bool := decide (n < 4)

/-- A compare unit (R319). -/
def unitOk (n : Nat) : Bool := decide (n < 8)

/-- A word of general-purpose pins (R498). -/
def gpioWordOk (n : Nat) : Bool := decide (n < 3)

/-- A lane group (R284). -/
def laneGroupOk (n : Nat) : Bool := decide (n < 4)

/-- An HBM stack (R174). -/
def stackOk (n : Nat) : Bool := decide (n < 4)

/-- A queue tag of the package: 512 for each cluster group (R183). -/
def tagOk (n : Nat) : Bool := decide (n < 65536)

/-- An MSI-X vector (R365). -/
def vectorOk (n : Nat) : Bool := decide (n < 8)

/-- An access width that a requester's bus can make. -/
def widthOk (n : Nat) : Bool := [8, 16, 32, 64].contains n

/-- A requester: a VF is numbered 1 to 63 (R39). -/
def Requester.wf : Requester → Bool
  | .vf n => decide (1 ≤ n) && decide (n < 64)
  | _ => true

/-- A ring: that of a function, the agent's or the board controller's (R431, R435). -/
def Ring.wf : Ring → Bool
  | .host fn => fnOk fn
  | _ => true

/-- A command's envelope: its ring, and a count below 2^32 (R431). -/
def Call.wf (c : Call) : Bool := c.ring.wf && decide (c.index < 2 ^ 32)

/-- A well-formed command. -/
def Instr.wf : Instr → Bool
  | .sequencerStep seg => segOk seg
  | .padStep seg => segOk seg
  | .holdStep job => jobOk job
  | .haltTakesEffect job => jobOk job
  | .holdTimeout job => jobOk job
  | .nop cl bp => clusterOk cl && bpOk bp
  | .eval cl bp => clusterOk cl && bpOk bp
  | .shift cl bp => clusterOk cl && bpOk bp
  | .load cl bp => clusterOk cl && bpOk bp
  | .istoreWriteback cl bp entry => clusterOk cl && bpOk bp && entryOk entry
  | .bpEccInject rq cl _ => rq.wf && clusterOk cl
  | .cwEccInject rq cl _ => rq.wf && clusterOk cl
  | .netEccInject rq cl _ => rq.wf && clusterOk cl
  | .wauLoad cl => clusterOk cl
  | .add64 cl => clusterOk cl
  | .mul32 cl => clusterOk cl
  | .cmul16 cl => clusterOk cl
  | .mac48 cl => clusterOk cl
  | .norm64 cl => clusterOk cl
  | .expx cl => clusterOk cl
  | .clz64 cl => clusterOk cl
  | .wauResult cl => clusterOk cl
  | .bankRead cl bank => clusterOk cl && portBankOk bank
  | .bankWriteGather cl bank => clusterOk cl && portBankOk bank
  | .bankWriteResult cl bank => clusterOk cl && portBankOk bank
  | .wauPortRead cl bank => clusterOk cl && portBankOk bank
  | .mbEccWriteback bank => bankOk bank
  | .mbEccInject rq cl _ => rq.wf && clusterOk cl
  | .mbDynRead _ bank word _ => bankOk bank && wordOk word
  | .mbDynWrite _ bank word _ _ => bankOk bank && wordOk word
  | .mbDynMaskedWrite _ bank word _ _ _ => bankOk bank && wordOk word
  | .mbDynAdd _ bank word _ _ => bankOk bank && wordOk word
  | .mbDynSwap _ bank word _ _ => bankOk bank && wordOk word
  | .mbDynRetry bank _ => bankOk bank
  | .bulkClearDone job => jobOk job
  | .bankWakeDone seg => segOk seg
  | .mqIssueRead cl => clusterOk cl
  | .mqIssueWrite cl => clusterOk cl
  | .mqTagGrant cg => groupOk cg
  | .mqWait cl => clusterOk cl
  | .mqReturnTake cl => clusterOk cl
  | .mqCompletion tag _ => tagOk tag
  | .refereeRequestArrive pc requester _ => pcOk pc && requesterOk requester
  | .refereeDecision pc => pcOk pc
  | .requestWithdraw pc requester => pcOk pc && requesterOk requester
  | .refCntClr rq pc _ => rq.wf && pcOk pc
  | .hbmRefreshRateChange stack _ => stackOk stack
  | .pcOutOfService pc => pcOk pc
  | .undoLogCapture pc port => pcOk pc && portOk port
  | .regWrite rq addr width _ => rq.wf && regAddrOk rq addr && widthOk width
  | .rcRead rq addr width => rq.wf && regAddrOk rq addr && widthOk width
  | .lowWordRead rq addr => rq.wf && addrOk addr
  | .debugRead addr width => addrOk addr && widthOk width
  | .unmappedAccess rq addr _ => rq.wf && addrOk addr
  | .pairTimeout page _ => pageOk page
  | .softReset rq page => rq.wf && pageOk page
  | .pgEnableWrite rq page _ => rq.wf && pageOk page
  | .pgIrqClear rq page _ => rq.wf && pageOk page
  | .pgIrqSet rq page _ => rq.wf && pageOk page
  | .pgTxnBegin rq page _ => rq.wf && pageOk page
  | .pgTxnCommit rq page => rq.wf && pageOk page
  | .pgTxnRollback rq page => rq.wf && pageOk page
  | .devTxnBegin rq slot => rq.wf && slotOk slot
  | .devTxnCommit rq slot => rq.wf && slotOk slot
  | .devTxnRollback rq slot => rq.wf && slotOk slot
  | .txnTimeout _ _ => true
  | .linePulse rq seg _ => rq.wf && segOk seg
  | .stepclkPllUnlock die => dieOk die
  | .hubPllUnlock => true
  | .pllRelock _ => true
  | .clkStepWrite rq _ => rq.wf
  | .stepclkRelock => true
  | .linkTraining _ _ => true
  | .linkUe _ => true
  | .scrubSweepStart => true
  | .scrubPiece => true
  | .scrubPatrolRead => true
  | .scrubTmrFix _ _ => true
  | .scrubSigCheck => true
  | .eccCounterPoll => true
  | .faultHandlingStart job => jobOk job
  | .rollbackStart job => jobOk job
  | .restoreComplete job _ => jobOk job
  | .ckptCopyComplete job _ => jobOk job
  | .ckptRetireAge job => jobOk job
  | .replayLogThreshold job _ => jobOk job
  | .compareSignatures job => jobOk job
  | .ckAnnounce job => jobOk job
  | .laneUpWrite rq lane _ => rq.wf && laneOk lane
  | .signalDetected lane => laneOk lane
  | .alignDone lane => laneOk lane
  | .alignTimeout lane => laneOk lane
  | .trainDone lane => laneOk lane
  | .trainTimeout lane => laneOk lane
  | .measureDone lane => laneOk lane
  | .lockLost lane => laneOk lane
  | .lanePllUnlock group => laneGroupOk group
  | .frameTransmit lane _ => laneOk lane
  | .codewordMessageRx lane _ _ _ _ => laneOk lane
  | .controlFrameRx lane _ => laneOk lane
  | .replayMarkerRx lane _ _ => laneOk lane
  | .fomUpdate lane _ => laneOk lane
  | .patternCheckerLock heard => laneOk heard.lane
  | .lanePatClr rq lane => rq.wf && laneOk lane
  | .laneInjFire rq lane => rq.wf && laneOk lane
  | .timerefTick => true
  | .timeNowLatch rq => rq.wf
  | .timeSet rq => rq.wf
  | .timeAdj rq => rq.wf
  | .timeCmdArm rq => rq.wf
  | .timeCancel rq => rq.wf
  | .timeCompareFire j => unitOk j
  | .timeCmpPulseEnd j => unitOk j
  | .timeCaptureEdge k _ _ _ _ => channelOk k
  | .timeCapRead rq k => rq.wf && channelOk k
  | .capBoundaryMarker seg => segOk seg
  | .capRecordAssemble => true
  | .capRearmDone => true
  | .capGap => true
  | .capArm rq => rq.wf
  | .capStop rq => rq.wf
  | .capTrigger rq => rq.wf
  | .pcieLinkTraining _ _ _ => true
  | .pcieReset _ => true
  | .flr fn => fnOk fn
  | .bar2Read fn _ size => fnOk fn && readSizeOk size
  | .bar2Write fn _ bytes => fnOk fn && payloadOk bytes.length
  | .pcieAtomic fn _ _ _ _ _ => fnOk fn
  | .msixUnmask fn vector => fnOk fn && vectorOk vector
  | .nocPacket _ => true
  | .devWhistleAssert rq => rq.wf
  | .devWhistleClear rq => rq.wf
  | .whistleIn => true
  | .mboxDbCmd fn _ => fnOk fn
  | .mboxDbCpl fn _ => fnOk fn
  | .mboxRingEnable rq fn => rq.wf && fnOk fn
  | .commandTake ring _ _ => ring.wf
  | .agentRingPoll _ _ => true
  | .bmcSubmit _ => true
  | .bmcAck => true
  | .dispatchDoorbell fn _ _ => fnOk fn
  | .engineSelect engine => engineOk engine
  | .enginePacketDone engine _ => engineOk engine
  | .d2hTake job port => jobOk job && portOk port
  | .flowCreate fn _ _ _ _ _ _ _ _ _ => fnOk fn
  | .flowRestart fn _ => fnOk fn
  | .flowDestroy fn _ => fnOk fn
  | .lockstepFault => true
  | .wdt1Expire _ => true
  | .wdt0Expire => true
  | .wdt0Kick rq _ => rq.wf
  | .agentFault => true
  | .sensorSample _ => true
  | .voltRecovered => true
  | .eventRaise source _ _ _ _ => sourceOk source
  | .logFlush => true
  | .scoreboardSample _ => true
  | .scoreboardWrite => true
  | .devInfo c => c.wf
  | .devStatus c => c.wf
  | .devPower c _ _ => c.wf
  | .devClock c _ => c.wf
  | .devWhistle c _ => c.wf
  | .devShutdown c => c.wf
  | .devNop c _ => c.wf
  | .jobCreate c _ _ => c.wf
  | .jobDestroy c _ _ => c.wf
  | .jobQuery c _ => c.wf
  | .jobWindowAlloc c _ _ _ => c.wf
  | .jobWindowFree c _ _ _ _ => c.wf
  | .imgLoad c _ _ _ _ _ _ _ _ => c.wf
  | .imgReload c _ _ _ _ _ _ _ _ => c.wf
  | .regionStoresWritten job => jobOk job
  | .imgInfo c _ => c.wf
  | .runStart c _ _ _ _ _ _ _ => c.wf
  | .runHalt c _ => c.wf
  | .runResume c _ => c.wf
  | .runStop c _ => c.wf
  | .runUntil c _ _ => c.wf
  | .stateRead c _ _ _ _ => c.wf
  | .stateWrite c _ _ _ _ => c.wf
  | .ckptEnable c _ _ _ _ _ _ => c.wf
  | .ckptDisable c _ => c.wf
  | .ckptRequest c _ => c.wf
  | .ckptList c _ _ _ => c.wf
  | .ckptReplay c _ _ _ => c.wf
  | .capOpen c _ _ _ => c.wf
  | .capClose c _ => c.wf
  | .laneUp c _ _ _ _ _ _ _ _ => c.wf
  | .laneDown c _ => c.wf
  | .laneStatus c _ => c.wf
  | .timePtpOn c _ _ _ _ => c.wf
  | .timePtpOff c => c.wf
  | .timePtpStatus c => c.wf
  | .timeUnit c _ _ _ _ => c.wf
  | .timeArm c => c.wf
  | .secOwner c _ => c.wf
  | .secKeySet c _ => c.wf
  | .secKeyClear c _ => c.wf
  | .secAttest c _ _ => c.wf
  | .secIdentity c _ _ => c.wf
  | .logRead c _ _ _ => c.wf
  | .logAck c _ _ => c.wf
  | .logRoute c source _ => c.wf && sourceOk source
  | .scoreRead c _ _ _ => c.wf
  | .updBegin c _ _ => c.wf
  | .updData c _ _ _ => c.wf
  | .updFinish c => c.wf
  | .updActivate c => c.wf
  | .updCommit c _ => c.wf
  | .updAbort c => c.wf
  | .idcode => true
  | .samplePreload _ _ => true
  | .extest _ _ => true
  | .extestPulse _ _ => true
  | .extestTrain _ _ => true
  | .clamp _ => true
  | .highz _ => true
  | .bypass => true
  | .dapStat => true
  | .dapAccUpdate _ => true
  | .dapAccCapture => true
  | .dapAccessDone => true
  | .dbgRstN => true
  | .dbgAuthChallenge rq => rq.wf
  | .dbgAuthVerify rq _ => rq.wf
  | .dbgAuthVerifyDone => true
  | .dbgAuthLock rq => rq.wf
  | .dbgChallengeExpire => true
  | .packageHalt rq => rq.wf
  | .packageResume rq => rq.wf
  | .ucHaltRequest rq _ _ _ => rq.wf
  | .ebreak _ _ => true
  | .comparatorMatch _ _ _ _ => true
  | .monitorExit _ => true
  | .stepEvent _ _ => true
  | .dccTxPush _ => true
  | .dccTxRead rq => rq.wf
  | .dccTxPop rq => rq.wf
  | .dccRxPush rq _ => rq.wf
  | .dccRxRead => true
  | .traceStart rq => rq.wf
  | .traceStop rq => rq.wf
  | .traceTrigger _ => true
  | .traceWindowDone => true
  | .traceSinkFull => true
  | .ucSleep _ => true
  | .ucWake _ _ => true
  | .gpioSet rq w _ => rq.wf && gpioWordOk w
  | .gpioClr rq w _ => rq.wf && gpioWordOk w
  | .gpioTgl rq w _ => rq.wf && gpioWordOk w
  | .gpioXbarSelWrite rq pin _ => rq.wf && pinOk pin
  | .pwrReqGo rq _ => rq.wf
  | .domainSwitchOnDone pd => domainOk pd
  | .domainSwitchOffDone pd => domainOk pd
  | .rstCmd rq _ _ => rq.wf
  | .deviceReset _ _ => true
  | .powerOnReset _ => true
  | .thermalTrip => true
  | .refclkLoss _ => true
  | .loadingComplete job => jobOk job
  | .preloadComplete job => jobOk job
  | .destroyComplete job => jobOk job
  | .laneUpTimeout => true
  | .whistleInFall => true
  | .hbmRequestComplete pc _ => pcOk pc
  | .retiredInstruction _ => true

end Sys2Proof
end

