-- ==== Sys2Proof/Tests/Slice0.lean ====
section
/-! SUPPORT. Tests: an ill-formed command for each check of WellFormed, and, for the hypotheses of the statements, states and
operands that meet them. The states are small changes of the state after reset. -/

namespace Sys2Proof.Tests
open Sys2Proof.Machine
set_option Elab.async false

/-! ### Ill-formed commands -/

theorem test_wf_seg : (Instr.sequencerStep 64).wf = false := by decide
theorem test_wf_job : (Instr.holdStep 64).wf = false := by decide
theorem test_wf_cluster : (Instr.add64 4096).wf = false := by decide
theorem test_wf_bp : (Instr.eval 0 64).wf = false := by decide
theorem test_wf_entry : (Instr.istoreWriteback 0 0 1024).wf = false := by decide
theorem test_wf_port_bank : (Instr.bankRead 0 4).wf = false := by decide
theorem test_wf_bank : (Instr.mbEccWriteback 16384).wf = false := by decide
theorem test_wf_word : (Instr.mbDynRead .engine 0 4096 false).wf = false := by decide
theorem test_wf_pc : (Instr.refereeDecision 128).wf = false := by decide
theorem test_wf_lane : (Instr.alignDone 64).wf = false := by decide
theorem test_wf_fn : (Instr.flr 64).wf = false := by decide
theorem test_wf_group : (Instr.mqTagGrant 128).wf = false := by decide
theorem test_wf_slot : (Instr.devTxnBegin .pf 4).wf = false := by decide
theorem test_wf_page : (Instr.softReset .pf 16384).wf = false := by decide
theorem test_wf_die : (Instr.stepclkPllUnlock 4).wf = false := by decide
theorem test_wf_requester_number : (Instr.requestWithdraw 0 24).wf = false := by decide
theorem test_wf_engine : (Instr.engineSelect 32).wf = false := by decide
theorem test_wf_domain : (Instr.domainSwitchOnDone 84).wf = false := by decide
theorem test_wf_pin : (Instr.gpioXbarSelWrite .pf 96 0).wf = false := by decide
theorem test_wf_port : (Instr.d2hTake 0 16).wf = false := by decide
theorem test_wf_addr : (Instr.debugRead 67108864 32).wf = false := by decide
theorem test_wf_source : (Instr.eventRaise 512 0 0 0 []).wf = false := by decide
theorem test_wf_channel : (Instr.timeCapRead .pf 4).wf = false := by decide
theorem test_wf_unit : (Instr.timeCompareFire 8).wf = false := by decide
theorem test_wf_gpio_word : (Instr.gpioSet .pf 3 0).wf = false := by decide
theorem test_wf_lane_group : (Instr.lanePllUnlock 4).wf = false := by decide
theorem test_wf_stack : (Instr.hbmRefreshRateChange 4 0).wf = false := by decide
theorem test_wf_tag : (Instr.mqCompletion 65536 .ok).wf = false := by decide
theorem test_wf_vector : (Instr.msixUnmask 0 8).wf = false := by decide
theorem test_wf_width : (Instr.regWrite .pf 0 24 0).wf = false := by decide
theorem test_wf_vf : (Instr.timeSet (.vf 0)).wf = false := by decide
theorem test_wf_ring : (Instr.devInfo ⟨.host 64, 0, 0, false, true, false⟩).wf = false := by decide
theorem test_wf_index : (Instr.devInfo ⟨.agent, 4294967296, 0, false, true, false⟩).wf = false := by decide

/-! ### States -/

/-- Every domain is on. -/
def up : State := { State.reset with pwr := { on := BitVec.allOnes 84 } }

/-- A job in segment 0. -/
def job : Job := { state := .active, mask := 1, len := 64, image := none }

/-- Job 0 runs in segment 0, in the sequencer state given. -/
def withJob (j : Job) (q : SeqState) : State :=
  { up with jobs := [(0, j)], fab := { seqs := [(0, { state := q, cycLen := 32, execLen := 64, jobLen := 64 })] } }

/-- Job 0 executes programmed steps. -/
def running : State := withJob job .run

/-- A state whose instruction store holds word `w` at step 0 of BP 0 of cluster 0. -/
def withWord (w : Nat) : State :=
  { running with fab := { running.fab with cfg :=
      (Sparse.putBytes (Sparse.putBytes [] (istoreAt 0 0 0).1 (leBytes 12 w)) (istoreAt 0 0 0).2 (leBytes 1 (secdedCheck 96 w))) } }

/-- A state whose control store holds word `w` at step 0 of cluster 0. -/
def withControl (w : Nat) : State :=
  { running with fab := { running.fab with cfg :=
      (Sparse.putBytes (Sparse.putBytes [] (cstoreAt 0 0).1 (leBytes 8 w)) (cstoreAt 0 0).2 (leBytes 1 (secdedCheck 64 w))) } }

/-! ### The Boolean processor, WAU, banks and queues -/

theorem test_nop_executes : (withWord 0).Executes 0 (bpUnit 0 0) 0 ∧ ((withWord 0).bpWord 0 0 0).opc = 0 :=
  ⟨⟨by decide, by decide, by decide, by decide⟩, by decide +kernel⟩
theorem test_eval_executes : (withWord (2 ^ 92)).Executes 0 (bpUnit 0 63) 0 ∧ ((withWord (2 ^ 92)).bpWord 0 0 0).opc = 1 :=
  ⟨⟨by decide, by decide, by decide, by decide⟩, by decide +kernel⟩
theorem test_shift_executes : (withWord (2 * 2 ^ 92)).Executes 0 (bpUnit 0 0) 0 ∧ ((withWord (2 * 2 ^ 92)).bpWord 0 0 0).opc = 2 :=
  ⟨⟨by decide, by decide, by decide, by decide⟩, by decide +kernel⟩
theorem test_load_executes : (withWord (3 * 2 ^ 92)).Executes 0 (bpUnit 0 0) 0 ∧ ((withWord (3 * 2 ^ 92)).bpWord 0 0 0).opc = 3 :=
  ⟨⟨by decide, by decide, by decide, by decide⟩, by decide +kernel⟩

/-- An answer that passes a check is an answer. -/
theorem some_of_any {α : Type} (o : Option α) (p : α → Bool) (h : o.any p = true) : ∃ x, o = some x ∧ p x = true := by
  cases o with
  | none => simp at h
  | some x => exact ⟨x, rfl, by simpa using h⟩

theorem test_wau_issues : ∀ op : Fin 8, op ≠ 0 → (withControl (op.val * 2 ^ 57)).Executes 0 (clUnit 0 op.val) 0 ∧
    ((withControl (op.val * 2 ^ 57)).control 0 0).wauOp = op.val := by
  intro op _
  exact ⟨⟨by decide, by revert op; decide, by revert op; decide, by revert op; decide⟩, by revert op; decide +kernel⟩

/-- An operation of opcode `op` in cluster 0 whose result forms in position 5. -/
def withOp (op : Nat) : State :=
  let s := withJob { job with e := 5 } .run
  { s with fab := { s.fab with pipe := [(0, [⟨op, 0, 6 - wauLatency op, 3, 4, none⟩])] } }
theorem test_wau_results : ∀ op : Fin 4, ∃ o ∈ Sparse.get [] (withOp (op.val + 2)).fab.pipe 0,
    o.op = op.val + 2 ∧ o.res = none ∧ o.pos + wauLatency o.op = ((withOp (op.val + 2)).job 0).e + 1 ∧
    ((withOp (op.val + 2)).seq 0).state = .run ∧ (withOp (op.val + 2)).jobOfSeg 0 = some 0 := by decide

theorem test_bank_read_executes : (withControl (2 ^ 37)).Executes 0 (clUnit 0 13) 0 ∧
    ((withControl (2 ^ 37)).control 0 0).bankOp.getD 0 0 = 1 := ⟨⟨by decide, by decide, by decide, by decide⟩, by decide +kernel⟩
theorem test_bank_write_gather_executes : (withControl (2 * 2 ^ 43)).Executes 0 (clUnit 0 20) 0 ∧
    ((withControl (2 * 2 ^ 43)).control 0 0).bankOp.getD 3 0 = 2 := ⟨⟨by decide, by decide, by decide, by decide⟩, by decide +kernel⟩
theorem test_bank_write_result_executes : (withControl (3 * 2 ^ 37)).Executes 0 (clUnit 0 21) 0 ∧
    ((withControl (3 * 2 ^ 37)).control 0 0).bankOp.getD 0 0 = 3 := ⟨⟨by decide, by decide, by decide, by decide⟩, by decide +kernel⟩
theorem test_wau_port_read_executes : (withControl (6 * 2 ^ 51)).Executes 0 (clUnit 0 12) 0 ∧
    ((withControl (6 * 2 ^ 51)).control 0 0).ldSrc = 6 := ⟨⟨by decide, by decide, by decide, by decide⟩, by decide +kernel⟩
theorem test_wau_load_executes : (withControl (2 ^ 51)).Executes 0 (clUnit 0 0) 0 ∧ ((withControl (2 ^ 51)).control 0 0).ldSrc = 1 ∧
    ((withControl (2 * 2 ^ 51)).control 0 0).ldSrc = 2 ∧ ((withControl (7 * 2 ^ 51)).control 0 0).ldSrc = 7 :=
  ⟨⟨by decide, by decide, by decide, by decide⟩, by decide +kernel, by decide +kernel, by decide +kernel⟩

theorem test_queue_issues_execute : (withControl (2 ^ 35)).Executes 0 (clUnit 0 25) 0 ∧ ((withControl (2 ^ 35)).control 0 0).issueKind = 1 ∧
    ((withControl (2 ^ 36)).control 0 0).issueKind = 2 ∧ ((withControl (2 ^ 35)).mq 0 0).entries.length < 16 :=
  ⟨⟨by decide, by decide, by decide, by decide⟩, by decide +kernel, by decide +kernel, by decide +kernel⟩
theorem test_queue_wait_executes : (withControl (2 ^ 31)).Executes 0 (clUnit 0 27) 0 ∧ ((withControl (2 ^ 31)).control 0 0).waitEn = true :=
  ⟨⟨by decide, by decide, by decide, by decide⟩, by decide +kernel⟩
/-- A read complete in queue 0 of cluster 0. -/
def withReturn : State :=
  let s := withControl (7 * 2 ^ 51)
  let x : MqEntry := ⟨0, false, 0, 0, 0, 0, false, true, .complete, false, [], List.replicate 8 (secded72 5)⟩
  { s with fab := { s.fab with queues := [(0, { entries := [x] })] } }
theorem test_queue_return_executes : withReturn.Executes 0 (clUnit 0 28) 0 ∧ (withReturn.control 0 0).ldSrc = 7 ∧
    ∃ r, withReturn.returnRead 0 0 = some r ∧ (r.2.syn == 0 && !r.2.ue) = true :=
  ⟨⟨by decide, by decide, by decide, by decide⟩, by decide +kernel, some_of_any _ _ (by decide +kernel)⟩

/-! ### The sequencer -/

theorem test_steps_advance : running.jobOfSeg 0 = some 0 ∧ (running.job 0).e + 1 < (running.job 0).len ∧ (running.job 0).holdAt ≠ some 1 ∧
    (running.seq 0).state = .run ∧ ((withJob job .pad).seq 0).state = .pad := by decide
theorem test_hold_step : ((withJob job .hold).seq ((withJob job .hold).job 0).lead).state = .hold ∧ ((withJob job .hold).job 0).state ≠ .free ∧
    ¬(((withJob job .hold).job 0).block = 15 ∧ ((withJob job .hold).job 0).lastBlk = true) := by decide
theorem test_repeat_bodies : ∃ q : Seq, q.stack = [⟨0, 0, [0, 0, 0, 0], 0, []⟩] ∧ (q.desc 0).stop ≠ q.k := ⟨{ k := 5, stack := [⟨0, 0, [0, 0, 0, 0], 0, []⟩] }, by decide⟩
theorem test_repeat_enters : ({ k := 2, rpt := [[2 + 3 * 2 ^ 10 + 2 ^ 20, 1, 0, 0, 0, 0, 0, 0]] } : Seq).descAt = some 0 := by decide
theorem test_repeat_iterates : ∃ q : Seq, q.stack = [⟨0, 0, [0, 0, 0, 0], 0, []⟩] ∧ (q.desc 0).stop = q.k ∧ 0 < (q.desc 0).countM1 :=
  ⟨{ k := 3, rpt := [[2 + 3 * 2 ^ 10 + 2 ^ 20, 1, 0, 0, 0, 0, 0, 0]], stack := [⟨0, 0, [0, 0, 0, 0], 0, []⟩] }, by decide⟩
theorem test_repeat_ends : ∃ q : Seq, q.stack = [⟨0, 1, [0, 0, 0, 0], 0, []⟩] ∧ (q.desc 0).stop = q.k ∧ (q.desc 0).countM1 ≤ 1 :=
  ⟨{ k := 3, rpt := [[2 + 3 * 2 ^ 10 + 2 ^ 20, 1, 0, 0, 0, 0, 0, 0]], stack := [⟨0, 1, [0, 0, 0, 0], 0, []⟩] }, by decide⟩
theorem test_padding : ∃ q : Seq, q.k = q.cycLen ∧ q.stack = [] := ⟨{}, by decide⟩
theorem test_dyn_serves : up.bankStatus 16383 = .ok ∧ up.bankClearing 16383 = false ∧ up.fab.dyn.any (fun x => x.bank == 16383) = false ∧
    up.access = [] ∧ up.fab.mbWb.all (fun x => x.bank != 16383) = true ∧ Sparse.get {} up.fab.dynWait 16383 = {} ∧ up.fabricUse 16383 = none ∧
    up.bankRead 16383 4095 = (⟨(0 : Dword).toNat, 0, false⟩, false) := by decide +kernel
theorem test_dyn_contends : ∀ op : Fin 2, let s := withControl ((op.val * 2 + 1) * 2 ^ 37)
    s.fabricUse 0 = some (op == 1, 0) ∧ s.bankStatus 0 = .ok ∧ s.bankClearing 0 = false ∧ s.access = [] ∧ s.fab.dyn = [] ∧ s.fab.mbWb = [] ∧
    s.fab.dynWait = [] ∧ 0 < s.dynBound ∧ s.bankRead 0 7 = (⟨(0 : Dword).toNat, 0, false⟩, false) ∧
    s.bankRead 0 0 = (⟨(0 : Dword).toNat, 0, false⟩, false) := by decide +kernel
theorem test_mb_writeback : ∃ (s : State) (x : MbWb), s.fab.mbWb.find? (fun y => y.bank == x.bank) = some x ∧ s.bankClearing x.bank = false ∧
    (secdedRead72 (Sparse.get 0 s.fab.mb (x.bank * 4096 + x.word)) 0).ue = false :=
  ⟨{ up with fab := { mbWb := [⟨0, 7⟩] } }, ⟨0, 7⟩, by decide, by decide, by decide +kernel⟩
theorem test_istore_writeback : ∃ (s : State) (x : IstoreWb),
    s.fab.istoreWb.find? (fun y => y.cl == x.cl && y.bp == x.bp && y.entry == x.entry) = some x ∧ x.entry < 1024 ∧
    let r := secdedRead 96 (Sparse.num s.fab.cfg (istoreAt x.cl x.bp x.entry).1 12) (Sparse.num s.fab.cfg (istoreAt x.cl x.bp x.entry).2 1)
    r.ue = false ∧ r.syn ≠ 0 :=
  ⟨{ up with fab := { istoreWb := [⟨0, 1, 2, 3, 0⟩], cfg := [((istoreAt 0 1 2).1, 1)] } }, ⟨0, 1, 2, 3, 0⟩, by decide, by decide, by decide +kernel⟩

/-! ### Register accesses -/

/-- A requester other than the user core is admitted where no rule refuses it and the page is not frozen. -/
theorem admits (s : State) (rq : Requester) (addr : Nat)
    (h : (!s.behind rq && decide (rq ≠ .uc) && (s.accessFault rq addr).isNone && (s.writerFault rq addr).isNone &&
      !(s.page (addr / 0x1000)).frozen) = true) : s.Admits rq addr := by
  simp only [Bool.and_eq_true, decide_eq_true_eq, Option.isNone_iff_eq_none, Bool.not_eq_true'] at h
  exact ⟨⟨h.1.1.1.1, fun e => absurd e h.1.1.1.2, h.1.1.2, h.1.2⟩, h.2⟩

/-- A requester other than the user core reads where no rule refuses it. -/
theorem reads (s : State) (rq : Requester) (addr : Nat)
    (h : (!s.behind rq && decide (rq ≠ .uc) && (s.accessFault rq addr).isNone) = true) : s.Reads rq addr := by
  simp only [Bool.and_eq_true, decide_eq_true_eq, Option.isNone_iff_eq_none, Bool.not_eq_true'] at h
  exact ⟨h.1.1, fun e => absurd e h.1.2, h.2⟩

theorem test_injections_admit : up.Admits .fw (fabcAt 4095 0x58) ∧ up.Admits .fw (fabcAt 0 0x88) ∧ up.Admits .fw (fabcAt 0 0x108) ∧
    up.Admits .fw (fabcAt 0 0x194) ∧ natBits (103 * 2 ^ 16) 22 16 ≤ 103 :=
  ⟨admits _ _ _ (by decide +kernel), admits _ _ _ (by decide +kernel), admits _ _ _ (by decide +kernel), admits _ _ _ (by decide +kernel), by decide⟩
theorem test_register_access : up.Admits .pf (hdr 0 0x14) ∧ up.Reads .pf (fabcAt 0 0x40) ∧ (∀ h ∈ (up.page (pageNo (fabcAt 0 0x40))).holding, h.1 ≠ .pf) ∧
    running.Reads .pf (fabsAt 0 0x50) ∧ up.accessFault .dbg 0x40 = none :=
  ⟨admits _ _ _ (by decide +kernel), reads _ _ _ (by decide +kernel), by decide +kernel, reads _ _ _ (by decide +kernel), by decide +kernel⟩
/-- A posted write of the physical function is in progress. -/
theorem test_behind : ({ up with access := [{ id := hostId, fn := 0, write := true, offset := 0, len := 8 }] } : State).behind .pf = true ∧
    up.behind .pf = false := by decide
/-- The page of referee 127 is frozen, and the two accesses of `xs` wait for it. -/
def frozen (xs : List FrozenWrite) : State := up.setPage 0x9F { up.page 0x9F with frozen := true, waits := xs }
theorem test_frozen : (frozen []).Reaches .fw (refAt 127 0x44) ∧ ((frozen []).page (refAt 127 0x44 / 0x1000)).frozen = true ∧
    (frozen []).txnOf (refAt 127 0x44 / 0x1000) = none :=
  ⟨⟨by decide +kernel, by decide, by decide +kernel, by decide +kernel⟩, by decide +kernel, by decide +kernel⟩
theorem test_user_core_misses : (∃ c, up.accessFault .uc 0x3FFF000 = some c) ∧ up.ucReaches 0x3FFF000 true = false ∧
    (State.reset.setOwner 0x1000 .uc).accessFault .uc (fabsAt 0 0x40) = some 0xE ∧ (State.reset.setOwner 0x1000 .uc).ucReaches (fabsAt 0 0x40) false = true :=
  ⟨⟨0xC, by decide +kernel⟩, by decide +kernel⟩
theorem test_misses : up.accessFault .pf 0x3FFF000 = some 0xC ∧ Requester.pf.hostSpace 0x3FFF000 = false ∧ up.behind .pf = false ∧ State.reset.accessFault .pf (fabsAt 0 0x40) = some 0xE ∧
    State.reset.fld (hdr 0 0x1C) 15 0 = 0 := by decide +kernel
/-- The TIME page with half of its increment written. -/
def halfPair : State := up.setPage 7 { up.page 7 with pairs := [⟨timeAt 0x58, 0xFFFFFFFF, 0, .fw⟩] }
theorem test_pair_open : (halfPair.page 7).pairs = [⟨timeAt 0x58, 0xFFFFFFFF, 0, .fw⟩] ∧ pairGroup (timeAt 0x58) = some 0x58 := by decide +kernel

theorem test_soft_reset : up.Admits .fw (hdr 7 8) ∧ up.txnOf 7 = none ∧ up.theham.waiting = [] := ⟨admits _ _ _ (by decide +kernel), by decide +kernel⟩
theorem test_header_writes : up.Admits .fw (hdr 1 0x10) ∧ up.Admits .fw (hdr 1 0x18) ∧ (2 : Word).getLsbD 0 = false ∧ (1 : Word).getLsbD 0 = true :=
  ⟨admits _ _ _ (by decide +kernel), admits _ _ _ (by decide +kernel), by decide, by decide⟩
theorem test_line_pulse : up.Admits .fw (fabsAt 63 0x1A4) := admits _ _ _ (by decide +kernel)

/-! ### Transactions -/

theorem test_txn_begins : up.Admits .fw (hdr 0x20 0x30) ∧ txnCapable 0x20 = true ∧ (up.page 0x20).txn = .free :=
  ⟨admits _ _ _ (by decide +kernel), by decide, by decide +kernel⟩
/-- A transaction of firmware on the page of referee 0, one write held. -/
def opened : State := up.setPage 0x20 { up.page 0x20 with txn := .opened, opener := .fw, held := [⟨refAt 0 0x40, 7, 5, .fw⟩] }
theorem test_txn_closes : opened.Admits .fw (hdr 0x20 0x30) ∧ (opened.page 0x20).txn = .opened ∧ (opened.page 0x20).opener = .fw ∧
    opened.commitFault (.page 0x20) = none ∧ opened.txnWaits (.page 0x20) = false :=
  ⟨admits _ _ _ (by decide +kernel), by decide +kernel⟩
theorem test_txn_expires : (opened.page 0x20).txn = .opened ∧ opened.fld (hdr 0x20 0x1C) 15 0 = 0 := by decide +kernel
/-- Slot 3 lists the page of referee 0. -/
def listed : State := ((up.setReg (devTxnAt 3 + 0xC) 1).setReg (devTxnAt 3 + 0x40) 0x20).setOwner 0x20 .fw
theorem test_dev_txn_begins : listed.slots.length = 4 ∧ listed.Admits .fw (devTxnAt 3) ∧ listed.slotFault .fw 3 = none :=
  ⟨by decide, admits _ _ _ (by decide +kernel), by decide +kernel⟩
/-- Slot 3 holds that page. -/
def member : State := (listed.setPage 0x20 { listed.page 0x20 with txn := .member, slot := some 3 }).setSlot 3
  { state := .opened, opener := .fw, pages := [0x20] }
theorem test_dev_txn_closes : member.slots.length = 4 ∧ member.Admits .fw (devTxnAt 3) ∧ (member.slotAt 3).state = .opened ∧
    (member.slotAt 3).opener = .fw ∧ member.commitFault (.slot 3) = none ∧ member.txnWaits (.slot 3) = false :=
  ⟨by decide, admits _ _ _ (by decide +kernel), by decide +kernel⟩
/-- A transaction on a cluster's page. -/
def heldWrite : State := up.setPage 0x2000 { up.page 0x2000 with txn := .opened, held := [⟨fabcAt 0 0x58, 1, 1, .fw⟩] }
theorem test_txn_applies : ∃ (page : Nat) (w : HeldWrite), (heldWrite.page page).held = [w] ∧ heldWrite.badWrites page [w] = [] ∧ 0x1000 ≤ pageNo w.addr :=
  ⟨0x2000, ⟨fabcAt 0 0x58, 1, 1, .fw⟩, by decide +kernel⟩

/-! ### Time -/

/-- The TIME page is enabled. -/
def timed : State := up.setReg (hdr 7 8) 1
theorem test_time_ticks : timed.timeRuns = true ∧ (timed.page 7).shadow = [] ∧ timed.time.setTo = none := by decide +kernel
theorem test_time_loads : ∃ s : State, s.timeRuns = true ∧ (s.page 7).shadow = [] ∧ s.time.setTo = some (5, 999999999) :=
  ⟨{ timed with time := { setTo := some (5, 999999999) } }, by decide +kernel⟩
theorem test_time_commands : timed.Admits .fw (timeAt 0x60) ∧ (timed.setFlag (timeAt 0x64) 0 false).flag (timeAt 0x64) 0 = false ∧
    (timed.setFlag (timeAt 0x64) 0 true).Admits .fw (timeAt 0x60) ∧ (timed.setFlag (timeAt 0x64) 0 true).flag (timeAt 0x64) 0 = true ∧
    timed.Reads .pf (timeAt 0x40) ∧ (∀ h ∈ (timed.page 7).holding, h.1 ≠ .pf) :=
  ⟨admits _ _ _ (by decide +kernel), by decide +kernel, admits _ _ _ (by decide +kernel), by decide +kernel, reads _ _ _ (by decide +kernel), by decide +kernel⟩
theorem test_time_compare : ∃ s : State, s.timeRuns = true ∧ s.flag (timeAt 0x10C) 0 = true ∧
    (s.flat + 2 ^ 64 - s.reg64 (timeAt 0x100)) % 2 ^ 64 < 2 ^ 63 :=
  ⟨timed.setFlag (timeAt 0x10C) 0 true, by decide +kernel⟩
theorem test_time_capture : ∃ s : State, s.timeRuns = true ∧ (s.fld (timeAt 0x230) 1 0).testBit 0 = true ∧ s.flag (timeAt 0x230) 2 = false ∧
    (s.setFlag (timeAt 0x230) 2 true).flag (timeAt 0x230) 2 = true ∧ s.time.ptp = none ∧ s.Reads .pf (timeAt 0x23C) :=
  ⟨timed.setFld (timeAt 0x230) 1 0 1, by decide +kernel, by decide +kernel, by decide +kernel, by decide +kernel, by decide +kernel, reads _ _ _ (by decide +kernel)⟩

/-! ### Debug, trace, pins and power -/

theorem test_auth : up.Admits .fw (dbgAt 0x100) ∧ up.fld (dbgAt 0x44) 11 8 < 8 ∧ 8 ≤ (up.setFld (dbgAt 0x44) 11 8 8).fld (dbgAt 0x44) 11 8 ∧
    (up.setFld (dbgAt 0x44) 11 8 8).Admits .fw (dbgAt 0x100) ∧ up.flag (dbgAt 0x104) 1 = false :=
  ⟨admits _ _ _ (by decide +kernel), by decide +kernel, by decide +kernel, admits _ _ _ (by decide +kernel), by decide +kernel⟩
theorem test_package_resume : ∃ s : State, s.Admits .fw (dbgAt 0x48) ∧ s.flag whistleReg 0 = false ∧ s.pkgHalt = true ∧ s.anyLive = false :=
  ⟨{ up with pkgHalt := true }, admits _ _ _ (by decide +kernel), by decide +kernel⟩
theorem test_nothing_waits : ∀ p ∈ freezePages, (up.page p).waits = [] := by decide +kernel
theorem test_thaws : ((frozen [.word .fw (refAt 127 0x54) 0x800000 false]).page (0x20 + 127)).frozen = true ∧
    ((frozen [.word .fw (refAt 127 0x54) 0x800000 false]).page (0x20 + 127)).waits = [.word .fw (refAt 127 0x54) 0x800000 false] ∧
    (0x800000 : Word).getLsbD 23 = true := by decide +kernel
theorem test_package_resume_blocked : ∃ s : State, s.Admits .fw (dbgAt 0x48) ∧ s.flag whistleReg 0 = true :=
  ⟨up.setFlag whistleReg 0 true, admits _ _ _ (by decide +kernel), by decide +kernel⟩
theorem test_whistle_clear : ∃ s : State, s.Admits .pf (PageKind.dev.at 0xA04) ∧ s.flag whistleReg 5 = false ∧ s.flag (PageKind.clk.at 0x44) 4 = true :=
  ⟨up.setFlag (PageKind.clk.at 0x44) 4 true, admits _ _ _ (by decide +kernel), by decide +kernel⟩

/-- A debug-enabled user core. -/
def debugged : State := (up.setFlag (dbgAt 0x54) 4 true).setFld (dbgAt 0x50) 31 2 1
theorem test_debug_events : debugged.takesDebugEvent = true ∧ debugged.domainOn 82 = true ∧ debugged.Admits .fw (dbgAt 0x58) ∧ debugged.flag (dbgAt 0x54) 4 = true :=
  ⟨by decide +kernel, by decide +kernel, admits _ _ _ (by decide +kernel), by decide +kernel⟩
/-- Instruction comparator 3 is at address 0, data comparator 1 takes stores at address 0. -/
def compared : State := (debugged.setFlag (dbgAt (0x80 + 8 * 3)) 0 true).setFld (dbgAt (0xA4 + 8)) 2 0 5
theorem test_debug_comparators : compared.takesDebugEvent = true ∧ compared.flag (dbgAt (0x80 + 8 * 3)) 0 = true ∧
    compared.fld (dbgAt (0x80 + 8 * 3)) 31 1 = (0 : Word).toNat / 2 ∧ compared.fld (dbgAt (0x80 + 8 * 3)) 31 1 ≠ (4 : Word).toNat / 2 ∧
    compared.flag (dbgAt (0xA4 + 8)) 0 = true ∧ compared.flag (dbgAt (0xA4 + 8)) 2 = true ∧ compared.domainOn 82 = true ∧
    (0 : Word).toNat / 2 ^ compared.fld (dbgAt (0xA4 + 8)) 7 3 = (compared.reg (dbgAt (0xA0 + 8))).toNat / 2 ^ compared.fld (dbgAt (0xA4 + 8)) 7 3 ∧
    (compared.setFlag (dbgAt (0xA4 + 8)) 1 true).flag (dbgAt (0xA4 + 8)) 1 = true := by decide +kernel
theorem test_debug_step : ∃ s : State, s.takesDebugEvent = true ∧ s.dbg.step = true :=
  ⟨{ debugged with dbg := { debugged.dbg with step := true } }, by decide +kernel⟩
theorem test_debug_missed : ∃ s : State, s.takesDebugEvent = false ∧ s.domainOn 82 = true ∧ s.flag (dbgAt 0x54) 4 = true := ⟨up.setFlag (dbgAt 0x54) 4 true, by decide +kernel⟩
theorem test_debug_exit : ∃ s : State, s.inMonitor = true := ⟨up.setFlag (dbgAt 0x44) 3 true, by decide +kernel⟩
theorem test_messages : up.domainOn 82 = true ∧ up.dbg.tx.length < 4 ∧ up.Admits .fw (dbgAt 0xC4) ∧ up.Admits .pf (dbgAt 0xC8) ∧ up.Reads .dbg (dbgAt 0xC0) ∧
    (∀ h ∈ (up.page 0xA).holding, h.1 ≠ .dbg) :=
  ⟨by decide +kernel, by decide, admits _ _ _ (by decide +kernel), admits _ _ _ (by decide +kernel), reads _ _ _ (by decide +kernel), by decide +kernel⟩
theorem test_messages_full : ∃ s : State, 4 ≤ s.dbg.tx.length ∧ 4 ≤ s.dbg.rx.length ∧ s.Admits .fw (dbgAt 0xC4) :=
  ⟨{ up with dbg := { tx := [1, 2, 3, 4], rx := [1, 2, 3, 4] } }, by decide, by decide, admits _ _ _ (by decide +kernel)⟩

/-- The trace encoder runs. -/
def traced : State := up.setFld (traceAt 0x68) 1 0 1
theorem test_trace_starts : up.Admits .fw (traceAt 0x40) ∧ up.traceState = 0 ∧ up.fld (traceAt 0x44) 5 4 ≠ 3 :=
  ⟨admits _ _ _ (by decide +kernel), by decide +kernel⟩
theorem test_trace_stops : traced.Admits .fw (traceAt 0x40) ∧ traced.traceState = 1 := ⟨admits _ _ _ (by decide +kernel), by decide +kernel⟩
theorem test_trace_triggers : traced.traceState = 1 ∧ traced.flag (traceAt 0x4C) 3 = false ∧ traced.flag (traceAt 0x48) 31 = false ∧
    (traced.setFlag (traceAt 0x48) 31 true).flag (traceAt 0x48) 31 = true ∧ traced.trace.branch = [] ∧ traced.flag (traceAt 0x44) 2 = false ∧
    traced.trace.fifo.length < 4096 ∧ traced.trace.idle < 8 := by decide +kernel
theorem test_trace_window : ∃ s : State, s.traceState = 2 ∧ s.trace.window = 0 := ⟨up.setFld (traceAt 0x68) 1 0 2, by decide +kernel⟩
theorem test_trace_full : ∃ s : State, s.tracing = true ∧ s.traceFull = true := ⟨((traced.setFld (traceAt 0x44) 5 4 3).setFlag (traceAt 0x44) 6 false).setFld (traceAt 0x64) 15 0 0, by decide +kernel⟩
theorem test_trace_branch : ∃ (s : State) (r : Retired), s.traceState = 1 ∧ s.trace.fifo = [] ∧ s.trace.lost = 0 ∧ s.flag (traceAt 0x44) 0 = true ∧
    s.flag (traceAt 0x44) 3 = false ∧ s.flag (traceAt 0x44) 7 = false ∧ s.trace.bytes < 256 ∧ s.trace.branch.length < 6 ∧ s.dbg.deferred = 0 ∧
    s.domainOn 82 = true ∧ r.mem = none ∧ r.target = none ∧ r.trap = none ∧ r.branch = some true :=
  ⟨traced.setFlag (traceAt 0x44) 0 true, { pc := 0, mode := 0, branch := some true, target := none, trap := none, mem := none, cycles := 1 }, by decide +kernel⟩

theorem test_pins : up.Admits .pf (gpioAt 0x68) ∧ up.Admits .fw (xbarAt 91) ∧ up.flag (xbarAt 91) 16 = false ∧ signalDir 0 ≠ .input ∧
    [0, 2, 3, 5].contains (up.fld (xbarAt 91) 10 8) = true :=
  ⟨admits _ _ _ (by decide +kernel), admits _ _ _ (by decide +kernel), by decide +kernel⟩
theorem test_power_request : up.Admits .fw (PageKind.pwr.at 0x60) ∧ up.pwr.queue = [] ∧ up.jobOfSeg 63 = none ∧ up.pwr.busy.any (fun b => b.pd == 63) = false ∧
    (BitVec.ofNat 32 (63 + 2 ^ 31)).getLsbD 31 = true := ⟨admits _ _ _ (by decide +kernel), by decide +kernel⟩
theorem test_switch_on : ∃ s : State, s.pwr.busy = [⟨77, 1, none⟩] ∧ s.pwr.queue = [] ∧ s.domainOn 77 = false ∧ s.theham.waiting = [] ∧
    ∀ p ∈ domainPages 77, s.txnOf p = none := ⟨{ State.reset with pwr := { on := 0, busy := [⟨77, 1, none⟩] } }, by decide +kernel⟩
theorem test_switch_off : ∀ op : Fin 3, op ≠ 1 → ∃ s : State, s.pwr.busy = [⟨63, op, none⟩] ∧ s.pwr.queue = [] ∧ s.domainOn 63 = true ∧
    s.theham.waiting = [] ∧ ∀ p ∈ domainPages 63, s.txnOf p = none :=
  fun op _ => ⟨{ up with pwr := { up.pwr with busy := [⟨63, op, none⟩] } }, rfl, rfl, (show up.domainOn 63 = true by decide +kernel), rfl,
    (show ∀ p ∈ domainPages 63, up.txnOf p = none by decide +kernel)⟩

/-! ### Resets, clocks and links -/

theorem test_no_live_job (j : Nat) : (up.job j).live = false := rfl
theorem test_rst_key : up.Admits .fw (PageKind.rst.at 0x44) := admits _ _ _ (by decide +kernel)
theorem test_die_without_jobs : ∀ j, (up.job j).live = true ∨ (up.job j).state = .destroying → ∀ g, g < 64 → (up.job j).mask.getLsbD g = true → dieOf g ≠ 3 :=
  fun j h => h.elim (fun h => absurd ((test_no_live_job j).symm.trans h) (by decide)) (fun h => nomatch h)
/-- Job 0 starts in segment 0. -/
def starting : State := withJob { job with state := .starting } .idle
theorem test_die_with_job : ∃ g, g < 64 ∧ (starting.job 0).mask.getLsbD g = true ∧ dieOf g = 0 ∧ (starting.job 0).state = .starting ∧
    (starting.job 0).haltedBy = none ∧ ∀ i, i ≠ 0 → (starting.job i).live = false ∧ (starting.job i).state ≠ .destroying := by
  refine ⟨0, by decide, by decide, by decide, by decide, by decide, fun i h => ?_⟩
  have : starting.job i = {} := by simp [starting, withJob, State.job, Sparse.get, h]
  rw [this]; decide
theorem test_hub_unlocked : (up.setFlag (PageKind.clk.at 0x44) 4 false).flag (PageKind.clk.at 0x44) 4 = false := by decide +kernel
theorem test_clk_step : up.Admits .fw (PageKind.clk.at 0x40) ∧ up.txnOf 2 = none ∧ up.anyLive = false ∧ up.fld (PageKind.clk.at 0x40) 9 0 ≠ 200 ∧
    running.Admits .fw (PageKind.clk.at 0x40) ∧ running.anyLive = true :=
  ⟨admits _ _ _ (by decide +kernel), by decide +kernel, by decide, by decide +kernel, admits _ _ _ (by decide +kernel), by decide⟩
theorem test_link_of_job : (running.job 0).state = .active ∧ ∃ g, g < 64 ∧ (running.job 0).mask.getLsbD g = true ∧
    (linkDies (.hub 0)).contains (dieOf g) = true := ⟨rfl, 0, by decide⟩
theorem test_boot_without_directory : ∃ s : State, s.theham.toBoot = [] ∧ Sparse.get none s.theham.parts 0 = some [] ∧
    Sparse.get none s.theham.parts 1 = some [] ∧ s.flag whistleReg 5 = false :=
  ⟨{ up with theham := { up.theham with parts := [(0, some []), (1, some [])] } }, by decide +kernel⟩

/-! ### Halts, holds, queues, referees and HBM -/

theorem test_halt : ∃ s : State, (s.job 0).haltReq = some .command ∧ (s.job 0).state = .active ∧ (∀ w ∈ s.theham.waiting, w.job ≠ 0) ∧
    (s.job 0).mask.getLsbD 0 = true ∧ (s.seq 0).state = .run := ⟨withJob { job with haltReq := some .command } .run, by decide⟩
theorem test_hold_timeout : ∃ s : State, (s.seq (s.job 0).lead).state = .hold ∧ 65536 ≤ (s.job 0).blocks ∧ (s.job 0).timeoutUp = false :=
  ⟨withJob { job with blocks := 65536 } .hold, by decide⟩
theorem test_bulk_clear : ∃ s : State, (s.job 0).state = .starting ∧ s.fab.clearing &&& (s.job 0).mask ≠ 0 :=
  ⟨{ starting with fab := { starting.fab with clearing := 1 } }, by decide⟩

/-- A queue entry of queue 0 of cluster 0 in the state given, at window address 512. -/
def entry (write : Bool) (st : ReqState) : MqEntry := ⟨0, write, 0, 0, 0, 512, false, false, st, false, List.replicate 64 1, []⟩
/-- That queue holds one entry, and pseudo-channel 8 is in service. -/
def queued (write : Bool) (st : ReqState) : State :=
  let s := { running with fab := { running.fab with queues := [(0, { entries := [entry write st] })] } }
  s
theorem test_tag_grant : (queued false .waitTag).oldestWaiting 0 = some (0, entry false .waitTag) ∧ (queued false .waitTag).freeTag 0 = some 0 := by decide +kernel
/-- The same with every domain off. -/
def dark (s : State) : State := { s with pwr := { on := 0 } }
theorem test_completion_off : (dark (queued true (.out 0))).tagEntry 0 = some (0, entry true (.out 0)) ∧
    (dark (queued true (.out 0))).hbmOff (entryPlace 0 (entry true (.out 0))).1 = true := by decide +kernel
/-- The request of that entry in its referee's controller. -/
def atControl : State :=
  let s := queued true (.out 0)
  s.setRef 8 { state := .arb, ctl := [(0, ⟨0, true, List.replicate 64 1, 1, 0⟩)] }
theorem test_completion : atControl.tagEntry 0 = some (0, entry true (.out 0)) ∧ (entryPlace 0 (entry true (.out 0))).1 = 8 ∧
    atControl.hbmOff 8 = false ∧
    atControl.rmwOpen 8 0 = false ∧ (atControl.ref 8).ctl.find? (fun c => c.1 == keyCluster 0 / 32 % 16) = some (0, ⟨0, true, List.replicate 64 1, 1, 0⟩) := by decide +kernel
/-- A head held for the undo log, with one checkpoint. -/
def record : CkptRec := ⟨0, [], [], [], 0, false, [], true, 0, 0, []⟩
/-- A waiting request. -/
def pend (id : Nat) (held : Bool) : RefPend := ⟨⟨0, true, List.replicate 64 1, 1, id⟩, 0, 0, 0, false, held⟩
/-- That entry is held for the undo log. -/
def undoing : State :=
  let s := { queued true (.out 0) with jobs := [(0, { job with prot := { state := .armed, retained := [record] } })] }
  s.setRef 8 { state := .arb, fifos := [(0, [pend 0 true])] }
theorem test_undo : (undoing.ref 8).fifo 0 = [pend 0 true] ∧ undoing.tagEntry 0 = some (0, entry true (.out 0)) ∧
    undoing.jobOfSeg (keyCluster 0 / 64) = some 0 ∧ (undoing.job 0).prot.retained = [record] := by decide +kernel

theorem test_hub_request_arrives : ((up.ref 127).fifo 21).length < 8 := by decide +kernel
theorem test_capture_line_arrives : ∃ s : State, ((s.ref 127).fifo 16).length < 8 ∧ s.cap.stage = [(127 * 512, [1])] ∧ pcOf (127 * 512) = 127 :=
  ⟨{ up with cap := { stage := [(127 * 512, [1])] } }, by decide +kernel⟩
theorem test_queue_request_arrives : ((queued true (.out 0)).ref 8).fifo 0 = [] ∧
    (queued true (.out 0)).tagEntry 0 = some (0, entry true (.out 0)) ∧ (entry true (.out 0)).arrived = false ∧
    (entryPlace 0 (entry true (.out 0))).1 = 8 ∧ keyCluster 0 / 32 = 16 * (8 % 8) + 0 ∧
    (queued true (.out 0)).inOrder 0 (entry true (.out 0)) (fun y => match y.state with | .out _ => !y.arrived | _ => false) = true ∧
    (queued true (.out 0)).heldForUndo (keyCluster 0 / 64) 8 (entryPlace 0 (entry true (.out 0))).2 = false := by decide +kernel
/-- Two heads at referee 0. -/
def contended : State := up.setRef 0 { state := .arb, fifos := [(17, [pend 0 false]), (18, [pend 1 false])] }
theorem test_decision : contended.access = [] ∧ (contended.ref 0).state = .arb ∧ (contended.ref 0).granted = none ∧ (contended.ref 0).ctl.length < 16 ∧
    (17, pend 0 false) ∈ (contended.ref 0).heads ∧
    (∀ g ∈ (contended.ref 0).heads, g.1 ≠ 17 → contended.outranks 0 (17, pend 0 false) g = true) := by decide +kernel
theorem test_grant_moves : ∃ s : State, s.access = [] ∧ (s.ref 127).granted = some 17 ∧ (s.ref 127).fifo 17 = [pend 0 false] ∧ (s.ref 127).state = .arb :=
  ⟨up.setRef 127 { state := .arb, granted := some 17, fifos := [(17, [pend 0 false])] }, by decide +kernel⟩
theorem test_withdraw : (contended.ref 0).fifo 18 = [pend 1 false] ∧ (contended.ref 0).granted ≠ some 18 := by decide +kernel
theorem test_ref_counters : up.Admits .fw (refAt 127 0x54) := admits _ _ _ (by decide +kernel)
theorem test_hub_completes : ∃ s : State, s.nextHub 127 = some (17, ⟨0, true, [], 1, 0⟩) ∧ (17, (⟨0, true, [], 1, 0⟩ : RefReq)) ∈ (s.ref 127).ctl ∧
    (0 : Nat) < hostId ∧ s.hbmOff 127 = false :=
  ⟨up.setRef 127 { state := .arb, ctl := [(17, ⟨0, true, [], 1, 0⟩)] }, by decide +kernel⟩
theorem test_hub_off : ∃ s : State, s.nextHub 127 = some (17, (pend 0 false).req) ∧ s.hbmOff 127 = true ∧ (pend 0 false).req.id < hostId :=
  ⟨dark (up.setRef 127 { state := .arb, fifos := [(17, [pend 0 false])] }), by decide +kernel⟩
theorem test_hbm_addresses : (0x17FFFFFFFF : Nat) < 0x1800000000 ∧ windowPc 7 0 = windowPc 7 0x2000 ∧ windowOffset 0 ≠ windowOffset 0x2000 := by decide

/-! ### The scrubber -/

theorem test_sweep_starts : ∃ s : State, s.scrubs = true ∧ s.flag (scrubAt 0x44) 0 = false ∧ (s.page 0x130).shadow = [] ∧ { s with scrub := { s.scrub with skip := 0 } }.sweepFrom 0 = none :=
  ⟨up.setReg (hdr 0x130 8) 1, by decide +kernel⟩
theorem test_sweep_due : ∃ s : State, s.scrubs = true ∧ s.flag (scrubAt 0x44) 0 = true ∧ s.flag (scrubAt 0x44) 1 = false :=
  ⟨(up.setReg (hdr 0x130 8) 1).setFlag (scrubAt 0x44) 0 true, by decide +kernel⟩
/-- A sweep has begun at segment 0 of job 0. -/
def sweeping : State := (running.setReg (hdr 0x130 8) 1).setFlag (scrubAt 0x44) 0 true
theorem test_piece : sweeping.scrubs = true ∧ sweeping.flag (scrubAt 0x44) 0 = true ∧ sweeping.swept 0 = true ∧ sweeping.jobOfSeg 0 = some 0 ∧
    sweeping.reg (scrubAt 0x4C) = BitVec.ofNat 32 (scrubPos 0 0 0 0) ∧ sweeping.nextPiece 0 0 0 0 = some (scrubPos 0 0 0 1) := by decide +kernel
/-- A byte of the piece differs from the verified copy. -/
def worn : State := { sweeping with fab := { sweeping.fab with cfg := [(cfgBase 0 + storeBase 0 + 1023, 1)] } }
theorem test_piece_differs : worn.scrubs = true ∧ worn.flag (scrubAt 0x44) 0 = true ∧ worn.swept 0 = true ∧ worn.jobOfSeg 0 = some 0 ∧
    worn.reg (scrubAt 0x4C) = BitVec.ofNat 32 (scrubPos 0 0 0 0) ∧
    Sparse.bytes worn.fab.cfg (cfgBase 0 + storeBase 0) 1024 ≠ Sparse.bytes worn.fab.copy (cfgBase 0 + storeBase 0) 1024 := by decide +kernel
theorem test_patrol : ∃ s : State, s.scrubs = true ∧ s.reg (scrubAt 0x60) = BitVec.ofNat 32 (16383 + 4095 * 2 ^ 14) ∧ s.bankStatus 16383 = .ok ∧
    s.bankClearing 16383 = false ∧ s.fab.mbWb = [] ∧ s.fab.dyn = [] ∧ s.bankRead 16383 4095 = (⟨(0 : Dword).toNat, 0, false⟩, false) :=
  ⟨(up.setReg (hdr 0x130 8) 1).setReg (scrubAt 0x60) (BitVec.ofNat 32 (16383 + 4095 * 2 ^ 14)), by decide +kernel⟩
theorem test_patrol_contends : let s := ((withControl (3 * 2 ^ 37)).setReg (hdr 0x130 8) 1).setReg (scrubAt 0x60) (BitVec.ofNat 32 (0 + 7 * 2 ^ 14))
    s.scrubs = true ∧ s.fabricUse 0 = some (true, 0) ∧ s.bankStatus 0 = .ok ∧ s.bankClearing 0 = false ∧ s.fab.mbWb = [] ∧ s.fab.dyn = [] ∧
    s.bankRead 0 7 = (⟨(0 : Dword).toNat, 0, false⟩, false) := by decide +kernel
theorem test_signature_fails : ∃ s : State, s.fwUp = true ∧ (s.page 0x130).frozen = false ∧ s.flag (scrubAt 0x44) 2 = true ∧ s.txnOf 0x130 = none :=
  ⟨(up.setFlag (scrubAt 0x44) 2 true).setFlag (clkAt 0x44) 4 true, by decide +kernel⟩
theorem test_signature_holds : ∃ s : State, s.fwUp = true ∧ (s.page 0x130).frozen = false ∧ s.flag (scrubAt 0x44) 2 = false ∧ s.scrub.damage = [] ∧
    s.flag (scrubAt 0x44) 0 = false := ⟨up.setFlag (clkAt 0x44) 4 true, by decide +kernel⟩
theorem test_copies_vote : up.domainOn 76 = true ∧ up.flag (scrubAt 0x44) 2 = false ∧ up.scrub.copies 5 = [0, 0, 0] := by decide +kernel

/-! ### Checkpoints and rollback -/

/-- The firmware cores run. -/
def working (s : State) : State := s.setFlag (clkAt 0x44) 4 true
/-- Job 0 with protection. -/
def armed : Job := { job with prot := { state := .armed, retained := [record] } }
/-- A word of an empty bank reads clean where no injection is armed. -/
theorem clean_read (s : State) (bank w : Nat) (h : s.fab.mb = []) (hf : natBit (s.reg (fabcAt (bank / 4) 0x194)).toNat 31 = false) :
    s.bankRead bank w = (⟨0, 0, false⟩, false) := by
  have hi : ∀ p, s.injected (bank / 4) 0x194 72 20 14 21 p = 0 := fun p => by simp [State.injected, hf]
  simp only [State.bankRead, hi, h]
  exact (by decide +kernel : (secdedRead72 (Sparse.get 0 [] 0) 0, (0 : Nat) != 0) = (⟨0, 0, false⟩, false))
/-- A job whose checkpoint is being copied. -/
def copying : State := withJob { job with prot := { state := .copying } } .pause
theorem test_copy_ends : (copying.job 0).prot.state = .copying ∧ (copying.seq (copying.job 0).lead).state = .pause ∧ (copying.job 0).ue = false ∧
    copying.fab.dyn = [] ∧ copying.fab.mbWb = [] ∧ Sparse.wf 0 copying.fab.mb = true ∧
    ∀ bank w, bank < 16384 → w < 4096 → (copying.job 0).mask.getLsbD (bank / 256) = true →
      (copying.bankRead bank w).2 = false ∧ (copying.bankRead bank w).1.syn = 0 ∧ (copying.bankRead bank w).1.ue = false := by
  refine ⟨by decide, by decide, by decide, by decide, by decide, by decide, fun bank w hb _ hm => ?_⟩
  have h0 : ∀ i : Fin 64, (copying.job 0).mask.getLsbD i.val = true → i.val = 0 := by decide
  have hs := h0 ⟨bank / 256, by omega⟩ hm
  have hc : ∀ i : Fin 64, natBit (copying.reg (fabcAt i.val 0x194)).toNat 31 = false := by decide +kernel
  rw [clean_read copying bank w rfl (hc ⟨bank / 4, by simp only at hs; omega⟩)]
  exact ⟨rfl, rfl, rfl⟩
theorem test_retires : ∃ s : State, s.fwUp = true ∧ (s.job 0).prot.retained = [] ++ record :: [{ record with m := 9, ns := 4096000001 }] ∧
    4096000000 < signedOf 64 (unsignedOf 64 ((s.flat : Int) - record.ns)) ∧
    signedOf 64 (unsignedOf 64 ((s.flat : Int) - 4096000001)) ≤ 4096000000 :=
  ⟨working { withJob { job with prot := { state := .armed, retained := [record, { record with m := 9, ns := 4096000001 }] } } .run with
      time := { now := ⟨4, 96000001, 0⟩ } }, by decide +kernel⟩
theorem test_log_fills : ((withJob armed .run).job 0).prot.state ≠ .off ∧ ((withJob armed .run).job 0).prot.state ≠ .failed ∧
    ((withJob armed .run).job 0).prot.retained = record :: [] ∧ (working (withJob armed .run)).fwUp = true := by decide +kernel
/-- Lane 0 is bound to job 0 with a peer behind it. -/
def peered (j : Job) : State :=
  ((withJob j .run).setFld (laneAt 0 0x50) 31 0 (2 ^ 31)).setLane 0 { state := .operational }
theorem test_announces : ((peered armed).job 0).prot.requested = none ∧ ((peered armed).job 0).prot.replay = none ∧ (peered armed).peerLanes 0 ≠ [] ∧ (working (peered armed)).fwUp = true := by decide +kernel
theorem test_compares : ∃ s : State, (s.job 0).cmpDue = some (5, 1, 2) ∧ (1 : BitVec 64) ≠ 2 := ⟨withJob { job with cmpDue := some (5, 1, 2) } .run, by decide⟩
theorem test_compares_equal : ∃ s : State, (s.job 0).cmpDue = some (5, 1, 1) := ⟨withJob { job with cmpDue := some (5, 1, 1) } .run, by decide⟩

/-- A class 1 fault of job 0. -/
def fault : FaultRec := { code := 0x0386, phase := 4, cls := 1, job := 0 }
theorem test_fault_unprotected : ∃ s : State, s.fwUp = true ∧ (s.job 0).prot.recent = none ∧ (s.job 0).faults = [fault] ∧ (s.job 0).live = true ∧ (s.job 0).reload = none ∧ (s.job 0).prot.state = .off :=
  ⟨working (withJob { job with faults := [fault] } .run), by decide +kernel⟩
theorem test_fault_protected : ∃ s : State, s.fwUp = true ∧ (s.job 0).prot.recent = none ∧ (s.job 0).faults = [fault] ∧ (s.job 0).live = true ∧ (s.job 0).reload = none ∧
    (s.job 0).prot.state = .armed ∧ (s.job 0).prot.replay = none ∧ (s.job 0).target fault.m = some 0 :=
  ⟨working (withJob { armed with faults := [fault] } .run), by decide +kernel⟩
theorem test_fault_without_target : ∃ s : State, s.fwUp = true ∧ (s.job 0).prot.recent = none ∧ (s.job 0).faults = [fault] ∧ (s.job 0).live = true ∧ (s.job 0).reload = none ∧
    (s.job 0).prot.state = .armed ∧ (s.job 0).prot.replay = none ∧ (s.job 0).target fault.m = none :=
  ⟨working (withJob { job with prot := { state := .armed }, faults := [fault] } .run), by decide +kernel⟩
/-- An image with one block. -/
def image : Image :=
  { place := ⟨false, 0, 0⟩, len := 4096, tool := 0, keySlot := 0, digest := 0, sig := [], shift := false, jobLen := 64, mask := 1,
    blocks := [⟨1, 0, 0, 0, 0, 0, 0, ⟨false, 0, 0⟩⟩], lanes := [], lines := [], needs := [], probes := [], xact := [] }
theorem test_fault_of_a_piece : ∃ (s : State) (f : FaultRec), s.fwUp = true ∧ (s.job 0).faults = [f] ∧ f.cls = 2 ∧ f.code = 0x0387 ∧ f.w7.testBit 0 = true ∧
    (s.pieceOf 0 f).isSome = true :=
  ⟨working (withJob { job with image := some image, faults := [{ code := 0x0387, phase := 4, cls := 2, job := 0, w7 := 1 }] } .run),
    { code := 0x0387, phase := 4, cls := 2, job := 0, w7 := 1 }, by decide +kernel⟩
/-- A rollback to design cycle 0. -/
def replay (restored : Bool) : Replay := ⟨0, 7, fault, false, restored, false⟩
/-- A job in that rollback. -/
def rolling (restored : Bool) : Job := { armed with prot := { armed.prot with state := .rollback, replay := some (replay restored) } }
theorem test_rollback_starts : ∃ s : State, s.fwUp = true ∧ (s.job 0).reload = none ∧ (s.job 0).prot.state = .rollback ∧ (s.job 0).prot.replay = some (replay false) ∧ s.standing 0 = true ∧
    s.stepLocked 0 = true ∧ ∀ f ∈ (s.job 0).faults, 2 < f.cls :=
  ⟨working ((withJob (rolling false) .halted).setFld (clkAt 0x44) 3 0 15), by decide +kernel⟩
theorem test_restores : ∃ s : State, s.fwUp = true ∧ (s.job 0).reload = none ∧ (s.job 0).prot.state = .rollback ∧ (s.job 0).prot.replay = some (replay true) ∧
    (segsOf (s.job 0).mask).any s.segDown = false ∧ (s.job 0).windows.all (fun w => s.octantOk w.1) = true ∧
    (s.job 0).prot.retained.find? (fun k => k.m == (replay true).mC) = some record ∧ Sparse.wf false record.ds = true ∧
    (s.job 0).prot.retained.filter (fun k => decide (k.m < record.m)) = [] := ⟨working (withJob (rolling true) .halted), by decide +kernel⟩
theorem test_restores_older : ∃ s : State, s.fwUp = true ∧ (s.job 0).reload = none ∧ (s.job 0).prot.state = .rollback ∧ (s.job 0).prot.replay = some { replay true with mC := 7 } ∧
    (segsOf (s.job 0).mask).any s.segDown = false ∧ (s.job 0).windows.all (fun w => s.octantOk w.1) = true ∧
    (s.job 0).prot.retained.find? (fun k => k.m == 7) = some { record with m := 7 } ∧
    ((s.job 0).prot.retained.filter (fun k => decide (k.m < 7))).getLast? = some record :=
  ⟨working (withJob { job with prot := { state := .rollback, retained := [record, { record with m := 7 }], replay := some { replay true with mC := 7 } } } .halted),
    by decide +kernel⟩
theorem test_marker : (peered armed).laneJob 0 = some 0 ∧ ((peered armed).job 0).live = true ∧ ((peered armed).job 0).prot.recent = none ∧ 0 ∈ (peered armed).peerLanes 0 ∧ ((peered armed).lane 0).state = .operational ∧
    (∀ k ∈ (peered armed).peerLanes 0, ((peered armed).lane k).markerSeen ≠ some (0, 1)) ∧ ((peered armed).job 0).prot.unlogged = false ∧
    ((peered armed).job 0).prot.retained.find? (fun k => k.m == 0) = some record := by decide +kernel

/-! ### Lanes -/

/-- Lane 63 in a state. -/
def laneIn (l : Lane) : State := up.setLane 63 l
theorem test_lane_up : (laneIn {}).Admits .fw (laneAt 63 0x40) ∧ (laneIn {}).txnOf (lanePage 63) = none ∧ (laneIn {}).laneJob 63 = none ∧
    ((laneIn {}).lane 63).state = .off ∧ (laneIn {}).lanePllLocked 63 = false ∧
    ((laneIn {}).setFlag (laneGroupAt 3 0x40) 0 true).lanePllLocked 63 = true :=
  ⟨admits _ _ _ (by decide +kernel), by decide +kernel⟩
theorem test_lane_states : ((laneIn { state := .waitSignal }).lane 63).state = .waitSignal ∧ ((laneIn { state := .align }).lane 63).state = .align ∧
    LaneState.train.receives = true ∧ LaneState.train.sends = true ∧ LaneState.operational.receives = true := by decide
theorem test_lane_trained : ∃ s : State, (s.lane 63).state = .train ∧ 16 ≤ (s.lane 63).holdFrames ∧
    s.fld (laneAt 63 0x54) 31 24 ≤ s.fld (laneAt 63 0x54) 7 0 := ⟨(laneIn { state := .train, holdFrames := 16 }).setFld (laneAt 63 0x54) 7 0 255, by decide +kernel⟩
theorem test_lane_measured : ∃ s : State, (s.lane 63).state = .measure ∧ 1024 ≤ (s.lane 63).samples ∧
    ((s.lane 63).maxRtt + 1) / 2 + 8 ≤ s.lambda 63 := ⟨laneIn { state := .measure, samples := 1024, maxRtt := 304 }, by decide +kernel⟩
theorem test_lane_measured_late : ∃ s : State, (s.lane 63).state = .measure ∧ 1024 ≤ (s.lane 63).samples ∧
    s.lambda 63 < ((s.lane 63).maxRtt + 1) / 2 + 8 := ⟨laneIn { state := .measure, samples := 1024, maxRtt := 306 }, by decide +kernel⟩
theorem test_lane_retrains : ∃ s : State, (s.lane 63).state.receives = true ∧ s.flag (laneAt 63 0x40) 1 = true :=
  ⟨(laneIn { state := .operational }).setFlag (laneAt 63 0x40) 1 true, by decide +kernel⟩
theorem test_lane_block : (up.job 0).abs ≤ 0 + up.lambda 0 ∧
    ((up.lane 0).elastic.filter (fun v => v.due != 0 + up.lambda 0)).length < 1024 := by decide +kernel
theorem test_lane_hears : (laneIn { state := .operational }).fld (laneAt 63 0x40) 7 6 ≠ 1 ∧ ((laneIn { state := .operational }).lane 63).line.held = none ∧
    ((laneIn { state := .operational }).lane 63).line.ctlIn = [] := by decide +kernel
/-- A message whose check bits are any function of the others, with the coding bits 0. -/
theorem checked_word (n : Nat) (hn : 138 ≤ n) (f : Nat → BitVec 32) : ∃ msg : BitVec (n + 32),
    f (msg.toNat % 2 ^ n) = BitVec.ofNat 32 (msg.toNat / 2 ^ n) ∧ natBits msg.toNat 137 136 = 0 := by
  obtain ⟨k, rfl⟩ := Nat.exists_eq_add_of_le' hn
  have hv : (f 0).toNat * 2 ^ (k + 138) < 2 ^ (k + 138 + 32) := by
    rw [Nat.pow_add 2 (k + 138) 32, Nat.mul_comm]; exact Nat.mul_lt_mul_of_pos_left (f 0).isLt (Nat.two_pow_pos _)
  refine ⟨BitVec.ofNatLT _ hv, ?_, ?_⟩
  · rw [BitVec.toNat_ofNatLT, Nat.mul_mod_left, Nat.mul_div_cancel _ (Nat.two_pow_pos _), BitVec.ofNat_toNat, BitVec.setWidth_eq]
  · have h : (2 : Nat) ^ (k + 138) = 2 ^ k * 2 ^ 2 * 2 ^ 136 := by rw [← Nat.pow_add, ← Nat.pow_add]
    rw [BitVec.toNat_ofNatLT, h, ← Nat.mul_assoc, ← Nat.mul_assoc]
    unfold natBits
    rw [Nat.mul_div_cancel _ (Nat.two_pow_pos _)]
    exact Nat.mul_mod_left _ _
theorem test_lane_message : ∃ msg : BitVec 5140, crc32Bits 5108 (msg.toNat % 2 ^ 5108) = BitVec.ofNat 32 (msg.toNat / 2 ^ 5108) ∧
    natBits msg.toNat 137 136 = 0 := checked_word 5108 (by decide) (crc32Bits 5108)

/-- A control frame of one block. -/
def control (kind : Nat) : RxControl := ⟨controlBytes kind 0 [7], false, {}⟩
theorem test_lane_control : ∀ kind : Fin 3, let s := laneIn { state := .operational, line := { ctlIn := [control kind.val] } }
    (s.lane 63).line.ctlIn[0]? = some (control kind.val) ∧ (control kind.val).whole = (kind != 0) ∧ (control kind.val).kind = kind.val ∧
    s.time.ptp = none ∧ s.laneJob 63 = none ∧ s.fwUp = false ∧ (working s).fwUp = true := by decide +kernel
theorem test_lane_pattern : ∃ s : State, (s.lane 63).state = .test ∧ s.fld (laneAt 63 0x80) 7 4 ≠ 0 ∧ s.fld (laneAt 63 0x40) 7 6 ≠ 1 ∧ s.flag (laneAt 63 0x90) 0 = false ∧
    (s.setFlag (laneAt 63 0x90) 0 true).flag (laneAt 63 0x90) 0 = true :=
  ⟨(laneIn { state := .test }).setFld (laneAt 63 0x80) 7 4 1, by decide +kernel⟩
theorem test_lane_injects : ∀ mode : Fin 2, ∃ s : State, s.Admits .fw (laneAt 63 0xA8) ∧ s.fld (laneAt 63 0xA8) 9 2 ≠ 0 ∧
    3 ≤ s.fld (laneAt 63 0xA8) 13 10 ∧ s.fld (laneAt 63 0xA8) 13 10 ≤ 12 ∧ (s.lane 63).state = .test ∧
    s.fld (laneAt 63 0xA8) 1 0 = mode.val + 1 := by
  intro mode
  refine ⟨(((laneIn { state := .test }).setFld (laneAt 63 0xA8) 9 2 1).setFld (laneAt 63 0xA8) 13 10 12).setFld (laneAt 63 0xA8) 1 0 (mode.val + 1),
    admits _ _ _ ?_, ?_⟩ <;> revert mode <;> decide +kernel

/-! ### Capture -/

/-- The engine has a session of job 0, in a state. -/
def session (c : Cap) : State := { running with cap := { c with job := some 0 } }
theorem test_capture_arms : (session {}).Admits .fw (capAt 0 0x58) ∧ (session {}).cap.job = some 0 ∧ (session {}).cap.state = .idle :=
  ⟨admits _ _ _ (by decide +kernel), by decide⟩
theorem test_capture_stops : (session { state := .armed }).Admits .fw (capAt 0 0x58) ∧ (session { state := .armed }).cap.state = .armed ∧
    (session { state := .post }).Admits .fw (capAt 0 0x58) ∧ (session { state := .post }).cap.state = .post :=
  ⟨admits _ _ _ (by decide +kernel), by decide, admits _ _ _ (by decide +kernel), by decide⟩
/-- The record of a design cycle that owes a marker to segments. -/
def cycle (owed : List Nat) : CapRec := ⟨3, [], owed, false, 0, 0, {}, false, none⟩
theorem test_capture_marker : (session { state := .armed, recs := [cycle [0]] }).cap.recs = [] ++ cycle [0] :: [] ∧ 0 ∈ (cycle [0]).owed := by decide
theorem test_capture_record : ∃ s : State, s.cap.recs = cycle [] :: [] ∧ (cycle []).owed = [] ∧ (cycle []).wait = false ∧ s.cap.state = .armed ∧
    (cycle []).replay = none ∧ s.cap.seq < 16 ∧ s.reg (capAt 1 0x40) = 0 ∧ s.reg (capAt 1 0x44) = 0 ∧ s.cap.lost = none ∧
    s.capRoom 1 = true ∧ s.cap.off + 8 * 1 ≤ s.capSize :=
  ⟨(session { state := .armed, recs := [cycle []] }).setFld (capAt 0 0x48) 5 0 12, by decide +kernel⟩
theorem test_capture_full : (session { state := .armed, stage := List.replicate 32768 (0, []) }).capRoom 1 = false := by
  simp only [State.capRoom, Cap.fill, session, List.length_replicate, List.length_nil]
  decide
/-- A segment in POST whose TRIG record begins the ring, the end of the ring at hand. -/
def closing (off : Nat) : State :=
  (session { state := .post, recs := [cycle []], off := off, trig := some ⟨3, 3, {}, 0, false, true, 64⟩, lost := some (5, 1) }).setFld (capAt 0 0x48) 5 0 12
theorem test_capture_covers : (closing 4096).capWouldCover ((closing 4096).capWrites (cycle [])) = true ∧ (closing 4096).capWouldCover [2] = true ∧
    (closing 1024).capWouldCover [2] = false ∧ (closing 4096).capRoom (2 + (closing 4096).capLen) = true ∧
    (closing 1024).capRoom (2 + (closing 1024).capLen) = true := by decide +kernel
theorem test_capture_rearms : ∃ s : State, s.cap.state = .rearm ∧ s.cap.seg + 1 < s.fld (capAt 0 0x4C) 16 0 :=
  ⟨(session { state := .rearm }).setFld (capAt 0 0x4C) 16 0 2, by decide +kernel⟩
theorem test_capture_ring : ∃ s : State, s.cap.state = .rearm ∧ s.fld (capAt 0 0x4C) 16 0 ≤ s.cap.seg + 1 ∧ s.flag (capAt 0 0x40) 8 = true ∧
    (s.setFlag (capAt 0 0x40) 8 false).flag (capAt 0 0x40) 8 = false :=
  ⟨((session { state := .rearm }).setFld (capAt 0 0x4C) 16 0 1).setFlag (capAt 0 0x40) 8 true, by decide +kernel⟩
theorem test_capture_gap : ∃ s : State, s.cap.lost = some (5, 1) ∧ s.cap.state = .armed ∧ s.capRoom (2 + s.capLen) = true ∧ s.capWouldCover [2] = false :=
  ⟨session { state := .armed, lost := some (5, 1) }, by decide⟩

/-! ### PCIe and the NoC -/

theorem test_link_trains : ∃ s : State, s.flag (clkAt 0x44) 9 = true ∧ (6 : BitVec 3) ≠ 0 ∧ s.fld (pcieAt 0x44) 2 0 ≠ 0 :=
  ⟨(up.setFlag (clkAt 0x44) 9 true).setFld (pcieAt 0x44) 2 0 6, by decide +kernel⟩
/-- Function 0's configuration space with one word changed. -/
def configured (off : Nat) (v : Word) : State := up.setPcieFn 0 { up.pcieFn 0 with cfg := [(off, some v)] }
theorem test_link_sleeps : ∃ s : State, s.fld (pcieAt 0x40) 2 0 ≠ 0 ∧ ((s.pcieFn 0).config 0 cfgLink).getLsbD 1 = true ∧
    ((up.pcieFn 0).config 0 cfgLink).getLsbD 1 = false := ⟨(configured cfgLink 2).setFld (pcieAt 0x40) 2 0 6, by decide +kernel⟩
/-- A bank with nothing to do is idle. -/
theorem bank_idle (s : State) (bank : Nat) (h : (s.bankStatus bank == .ok && !s.bankClearing bank && (s.fabricUse bank).isNone &&
    !s.fab.dyn.any (fun x => x.bank == bank) && s.fab.mbWb.all (fun x => x.bank != bank)) = true) : s.BankIdle bank := by
  simp only [Bool.and_eq_true, beq_iff_eq, Bool.not_eq_true', Option.isNone_iff_eq_none] at h
  exact ⟨h.1.1.1.1, h.1.1.1.2, h.1.1.2, h.1.2, h.2⟩
theorem test_bar2_word : up.bar2Served 0 (apertureBase + 16383 * 0x8000 + 4095 * 8) 8 = true ∧ up.BankIdle 16383 ∧ up.FnIdle 0 ∧
    up.bankRead 16383 4095 = (⟨(0 : Dword).toNat, 0, false⟩, false) :=
  ⟨by decide +kernel, bank_idle _ _ (by decide +kernel), (fun _ h => nomatch h), by decide +kernel⟩
theorem test_bar2_refused : up.bar2Served 63 0 64 = false ∧ up.bar2Served 0 (2 ^ 40) 8 = false := by decide +kernel
theorem test_bar2_hbm : 0x17FFFFFFC0 % 64 = 0 ∧ 0x17FFFFFFC0 < apertureBase ∧ up.bar2Served 0 0x17FFFFFFC0 64 = true ∧
    up.access = [] ∧ ((up.ref (pcOf 0x17FFFFFFC0)).fifo 20).length < 8 := by decide +kernel

/-- A packet whose header holds fields at bit places. -/
def packet (fields : List (Nat × Nat)) : NocPacket := ⟨BitVec.ofNat 512 ((fields.map (fun f => f.1 * 2 ^ f.2)).sum), []⟩
theorem test_noc_malformed : nocBad (packet []) = true ∧ nocFld (packet []) 22 20 ≠ 7 := by decide +kernel
theorem test_noc_management : nocBad (packet [(1, 16), (7, 20), (6, 42)]) = false ∧ nocFld (packet [(1, 16), (7, 20), (6, 42)]) 22 20 = 7 ∧
    nocMayManage (packet [(1, 16), (7, 20), (6, 42)]) = false ∧ nocRequester (packet [(1, 16), (7, 20), (6, 42)]) = none := by decide +kernel
theorem test_noc_register : ∀ cmd : Fin 3, let p := packet [(cmd.val + 1, 16), (4, 0), (1, 3), (timeAt 0x40, 64)]
    nocBad p = false ∧ nocFld p 22 20 ≠ 7 ∧ nocRequester p = some .pf ∧ (nocFld p 2 0, nocFld p 5 3) ≠ (3, 3) ∧
    nocFld p 127 64 < 0x4000000 ∧ pageRouter (nocFld p 127 64 / 0x1000) = some (nocFld p 2 0, nocFld p 5 3) ∧ nocFld p 19 16 = cmd.val + 1 := by decide +kernel
theorem test_noc_atomic : let p := packet [(4, 16), (3, 0), (3, 3), (apertureBase + 16383 * 0x8000 + 4095 * 8, 64)]
    nocBad p = false ∧ nocFld p 22 20 ≠ 7 ∧ nocRequester p = some (fnRequester 0) ∧ (nocFld p 2 0, nocFld p 5 3) = (3, 3) ∧ nocFld p 19 16 = 4 ∧
    nocFld p 127 64 = apertureBase + 16383 * 0x8000 + 4095 * 8 := by decide +kernel

/-! ### Rings and the dispatcher -/

/-- All 63 virtual functions are enabled. -/
def virtual (s : State) : State := s.setPcieFn 0 { s.pcieFn 0 with cfg := [(cfgSriov, some 1), (cfgNumVfs, some 63)] }
theorem test_ring_enables : ∃ s : State, s.Admits (fnRequester 63) (PageKind.mbox.at 0x50) ∧ s.txnOf (pageNo (mboxAt 63 0x50)) = none ∧
    s.fnOn 63 = true ∧ s.flag (mboxAt 63 0x50) 0 = false ∧ s.fld (mboxAt 63 0x50) 7 4 = 4 ∧ s.fld (mboxAt 63 0x50) 11 8 = 12 :=
  ⟨((virtual up).setFld (mboxAt 63 0x50) 7 4 4).setFld (mboxAt 63 0x50) 11 8 12, admits _ _ _ (by decide +kernel), by decide +kernel⟩
/-- Firmware serves, and function 63 has a ring of 16 descriptors, one of them posted. -/
def posted : State :=
  let s := (((virtual up).setFlag (clkAt 0x44) 4 true).setFld (PageKind.dev.at 0x44) 1 0 1).setFld (mboxAt 63 0x50) 31 0 (1 + 4 * 2 ^ 4 + 4 * 2 ^ 8)
  s.setPcieFn 63 { s.pcieFn 63 with dbCmd := 1 }
theorem test_takes_host : posted.serving = true ∧ posted.flag (mboxAt 63 0x50) 0 = true ∧ posted.flag (mboxAt 63 0x5C) 0 = false ∧
    (posted.pcieFn 63).dbCmd ≠ posted.reg (mboxAt 63 0x54) ∧
    ((posted.pcieFn 63).dbCmd - posted.reg (mboxAt 63 0x54)).toNat ≤ 2 ^ posted.fld (mboxAt 63 0x50) 7 4 ∧
    (posted.reg (mboxAt 63 0x54) - (posted.pcieFn 63).dbCpl).toNat < 2 ^ posted.fld (mboxAt 63 0x50) 11 8 ∧
    posted.roomFor (.host 63) = true := by decide +kernel
theorem test_doorbell_beyond : ∃ (s : State) (v : Word), s.fnOn 63 = true ∧ s.behind (fnRequester 63) = false ∧ s.flag (mboxAt 63 0x50) 0 = true ∧
    2 ^ s.fld (mboxAt 63 0x50) 7 4 < (v - s.reg (mboxAt 63 0x54)).toNat ∧ s.flag (mboxAt 63 0x5C) 0 = false ∧
    (s.reg (mboxAt 63 0x58) - (s.pcieFn 63).dbCpl).toNat < (v - (s.pcieFn 63).dbCpl).toNat := ⟨posted, 17, by decide +kernel⟩
theorem test_takes_agent : ∃ s : State, s.serving = true ∧ s.theham.posted ≠ s.theham.taken ∧ (s.theham.taken - s.theham.consumed).toNat < 64 ∧
    s.roomFor .agent = true := ⟨{ posted with theham := { posted.theham with posted := 1 } }, by decide +kernel⟩
theorem test_takes_bmc : ∃ s : State, s.serving = true ∧ s.theham.bmcBusy = true ∧ s.theham.bmcCmd ≠ [] ∧ s.roomFor .bmc = true :=
  ⟨{ posted with theham := { posted.theham with bmcBusy := true, bmcCmd := [1] } }, by decide +kernel⟩
theorem test_bmc_free : up.theham.bmcBusy = false ∧ up.theham.bmcValid = false := by decide

/-- A port of job 0 in bank 0: two slots of one word. -/
def port (h2d : Bool) : Port := { cl := 0, bank := 0, base := 0, h2d := h2d, slots := 2, words := 1 }
/-- A flow of function 0 on that port. -/
def flow (h2d : Bool) (st : FlowState) : Flow :=
  { fn := 0, handle := 0, job := 0, port := 0, channel := 0, group := 0, ring := 0x1000, log2 := 4, cidxWb := 0, vector := 0, irqEvery := 1
    h2d := h2d, state := st }
/-- The dispatcher holds that port and flow. -/
def dispatched (h2d : Bool) (st : FlowState) (d : Disp) : State :=
  { running with disp := { d with flows := [flow h2d st], ports := [(0, port h2d)] } }
theorem test_doorbell_waits : ({ up with access := [{ id := hostId, fn := 0, write := true, offset := 0, len := 8 }] } : State).fnOn 0 = true := rfl
theorem test_flow_bell : (dispatched true .idle {}).fnOn 0 = true ∧ (dispatched true .idle {}).behind (fnRequester 0) = false ∧ (dispatched true .idle {}).flow 0 0 = some (flow true .idle) ∧ up.flow 0 0 = none ∧
    cntDiff 16 (flow true .idle).cidx ≤ 2 ^ (flow true .idle).log2 ∧ 2 ^ (flow true .idle).log2 < cntDiff 17 (flow true .idle).cidx ∧
    (dispatched true .idle {}).contexts < 4096 ∧ cntDiff 16 ((flow true .idle).cidx + (flow true .idle).ahead) ≠ 0 := by decide
/-- An engine serves that flow, whose first entry holds a packet of 8 bytes. -/
def served : State :=
  { dispatched true .service { engines := [(0, some (0, 0))] } with
    disp := { engines := [(0, some (0, 0))], ports := [(0, port true)], flows := [{ flow true .service with pidx := 1 }] }
    hostMem := [(0x1008, 8)] }
theorem test_engine_serves : Sparse.get none served.disp.engines 0 = some (0, 0) ∧ served.flow 0 0 = some { flow true .service with pidx := 1 } ∧
    served.port 0 0 = some (port true) ∧ (served.job 0).compare = false ∧ served.portOpen 0 (port true) = true ∧ (port true).overrun = false ∧
    served.domainOn 0 = true ∧ served.BankIdle ((port true).bankNo 0) ∧ (port true).slotAt (port true).count + 1 < 4096 ∧
    ({ flow true .service with pidx := 1 } : Flow).undelivered = true ∧
    cntDiff (port true).ann (cntOf (served.cntFetch (port true) 0).1) ≤ (port true).slots ∧
    cntDiff (port true).count (cntOf (served.cntFetch (port true) 0).1) < (port true).slots ∧
    Sparse.num served.hostMem ((flow true .service).entryAt 0 + 8) 2 = 8 :=
  ⟨by decide +kernel, by decide +kernel, by decide +kernel, by decide +kernel, by decide +kernel, by decide +kernel, by decide +kernel,
    bank_idle _ _ (by decide +kernel), by decide +kernel⟩
/-- A packet of that flow. -/
def arrived : Packet := { job := 0, port := 0, channel := 0, tag := 9, data := [1, 2], label := 0 }
theorem test_engine_delivers : ∃ (s : State) (f : Flow), Sparse.get none s.disp.engines 31 = some (0, 0) ∧ s.flow 0 0 = some f ∧ f.h2d = false ∧
    (s.group 0).queue.find? f.owns = some arrived ∧ f.dying = false ∧ f.pidx ≠ f.cidx ∧ s.disp.parked = [] :=
  ⟨{ running with disp := { engines := [(31, some (0, 0))], groups := [(0, { queue := [arrived] })], ports := [(0, port false)]
                            flows := [{ flow false .service with pidx := 1 }] } }, { flow false .service with pidx := 1 }, by decide⟩
/-- A packet of 8 bytes waits in the D2H port, labelled with design cycle 4. -/
def offered : State :=
  (State.bankStore { dispatched false .idle {} with disp := { flows := [flow false .idle], ports := [(0, { port false with snaps := [(4, 1)] })] } }
    0 (({ port false with snaps := [(4, 1)] } : Port).slotAt 0) 8)
theorem test_d2h_take : offered.port 0 0 = some { port false with snaps := [(4, 1)] } ∧ offered.portOpen 0 { port false with snaps := [(4, 1)] } = true ∧
    ({ port false with snaps := [(4, 1)] } : Port).label 0 = some 4 ∧ (offered.job 0).cmpDue = none ∧ offered.BankIdle ((port false).bankNo 0) ∧
    natBits ((offered.slotFetch { port false with snaps := [(4, 1)] } 0 0).1.getD 0 0).toNat 15 0 = 8 ∧
    offered.disp.flows.find? (fun f => f.job == 0) = some (flow false .idle) ∧ (offered.group 0).spill = [] ∧ (offered.group 0).queue.length < 256 :=
  ⟨by decide +kernel, by decide +kernel, by decide, by decide +kernel, bank_idle _ _ (by decide +kernel), by decide +kernel⟩
theorem test_flow_creates : (dispatched true .idle {}).port 0 0 = some (port true) ∧ (dispatched true .idle {}).freeHandle 0 = some 1 ∧
    ((dispatched true .idle {}).job 0).state ≠ .free ∧ ((dispatched true .idle {}).job 0).fn = 0 ∧ (dispatched true .idle {}).disp.flows.length < 262144 := by decide
theorem test_flow_restarts : (dispatched true .stopped {}).flow 0 0 = some (flow true .stopped) ∧ (dispatched true .stopped {}).disp.parked = [] ∧
    (∀ e ∈ (dispatched true .stopped {}).disp.engines, e.2 ≠ some (0, 0)) ∧ (dispatched true .stopped {}).contexts < 4096 ∧
    cntDiff (flow true .stopped).pidx (flow true .stopped).cidx = 0 ∧ cntDiff 1 (flow true .stopped).cidx ≠ 0 := by decide
theorem test_group_picked : ∃ (s : State) (g : Nat) (u : State) (f : Flow), Sparse.get none s.disp.engines 31 = none ∧
    State.pickGroup 17 s.dispStaged s.disp.turn = some (g, u) ∧ u.headFlow g = some f := by
  have h : ((State.pickGroup 17 (dispatched true .ready { groups := [(0, { ready := [(0, 0)], deficit := 512 })] }).dispStaged 0).bind
      (fun r => r.2.headFlow r.1)).isSome = true := by decide +kernel
  cases hp : State.pickGroup 17 (dispatched true .ready { groups := [(0, { ready := [(0, 0)], deficit := 512 })] }).dispStaged 0 with
  | none => rw [hp] at h; simp at h
  | some r =>
    rw [hp] at h
    cases hf : r.2.headFlow r.1 with
    | none => simp [hf] at h
    | some f => exact ⟨_, r.1, r.2, f, by decide, hp, hf⟩

/-! ### Management -/

theorem test_activation_undone : ∃ s : State, s.theham.older ≠ [] := ⟨{ up with theham := { up.theham with older := [⟨2, false, []⟩] } }, by decide⟩
theorem test_wdt0 : ∃ s : State, s.flag (wdtAt 0x40) 0 = true ∧ s.inMonitor = false ∧ s.Admits .fw (wdtAt 0x48) :=
  ⟨up.setFlag (wdtAt 0x40) 0 true, by decide +kernel, by decide +kernel, admits _ _ _ (by decide +kernel)⟩
/-- Function 0 sends the messages of unmasked vectors; vector 7 is pending. -/
def signalling (masked : BitVec 8) : State := up.setPcieFn 0 { up.pcieFn 0 with cfg := [(cfgMsix, some (2 ^ 31))], masked := masked, pba := 0x80 }
theorem test_event_routed : ∀ masked : Bool, let s := (signalling (if masked then 0xFF else 0)).setFlag (evtRoute 511) 9 true
    s.flag (PageKind.evt.at (0x40 + 4 * (511 / 32))) (511 % 32) = false ∧ s.flag (evtRoute 511) 9 = true ∧
    (s.pcieFn (s.fld (evtRoute 511) 5 0)).sends (s.fld (evtRoute 511) 5 0) (s.fld (evtRoute 511) 8 6) = !masked := by decide +kernel
theorem test_vector_unmasks : ((signalling 0xFF).pcieFn 0).msixOn 0 = true ∧ ((signalling 0xFF).pcieFn 0).pba.getLsbD 7 = true ∧
    (∀ i, i < 8 → i ≠ 7 → ((signalling 0xFF).pcieFn 0).pba.getLsbD i = false) ∧ (up.pcieFn 0).msixOn 0 = false := by decide +kernel
theorem test_log_flushes : ∀ full : Bool, ∃ s : State, s.fwUp = true ∧ 2048 ≤ s.theham.unflushed ∧ decide (s.theham.erases < 40) = !full :=
  fun full => ⟨working { up with theham := { up.theham with unflushed := 2048, erases := if full then 40 else 39 } }, by revert full; decide +kernel⟩
theorem test_recovers : ∃ s : State, s.fwUp = true ∧ (s.job 0).prot.recent = none ∧ s.theham.voltFault = true ∧ (s.job 0).live = true ∧ (s.job 0).prot.state = .armed ∧
    (s.job 0).prot.replay = none ∧ (s.job 0).target (s.job 0).m = some 0 :=
  ⟨working { withJob armed .run with theham := { voltFault := true } }, by decide +kernel⟩

/-! ### Commands -/

/-- A command of the physical function. -/
def call : Call := ⟨.host 0, 0, 7, false, true, false⟩
/-- Firmware serves, not in recovery. -/
def ready : State := (up.setFld (PageKind.dev.at 0x44) 1 0 1).setFlag (clkAt 0x44) 4 true
/-- The same with job 0 in segment 0. -/
def readyJob (j : Job) (q : SeqState) : State :=
  ((withJob j q).setFld (PageKind.dev.at 0x44) 1 0 1).setFlag (clkAt 0x44) 4 true

/-- A command is served where the gate's four checks pass. -/
theorem serves (s : State) (c : Call) (op : Nat) (h : (s.fwUp && decide (s.callerFn c.ring < 64) && !s.theham.shutdown && !s.recovery && s.permitted c.ring op) = true) :
    s.Serves c op := by
  simp only [Bool.and_eq_true, decide_eq_true_eq, Bool.not_eq_true'] at h
  exact ⟨h.1.1.1.1, h.1.1.1.2, .inl h.1.1.2, .inl h.1.2, h.2⟩

/-- A job command is served where the caller sees the job too. -/
theorem servesJob (s : State) (c : Call) (op j : Nat)
    (h : (s.fwUp && decide (s.callerFn c.ring < 64) && !s.theham.shutdown && !s.recovery && s.permitted c.ring op) = true) (hs : s.sees c.ring j = true) :
    s.ServesJob c op j := { toServes := serves s c op h, sees := hs }

theorem test_device_served : ∀ op ∈ [0x0101, 0x0102, 0x0103, 0x0104, 0x0105, 0x0106, 0x0107, 0x0201, 0x0801, 0x0802, 0x0803, 0x0901, 0x0902, 0x0903,
    0x0904, 0x0905, 0x0A01, 0x0A02, 0x0A03, 0x0A04, 0x0A05, 0x0B01, 0x0B02, 0x0B03, 0x0B04, 0x0C01, 0x0C02, 0x0C03, 0x0C04, 0x0C05, 0x0C06],
    ready.Serves call op := fun op h => serves _ _ _ (by revert op; decide +kernel)
theorem test_job_served : ∀ op ∈ [0x0202, 0x0203, 0x0204, 0x0205, 0x0301, 0x0302, 0x0303, 0x0401, 0x0402, 0x0403, 0x0404, 0x0405, 0x0501, 0x0502,
    0x0601, 0x0602, 0x0603, 0x0604, 0x0605, 0x0701, 0x0702], (readyJob job .run).ServesJob call op 0 :=
  fun op h => servesJob _ _ _ _ (by revert op; decide +kernel) (by decide)
theorem test_buffers : call.Reaches 64 16448 := ⟨by decide, by decide, rfl⟩
theorem test_power_command : ready.atState 63 1 = true ∧ ready.atState 63 0 = false ∧ ready.domainBusy 63 = false ∧
    (readyJob job .run).domainBusy 0 = true ∧ (dark ready).atState 63 1 = false ∧ ready.theham.high = false := by decide +kernel
theorem test_clock_command : (readyJob job .run).anyLive = true ∧ ready.anyLive = false := by decide
theorem test_job_created : ∃ j u, ready.makeJob 1 0 = .inr (j, u) := by
  have h : (match ready.makeJob 1 0 with | .inr _ => true | .inl _ => false) = true := by decide +kernel
  cases hm : ready.makeJob 1 0 with
  | inl c => rw [hm] at h; simp at h
  | inr r => exact ⟨r.1, r.2, rfl⟩
theorem test_job_not_created : ∃ c, ready.makeJob 0 0 = .inl c := by
  have h : (match ready.makeJob 0 0 with | .inr _ => false | .inl _ => true) = true := by decide +kernel
  cases hm : ready.makeJob 0 0 with
  | inl c => exact ⟨c, rfl⟩
  | inr r => rw [hm] at h; simp at h
theorem test_destroy_completes : ∃ s : State, s.fwUp = true ∧ (s.job 0).state = .destroying ∧ (s.job 0).haltReq = none ∧ s.standing 0 = true :=
  ⟨working (withJob { job with state := .destroying } .halted), by decide +kernel⟩
theorem test_windows : (octantsOf ((readyJob job .run).job 0).mask).contains 0 = true ∧ (readyJob job .run).unitFree 0 0 = true ∧
    (∀ v, v < 0 → (readyJob job .run).unitFree 0 v = false) := by decide
theorem test_window_available : ∃ s : State, s.octantOk 0 = true ∧ (octantsOf (s.job 0).mask).contains 0 = true ∧ s.unitFree 0 0 = true :=
  ⟨(List.range 4).foldl (fun (s : State) k => s.setReg (hbmcAt k 0x44) 0xFFFFFFFF) (readyJob job .run), by decide +kernel⟩
theorem test_window_freed : ∃ s : State, (s.job 0).state = .created ∧ (s.job 0).image = none ∧ (∀ i, i < 2 → (0, 3 + i) ∈ (s.job 0).units) :=
  ⟨withJob { job with state := .created, windows := [(0, 3, 2)] } .idle, by decide⟩

/-- A load accepted. -/
def loadReq : LoadReq := ⟨call, ⟨false, 0, 0⟩, 4096, false, false, 0, 0⟩
theorem test_loads : ∃ s : State, s.fwUp = true ∧ (s.job 0).state = .loading ∧ (s.job 0).load = some loadReq ∧ loadReq.call.dmaOk = true :=
  ⟨working (withJob { job with state := .loading, load := some loadReq } .idle), by decide +kernel⟩
theorem test_load_fails : ∃ f, (withJob { job with state := .loading, load := some loadReq } .idle).phase0 0
    ((withJob { job with state := .loading, load := some loadReq } .idle).readImage loadReq.place loadReq.len false false) false false = some f := by
  have h : ((withJob { job with state := .loading, load := some loadReq } .idle).phase0 0
    ((withJob { job with state := .loading, load := some loadReq } .idle).readImage loadReq.place loadReq.len false false) false false).isSome = true := by
    decide +kernel
  exact Option.isSome_iff_exists.mp h
theorem test_region_bad : (running.regionBad 0 (running.readImage ⟨false, 0, 0⟩ 4096 false false)) = true := by decide +kernel
theorem test_preloads : ∃ s : State, s.fwUp = true ∧ (s.job 0).state = .starting ∧ (s.job 0).image = some image ∧ s.fab.clearing &&& (s.job 0).mask = 0 ∧
    s.preloadBad image = false := ⟨working (withJob { job with state := .starting, image := some image } .idle), by decide +kernel⟩
theorem test_image_known : ∃ s : State, (s.job 0).image = some image ∧ (s.job 0).state = .loaded :=
  ⟨withJob { job with state := .loaded, image := some image } .idle, by decide⟩
/-- A reload whose region is parked. -/
def parked : Reload := { mask := 1, image := image, b1 := 5, parked := true, written := false, call := call, stores := [], seqs := [], oldSeqs := [] }
theorem test_region_written : ∃ s : State, s.fwUp = true ∧ (s.job 0).reload = some parked ∧ parked.parked = true ∧ parked.written = false ∧
    parked.image.preloads = [] := ⟨working (withJob { job with reload := some parked } .stopped), by decide +kernel⟩

theorem test_run_fields : runFields 1 1 1 2 16 = true := by decide
theorem test_run_not_started : ∃ c, (readyJob job .run).startFault 0 1 1 1 = some c := by
  have h : ((readyJob job .run).startFault 0 1 1 1).isSome = true := by decide +kernel
  exact Option.isSome_iff_exists.mp h
theorem test_run_starts : ∃ s : State, s.startFault 0 1 1 1 = none ∧ (s.job 0).image = some image :=
  ⟨(readyJob { job with state := .loaded, image := some image } .idle).setFld (clkAt 0x44) 3 0 15, by
    have h : (State.startFault ((readyJob { job with state := .loaded, image := some image } .idle).setFld (clkAt 0x44) 3 0 15) 0 1 1 1).isNone = true := by
      decide +kernel
    exact Option.isNone_iff_eq_none.mp h, by decide⟩
theorem test_run_halts : ((readyJob job .run).job 0).live = true ∧ ((readyJob job .run).job 0).haltedBy = none ∧ (readyJob job .run).stands 0 = false ∧
    ((readyJob { job with state := .loaded } .idle).job 0).live = false := by decide
theorem test_run_resumes : ∃ s : State, (s.job 0).failed = false ∧ (s.job 0).haltedBy.isSome = true ∧ s.pkgHalt = false ∧ s.runBlocked 0 = false ∧
    s.lostLanes 0 = [] ∧ (s.job 0).prot.state ≠ .rollback ∧ (s.seq (s.job 0).lead).before ≠ .pause ∧ (s.seq 0).state = .halted :=
  ⟨(readyJob { job with haltedBy := some .command } .halted).setFld (clkAt 0x44) 3 0 15, by decide +kernel⟩
theorem test_run_blocked : ∃ s : State, (s.job 0).failed = false ∧ (s.job 0).haltedBy.isSome = true ∧ s.pkgHalt = true :=
  ⟨{ readyJob { job with haltedBy := some .command } .halted with pkgHalt := true }, by decide⟩
theorem test_run_stops : ∃ s : State, (s.job 0).state = .active ∧ (s.job 0).reload = none ∧ s.stands 0 = true ∧
    (running.stands 0 = false ∧ (running.job 0).haltedBy = none) :=
  ⟨readyJob { job with haltedBy := some .command } .halted, by decide⟩
theorem test_run_until : ((readyJob job .run).job 0).m < (5 : Dword).toNat ∧ (0 : Dword).toNat ≤ ((readyJob job .run).job 0).m ∧
    ((readyJob job .run).job 0).failed = false := by decide
theorem test_state_access : ∃ s : State, (s.job 0).state = .loaded ∧ (s.job 0).replaying = false ∧ s.rangeInJob 0 63 1 = true :=
  ⟨readyJob { job with state := .loaded } .idle, by decide⟩

theorem test_protects : ∃ u, (readyJob job .run).protOn 0 1 1 = some u := by
  have h : ((readyJob job .run).protOn 0 1 1).isSome = true := by decide +kernel
  exact Option.isSome_iff_exists.mp h
theorem test_protects_without_memory : ∃ s : State, s.protOn 0 64 64 = none :=
  ⟨{ readyJob job .run with allocs := [⟨0, 0x1800000000, 99⟩] }, by
    have h : (State.protOn { readyJob job .run with allocs := [⟨0, 0x1800000000, 99⟩] } 0 64 64).isNone = true := by decide +kernel
    exact Option.isNone_iff_eq_none.mp h⟩
theorem test_replays : ∃ s : State, (s.job 0).prot.state = .armed ∧ (s.job 0).prot.recent = none ∧ (s.job 0).prot.replay = none ∧ (s.job 0).failed = false ∧
    (s.job 0).haltedBy.isSome = true ∧ (s.seq (s.job 0).lead).state = .halted ∧ (s.job 0).prot.unlogged = false ∧
    ∃ k ∈ (s.job 0).prot.retained, k.usable = true ∧ k.m = (0 : Dword).toNat :=
  ⟨readyJob { armed with haltedBy := some .command } .halted, by decide⟩
theorem test_session_refused : (readyJob { job with image := some image } .run).capOpenFault 0 12 65536 ≠ none := by decide +kernel
theorem test_session_closes : (session {}).cap.job = some 0 ∧ up.cap.job ≠ some 0 := by decide

theorem test_lanes_of_a_package : (ready.setLane 5 { state := .operational }).anyBound 1 = false ∧ 1 ≠ ready.fld (laneGroupAt 0 0x44) 4 0 ∧
    ((ready.setLane 5 { state := .operational }).lane 5).state ≠ .off ∧ (∀ n, n < 64 → (ready.lane n).state = .off) ∧
    (ready.setFlag (laneGroupAt 0 0x40) 0 true).lanePllLocked 0 = true ∧ ready.domainOn (64 + 0 / 16) = true :=
  ⟨by decide +kernel, by decide +kernel, by decide, fun _ _ => rfl, by decide +kernel⟩
/-- A checkpoint was asked for earlier. -/
theorem test_checkpoint_asked : ((readyJob armed .run).job 0).prot.state = .armed ∧ ((readyJob armed .run).job 0).failed = false ∧
    (readyJob armed .run).theham.waiting.find? (fun w => w.op == 0x0603 && w.job == 0) = none ∧
    ∃ (s : State) (w : Waiting), (s.job 0).prot.state = .armed ∧ s.theham.waiting.find? (fun w => w.op == 0x0603 && w.job == 0) = some w :=
  ⟨by decide, by decide, by decide, { readyJob armed .run with theham := { waiting := [{ call := call, op := 0x0603, job := 0 }] } },
    { call := call, op := 0x0603, job := 0 }, by decide, by decide⟩
theorem test_lanes_start : ready.anyBound 1 = false ∧ ((peered job).setFlag (laneAt 0 0x50) 31 true).anyBound 1 = true := by decide +kernel
/-- A LANE_UP that waits until a time. -/
def laneWait (till : Nat) : Waiting := { call := call, op := 0x0801, arg := till }
theorem test_lanes_wait : ∃ s : State, s.fwUp = true ∧ s.theham.waiting = [laneWait 9] ++ laneWait 5 :: [laneWait 5] ∧ (laneWait 5).op = 0x0801 ∧
    (∀ x ∈ [laneWait 9], x.op = 0x0801 → (laneWait 5).arg < x.arg) ∧ (∀ x ∈ [laneWait 5], x.op = 0x0801 → (laneWait 5).arg ≤ x.arg) :=
  ⟨{ ready with theham := { ready.theham with waiting := [laneWait 9, laneWait 5, laneWait 5] } }, by decide +kernel, rfl, rfl, by decide, by decide⟩
theorem test_domain_77 : ready.domainOn 77 = true ∧ (dark ready).domainOn 77 = false ∧ ready.time.ptp = none := by decide +kernel
theorem test_update_open : ∃ (s : State) (u : Update), s.theham.update = some u ∧ u.ring = call.ring ∧
    Sparse.get 0 s.theham.writes (s.theham.writeSlot u.kind) < 1000 ∧ 1 + 3 ≤ u.len :=
  ⟨{ ready with theham := { ready.theham with update := some ⟨2, 4096, .host 0, [], none⟩ } }, ⟨2, 4096, .host 0, [], none⟩, by decide⟩
theorem test_update_pending : ∃ (s : State) (u : Update), s.theham.toBoot = [u] ∧ s.anyLive = false ∧ s.theham.update = none :=
  ⟨{ ready with theham := { ready.theham with toBoot := [⟨2, 4096, .host 0, [], some 3⟩] } }, ⟨2, 4096, .host 0, [], some 3⟩, by decide⟩
theorem test_update_fails : ready.packageOk 2 [] = false ∧ ({ ready.theham with parts := [(5, some [])] } : Theham).part 2 true = [] ∧
    natBit ready.theham.slotsUsed 2 = false := ⟨rfl, by decide, by decide⟩
/-- A record that enrols an image key before an owner is fused. -/
theorem test_enrols : ∃ r : List Byte, State.reset.recordSigned r = true ∧ recordOk r 1 = true :=
  ⟨List.replicate 64 0 ++ (leBytes 32 (Config.sm3 identityKey).toNat ++ (leBytes 4 1 ++ [0, 0, 1])), by
    have h : (leBytes 32 (Config.sm3 identityKey).toNat).length = 32 := by simp [leBytes]
    have c : leBytes 4 1 = [1, 0, 0, 0] := by decide
    constructor
    · simp [State.recordSigned, State.reset, List.drop_append, h, c]
      decide
    · simp [recordOk, List.drop_eq_nil_of_le, h, c]⟩
theorem test_update_booted : ∃ s : State, s.recovery = false ∧ (∃ v, s.theham.versionOf 5 = some v) ∧ s.theham.versionOf 4 = none :=
  ⟨{ ready with theham := { ready.theham with inUse := [(5, [1])] } }, by decide +kernel, ⟨_, rfl⟩, by decide⟩
theorem test_recovery : ∃ s : State, s.fwUp = true ∧ s.theham.shutdown = false ∧ s.recovery = true ∧ Commands call (.jobQuery call 0) 0x0203 ∧
    Commands call (.devNop call []) 0x0107 ∧ s.permitted call.ring 0x0107 = true :=
  ⟨ready.setFld (PageKind.dev.at 0x44) 1 0 2, by decide +kernel, by decide +kernel, by decide +kernel, .jobQuery 0, .devNop [], by decide +kernel⟩
theorem test_no_firmware : up.fwUp = false := by decide +kernel
theorem test_no_right : ready.fwUp = true ∧ ready.permitted (.host 63) 0x0A01 = false ∧ ready.theham.shutdown = false ∧ ready.recovery = false := by decide +kernel
theorem test_job_not_seen : ready.sees call.ring 63 = false ∧ (63 : Nat) < 64 := by decide
theorem test_job_number : PlainJobCommands call 64 (.runHalt call 64) 0x0402 ∧ ready.Serves call 0x0402 :=
  ⟨.runHalt, serves _ _ _ (by decide +kernel)⟩
theorem test_completes : call.ring = .host 0 ∧ (posted.flag (mboxAt 63 0x50) 0 = true) ∧ call.lost = false ∧
    up.flag (mboxAt 0 0x50) 0 = false := ⟨rfl, by decide +kernel, rfl, by decide +kernel⟩

/-! ### The debug port -/

theorem test_scan_levels : (0 : BitVec 493).getLsbD 288 = false ∧ (BitVec.allOnes 493).getLsbD 288 = true := by decide +kernel
theorem test_dap_start : (BitVec.ofNat 72 (2 ^ 10)).getLsbD 10 = true ∧ (BitVec.ofNat 72 (2 ^ 11)).getLsbD 10 = false ∧ up.tap.queue.length < 4 := by decide
/-- A debug access: its space, direction and word address. -/
def dap (space : Nat) (write : Bool) (addr : Nat) : DapReq :=
  { write := write, data := 0, addr := addr, space := space, seqNo := 0, answer := none }
/-- One debug access waits. -/
def asked (r : DapReq) : State := { up with tap := { queue := [r] } }
theorem test_dap_waits : (asked (dap 0 false 0x10)).tap.full = false ∧
    ∀ r, (asked (dap 0 false 0x10)).tap.queue.head? = some r → r.answer = none := ⟨rfl, fun r h => by cases h; rfl⟩
theorem test_dap_access : ∀ (space : Fin 4) (write : Bool),
    (asked (dap space.val write 0x10)).tap.queue = [] ++ dap space.val write 0x10 :: [] ∧ (dap space.val write 0x10).answer = none ∧
    (asked (dap space.val write 0x10)).domainOn 82 = true ∧ (asked (dap space.val write 0x10)).domainOn 80 = true := by decide
theorem test_dap_reads : (asked (dap 0 false 0x10)).Reads .dbg ((dap 0 false 0x10).addr * 4) := reads _ _ _ (by decide +kernel)
theorem test_dap_writes : (asked (dap 0 true 0x8014)).Admits .dbg ((dap 0 true 0x8014).addr * 4) := admits _ _ _ (by decide +kernel)
theorem test_dap_misses : (asked (dap 0 true 0xFFFC00)).accessFault .dbg ((dap 0 true 0xFFFC00).addr * 4) = some 0xC := by decide +kernel

/-! ### Sound -/

theorem test_step_keeps : (State.reset.Sound → up.Sound) ∧ step up = .next up := ⟨fun h => ⟨h.1, h.2, h.3, h.4, h.5⟩, rfl⟩

/-! ### Worked figures of the spec -/

/-- R527: inverting stored bit 0 gives syndrome 0x07, stored bit 56 gives 0x1F, and check bit 3 gives 0x08. -/
theorem test_secded_syndromes : (secdedRead 64 1 0).syn = 0x07 ∧ (secdedRead 64 (2 ^ 56) 0).syn = 0x1F ∧ (secdedRead 64 0 8).syn = 0x08 := by decide +kernel
/-- R214: the check value of CRC-64 over the nine digits. -/
theorem test_crc64_check : crc64 [0x31, 0x32, 0x33, 0x34, 0x35, 0x36, 0x37, 0x38, 0x39] = 0x995DC9BBDF1939FA := by decide +kernel
/-- R144: with all four parts -32,768 and option 0 the imaginary part is 2^31. -/
theorem test_cmul16_33rd_bit : (cmul16Result 0 0x8000800080008000).2 = 0x80000000 := by decide +kernel
/-- R146: NORM64 of 0 and of all ones under option 1 gives the operand and a count of 63. -/
theorem test_norm64_signs : norm64Result 1 0 = (0, 63) ∧ norm64Result 1 (-1) = (-1, 63) := by decide +kernel
/-- R175: the run after address 0xFFFF lies in pseudo-channel 0 at the next 512 bytes. -/
theorem test_hbm_map : pcOf 0xFFFF = 127 ∧ pcOffset 0xFFFF = 0x1FF ∧ pcOf 0x10000 = 0 ∧ pcOffset 0x10000 = 0x200 := by decide
/-- R312: a nanosecond past the last of a second carries. -/
theorem test_time_carry : (⟨5, 999999999, 0⟩ : Stamp).add (2 ^ 32) = ⟨6, 0, 0⟩ := by decide +kernel
end Sys2Proof.Tests
end

section
/-! Bits of a register word, and what fields and flags read after one is written. -/

namespace Sys2Proof.Machine

/-! ### Bits of a word -/

theorem testBit_natBits (v hi lo i : Nat) :
    (natBits v hi lo).testBit i = (decide (i < hi + 1 - lo) && v.testBit (lo + i)) := by
  simp [natBits, Nat.testBit_mod_two_pow, Nat.testBit_div_two_pow, Nat.add_comm]

/-- A field put into a number lies between the bits below it and those above it. -/
theorem natPut_eq (old hi lo v : Nat) : natPut old hi lo v =
    2 ^ lo * (2 ^ (hi + 1 - lo) * (old / 2 ^ lo / 2 ^ (hi + 1 - lo)) + v % 2 ^ (hi + 1 - lo)) + old % 2 ^ lo := by
  have hlow := Nat.div_add_mod old (2 ^ lo)
  have hmid := Nat.div_add_mod (old / 2 ^ lo) (2 ^ (hi + 1 - lo))
  simp only [natPut, natBits]
  generalize old / 2 ^ lo / 2 ^ (hi + 1 - lo) = top at *
  generalize old / 2 ^ lo % 2 ^ (hi + 1 - lo) = mid at *
  have hold : old = 2 ^ lo * (2 ^ (hi + 1 - lo) * top) + mid * 2 ^ lo + old % 2 ^ lo := by
    rw [← hmid, Nat.mul_add] at hlow
    rw [Nat.mul_comm mid]
    exact hlow.symm
  rw [Nat.mul_add, Nat.mul_comm (2 ^ lo) (v % _)]
  omega

theorem testBit_natPut (old hi lo v i : Nat) :
    (natPut old hi lo v).testBit i = if lo ≤ i ∧ i ≤ hi then v.testBit (i - lo) else old.testBit i := by
  rw [natPut_eq, Nat.testBit_two_pow_mul_add _ (Nat.mod_lt _ (Nat.two_pow_pos lo)),
    Nat.testBit_two_pow_mul_add _ (Nat.mod_lt _ (Nat.two_pow_pos _))]
  by_cases hlo : i < lo
  · rw [if_pos hlo, if_neg (by omega), Nat.testBit_mod_two_pow]
    simp [hlo]
  · by_cases hhi : i ≤ hi
    · rw [if_neg hlo, if_pos (by omega), if_pos (by omega), Nat.testBit_mod_two_pow]
      simp; omega
    · rw [if_neg hlo, if_neg (by omega), if_neg (by omega), Nat.testBit_div_two_pow, Nat.testBit_div_two_pow]
      congr 1; omega

namespace State

theorem flag_setFld (s : State) (a hi lo v b i : Nat) (hhi : hi < 32) : (s.setFld a hi lo v).flag b i =
    if b = a ∧ lo ≤ i ∧ i ≤ hi then v.testBit (i - lo) else s.flag b i := by
  rw [flag, reg_setFld]
  by_cases hb : b = a
  · subst hb
    have hbits : (BitVec.ofNat 32 (natPut (s.reg b).toNat hi lo v)).toNat.testBit i =
        (decide (i < 32) && (natPut (s.reg b).toNat hi lo v).testBit i) := BitVec.getLsbD_ofNat ..
    have hword : 32 ≤ i → s.flag b i = false := BitVec.getLsbD_of_ge _ _
    rw [if_pos rfl, hbits, testBit_natPut]
    by_cases hi32 : i < 32
    · simp [hi32, flag]
    · rw [if_neg (by omega), if_neg (by omega), hword (by omega)]; simp [hi32]
  · rw [if_neg hb, if_neg (by simp [hb])]; rfl

theorem testBit_fld (s : State) (a hi lo i : Nat) :
    (s.fld a hi lo).testBit i = (decide (i < hi + 1 - lo) && s.flag a (lo + i)) := testBit_natBits ..

/-- A field written reads back. -/
theorem fld_setFld_same (s : State) (a hi lo v : Nat) (hhi : hi < 32) :
    (s.setFld a hi lo v).fld a hi lo = v % 2 ^ (hi + 1 - lo) := by
  refine Nat.eq_of_testBit_eq fun i => ?_
  rw [testBit_fld, flag_setFld _ _ _ _ _ _ _ hhi, Nat.testBit_mod_two_pow]
  by_cases h : i < hi + 1 - lo
  · rw [if_pos ⟨rfl, by omega, by omega⟩, Nat.add_sub_cancel_left]
  · simp [h]

/-- A field keeps its value where no bit of it is written. -/
theorem fld_setFld_other (s : State) (a hi lo v b hi' lo' : Nat) (hhi : hi < 32) (h : b ≠ a ∨ hi' < lo ∨ hi < lo') :
    (s.setFld a hi lo v).fld b hi' lo' = s.fld b hi' lo' := by
  refine Nat.eq_of_testBit_eq fun i => ?_
  rw [testBit_fld, testBit_fld, flag_setFld _ _ _ _ _ _ _ hhi]
  by_cases hi' : i < hi' + 1 - lo'
  · rw [if_neg (by omega)]
  · simp [hi']

theorem flag_setFlag (s : State) (a i : Nat) (v : Bool) (b j : Nat) (hi : i < 32) :
    (s.setFlag a i v).flag b j = if b = a ∧ j = i then v else s.flag b j := by
  rw [setFlag, flag_setFld _ _ _ _ _ _ _ hi]
  by_cases h : b = a ∧ j = i
  · rw [if_pos h, if_pos (by omega), h.2, Nat.sub_self]
    cases v <;> rfl
  · rw [if_neg h, if_neg (by omega)]

end State
end Sys2Proof.Machine
end

section
/-! An admitted write of a register reaches it. -/

namespace Sys2Proof.Machine

/-! ### An admitted write reaches its register -/

theorem pageOf_eq_none_of_le {page : Nat} (h : 0x3000 ≤ page) : pageOf page = none := by
  unfold pageOf
  simp (disch := omega) only [if_neg]

namespace State

/-- A register access on its way changes the NoC's counters only. -/
theorem crossReg_eq (s : State) (rq : Requester) (addr : Nat) (write : Bool) :
    ∃ n, s.crossReg rq addr write = { s with noc := n } := by
  unfold crossReg
  split
  · exact ⟨s.noc, rfl⟩
  · unfold cross
    split
    · cases write <;> exact ⟨_, rfl⟩
    · exact ⟨s.noc, rfl⟩

@[simp] theorem reg_crossReg (s : State) (rq : Requester) (addr : Nat) (write : Bool) (a : Nat) :
    (s.crossReg rq addr write).reg a = s.reg a := by
  obtain ⟨n, hn⟩ := s.crossReg_eq rq addr write
  rw [hn]; rfl

theorem addr_lt_of_accessFault {s : State} {rq : Requester} {addr : Nat} (h : s.accessFault rq addr = none) :
    addr < 0x3000000 := by
  refine Nat.lt_of_not_le fun hge => ?_
  have hpage : pageOf (addr / 0x1000) = none := pageOf_eq_none_of_le (by omega)
  simp [accessFault, hpage] at h

theorem hostSpace_eq_false_of_lt (rq : Requester) {addr : Nat} (h : addr < 0x3000000) : rq.hostSpace addr = false := by
  unfold Requester.hostSpace bar4Base configBase
  simp (disch := omega) only [decide_eq_false, Bool.false_and, Bool.or_false, Bool.and_false]

section
variable {s : State} {rq : Requester} {addr : Nat} (h : s.Admits rq addr)
include h

/-- An admitted access takes effect at once (R363). -/
theorem inTurn_of_admits (width : Nat) (data : Dword) (write : Bool) (body : State → State) :
    s.inTurn rq addr width data write body = body (s.crossReg rq addr write) := if_neg (by rw [h.turn]; decide)

/-- An admitted write that has crossed the mesh reaches its page (R37). -/
theorem reach_of_admits (body : State → State) :
    (s.crossReg rq addr true).reach rq addr true body = body (s.crossReg rq addr true) := by
  obtain ⟨n, hn⟩ := s.crossReg_eq rq addr true
  have hreach : (rq == .uc && !({ s with noc := n }).ucReaches addr true) = false := by
    by_cases hrq : rq = .uc
    · have hcore : ({ s with noc := n }).ucReaches addr true = true := h.core hrq
      rw [hcore]; simp
    · simp [hrq]
  have hmapped : ({ s with noc := n }).accessFault rq addr = none := h.mapped
  rw [hn, reach, hreach, hmapped]
  rfl

/-- The writer of an admitted write may write the register (R41). -/
theorem writeGate_of_admits (body : State → State) :
    (s.crossReg rq addr true).writeGate rq addr body = body (s.crossReg rq addr true) := by
  obtain ⟨n, hn⟩ := s.crossReg_eq rq addr true
  have hwriter : ({ s with noc := n }).writerFault rq addr = none := h.writer
  rw [hn, writeGate, hwriter]

theorem page_crossReg_frozen_of_admits : ((s.crossReg rq addr true).page (addr / 0x1000)).frozen = false := by
  obtain ⟨n, hn⟩ := s.crossReg_eq rq addr true
  rw [hn]; exact h.thawed

/-- An admitted, aligned 32-bit write is performed on the register it names (R37, R41, R363, R469). -/
theorem write32_of_admits (haligned : addr % 4 = 0) (v : Nat) :
    s.write32 rq addr v = (s.crossReg rq addr true).performWrite rq addr (BitVec.ofNat 32 v) := by
  have hspace := hostSpace_eq_false_of_lt rq (addr_lt_of_accessFault h.mapped)
  have hword : BitVec.ofNat 32 (BitVec.ofNat 64 v).toNat = BitVec.ofNat 32 v := by
    apply BitVec.eq_of_toNat_eq; simp
  rw [write32, writeAccess, inTurn_of_admits h, writeNow, hspace, if_neg (by decide), reach_of_admits h]
  refine ((if_pos ⟨rfl, haligned⟩).trans (writeGate_of_admits h _)).trans ?_
  rw [hword]

end

/-- A word written to a header register of a page that is not frozen. -/
theorem performWrite_header {s : State} {page off : Nat} (hoff : off < 0x40) (hthawed : (s.page page).frozen = false)
    (rq : Requester) (v : Word) : s.performWrite rq (hdr page off) v = s.writeHeader rq page off v := by
  have hpage : hdr page off / 0x1000 = page := by unfold hdr; omega
  have hrest : hdr page off % 0x1000 = off := by unfold hdr; omega
  simp [performWrite, freezeHolds, hpage, hrest, hthawed, hoff]

/-- An admitted write of a header register. -/
theorem write32_header {s : State} {rq : Requester} {page off : Nat} (h : s.Admits rq (hdr page off)) (hoff : off < 0x40)
    (haligned : off % 4 = 0) (v : Nat) :
    s.write32 rq (hdr page off) v = (s.crossReg rq (hdr page off) true).writeHeader rq page off (BitVec.ofNat 32 v) := by
  have hpage : hdr page off / 0x1000 = page := by unfold hdr; omega
  have hthawed := page_crossReg_frozen_of_admits h
  rw [hpage] at hthawed
  exact (write32_of_admits h (by unfold hdr; omega) v).trans (performWrite_header hoff hthawed rq _)

end State
end Sys2Proof.Machine
end

section
/-! Writes of block registers: what is stored and what is commanded. -/

namespace Sys2Proof.Machine

/-- A list without duplicates falls apart at each of its members. -/
theorem exists_append_ne_of_nodup {l : List Nat} {j : Nat} (hnodup : l.Nodup) (hj : j ∈ l) :
    ∃ as bs, l = as ++ j :: bs ∧ (∀ k ∈ as, k ≠ j) ∧ ∀ k ∈ bs, k ≠ j := by
  obtain ⟨as, bs, rfl⟩ := List.append_of_mem hj
  obtain ⟨-, hnodup, hbefore⟩ := List.nodup_append.mp hnodup
  exact ⟨as, bs, rfl, fun k hk => hbefore k hk j List.mem_cons_self, fun k hk h => (List.nodup_cons.mp hnodup).1 (h ▸ hk)⟩

theorem foldl_eq_of_fixed {σ : Type} (f : σ → Nat → σ) (t : σ) (ks : List Nat) (h : ∀ k ∈ ks, f t k = t) : ks.foldl f t = t := by
  induction ks with
  | nil => rfl
  | cons k ks ih =>
    rw [List.foldl_cons, h k (by simp)]
    exact ih fun k hk => h k (List.mem_cons_of_mem _ hk)

/-- Two folds whose steps agree on every member of the list end in the same state. -/
theorem foldl_eq_of_steps_eq {σ β : Type} {f g : σ → β → σ} {xs : List β} (h : ∀ t, ∀ x ∈ xs, f t x = g t x) (s : σ) :
    xs.foldl f s = xs.foldl g s := by
  induction xs generalizing s with
  | nil => rfl
  | cons x xs ih =>
    rw [List.foldl_cons, List.foldl_cons, h s x List.mem_cons_self]
    exact ih (fun t y hy => h t y (List.mem_cons_of_mem _ hy)) _

/-- A fold whose steps do nothing but at one index of its list ends in what that step does. -/
theorem foldl_eq_of_fixed_off {σ : Type} (f : σ → Nat → σ) (s : σ) {l : List Nat} {j : Nat} (hnodup : l.Nodup) (hj : j ∈ l)
    (hbefore : ∀ k, k ≠ j → f s k = s) (hafter : ∀ k, k ≠ j → f (f s j) k = f s j) : l.foldl f s = f s j := by
  obtain ⟨as, bs, rfl, has, hbs⟩ := exists_append_ne_of_nodup hnodup hj
  rw [List.foldl_append, List.foldl_cons, foldl_eq_of_fixed f s as fun k hk => hbefore k (has k hk),
    foldl_eq_of_fixed f (f s j) bs fun k hk => hafter k (hbs k hk)]

theorem pageOf_of_fabs {page : Nat} (hlo : 0x1000 ≤ page) (hhi : page < 0x3000) (h : (page - 0x1000) % 0x80 = 0) :
    pageOf page = some (.fabs, (page - 0x1000) / 0x80) := by
  unfold pageOf
  simp (disch := omega) only [if_neg]
  rw [if_pos hhi, if_pos h]

theorem fieldsOf_fabs {page : Nat} (hlo : 0x1000 ≤ page) (hhi : page < 0x3000) (h : (page - 0x1000) % 0x80 = 0) :
    fieldsOf page = fields_fabs := by rw [fieldsOf, pageOf_of_fabs hlo hhi h]

theorem pageNo_of_lt {addr : Nat} (h : addr < 0x100000000) : pageNo addr = addr / 0x1000 := if_pos h

/-- The field of a segment's line pulses (R114). -/
def linePulseField : Field := ⟨"FABS_LINE_PULSE.set", 0x1A4, 1, 0, 19, 0, .w1s, 0, .live, .any⟩

theorem fieldsAt_linePulse {page : Nat} (hlo : 0x1000 ≤ page) (hhi : page < 0x3000) (h : (page - 0x1000) % 0x80 = 0) :
    fieldsAt page 0x1A4 = [linePulseField] := by
  rw [fieldsAt, fieldsOf_fabs hlo hhi h]
  decide +kernel

namespace State

/-- No pin stands between a write and its register outside the GPIO pages. -/
theorem pinDenied_eq_zero (s : State) (rq : Requester) {addr : Nat} (v : Word) (h4 : pageNo addr ≠ 4) (h5 : pageNo addr ≠ 5) :
    s.pinDenied rq addr v = 0 := by
  simp [pinDenied, h4, h5]

/-- A value is refused by STEPCLK's register and by pin selections only. -/
theorem valueFault_eq_none (s : State) (f : Field) {addr : Nat} (v : Nat) (hclk : addr ≠ PageKind.clk.at 0x40)
    (h5 : pageNo addr ≠ 5) : s.valueFault f addr v = none := by
  simp [valueFault, hclk, h5]

/-- A write of a register whose one field is a live command field stores nothing and takes effect in that field. -/
theorem storeWord_command {s : State} {rq : Requester} {addr : Nat} {v : Word} {f : Field}
    (hline : lineOf addr = none) (hoff : addr % 0x1000 ≠ 0x44) (hdenied : s.pinDenied rq addr v = 0)
    (hfield : fieldsAt (pageNo addr) (addr % 0x1000) = [f]) (heff : f.eff = .live) (hacc : f.acc = .wo ∨ f.acc = .w1s)
    (hlegal : f.legal.ok (natBits v.toNat f.hi f.lo) = true) (hvalue : ∀ n, s.valueFault f addr n = none)
    (hpin : pageNo addr ≠ 4) :
    s.storeWord rq addr v = (s, fieldMask [f]) := by
  have hall : ∀ m : Word, m &&& 4294967295#32 = m := fun _ => BitVec.and_allOnes
  unfold storeWord
  simp only [hfield, hline, hdenied]
  cases s.pageJob (pageNo addr) <;> rcases hacc with hacc | hacc <;>
    simp [hacc, heff, hlegal, hvalue, hpin, hoff, hall, heldFields, fieldMask]

/-- A word written to a block register of a page that is not frozen: what it stores, and then what it commands. -/
theorem performWrite_block {s : State} {rq : Requester} {addr : Nat} {v : Word} (hoff : 0x40 ≤ addr % 0x1000)
    (hmbox : addr / 0x1000 ≠ 0xC) (hthawed : (s.page (addr / 0x1000)).frozen = false) :
    s.performWrite rq addr v =
      (s.storeWord rq addr v).1.commandEffect rq addr (v &&& (s.storeWord rq addr v).2) (s.reg addr) := by
  have hkey : regKey rq addr = addr := if_neg fun h => hmbox h.1
  simp [performWrite, freezeHolds, hthawed, hkey, Nat.not_lt.mpr hoff]

theorem fabsAt_page {g : Nat} (hg : g < 64) {off : Nat} (hoff : off < 0x1000) :
    fabsAt g off / 0x1000 = 0x1000 + g * 0x80 ∧ fabsAt g off % 0x1000 = off ∧ fabsAt g off < 0x2FFFFFF := by
  unfold fabsAt; omega

/-- A write of the line pulses of a segment's page adds its pulse bits (R114). -/
theorem performWrite_linePulse {s : State} {rq : Requester} {addr : Nat} {v : Word} (hlo : 0x1000 ≤ addr / 0x1000)
    (hhi : addr / 0x1000 < 0x3000) (hseg : (addr / 0x1000 - 0x1000) % 0x80 = 0) (hoff : addr % 0x1000 = 0x1A4)
    (hthawed : (s.page (addr / 0x1000)).frozen = false) :
    s.performWrite rq addr v = s.setReg addr (s.reg addr ||| (v &&& 0xFFFFF)) := by
  have hpage : pageNo addr = addr / 0x1000 := pageNo_of_lt (by omega)
  have hclk : addr ≠ PageKind.clk.at 0x40 := by unfold PageKind.at PageKind.base; omega
  have h4 : pageNo addr ≠ 4 := by omega
  have h5 : pageNo addr ≠ 5 := by omega
  have hline : lineOf addr = none := by simp [lineOf, hoff]
  have hfield : fieldsAt (pageNo addr) (addr % 0x1000) = [linePulseField] := by
    rw [hpage, hoff, fieldsAt_linePulse hlo hhi hseg]
  have hstore := storeWord_command hline (by omega) (s.pinDenied_eq_zero rq v h4 h5) hfield rfl (.inr rfl) rfl
    (fun n => s.valueFault_eq_none _ n hclk h5) h4
  rw [performWrite_block (by omega) (by omega) hthawed, hstore]
  simp only [commandEffect, hpage, pageOf_of_fabs hlo hhi hseg, hoff]
  rfl

/-- LINE_PULSE adds the pulse bits of its word (R114). -/
theorem write32_linePulse {s : State} {rq : Requester} {g : Nat} (h : s.Admits rq (fabsAt g 0x1A4)) (hg : g < 64) (v : Word) :
    s.write32 rq (fabsAt g 0x1A4) v.toNat = (s.crossReg rq (fabsAt g 0x1A4) true).setReg (fabsAt g 0x1A4)
      (s.reg (fabsAt g 0x1A4) ||| (v &&& 0xFFFFF)) := by
  obtain ⟨hpage, hoff, -⟩ := fabsAt_page hg (show 0x1A4 < 0x1000 by decide)
  have hthawed := page_crossReg_frozen_of_admits h
  rw [write32_of_admits h (by omega), BitVec.ofNat_toNat, BitVec.setWidth_eq,
    performWrite_linePulse (by omega) (by omega) (by omega) hoff hthawed, reg_crossReg]

end State
end Sys2Proof.Machine
end

section
/-! The page header and its rows. -/

namespace Sys2Proof.Machine
namespace State

/-! ### The header registers (R39) -/

theorem hdr_ne_hdr {page off off' : Nat} (h : off ≠ off') : hdr page off ≠ hdr page off' := by
  unfold hdr; omega

/-- A PG_IRQ word clears the bits written as 1; without bit 0 nothing else changes. -/
theorem writeHeader_irqClear (s : State) (rq : Requester) {page : Nat} {v : Word} (hpage : page ≠ 7) (hbit : v.getLsbD 0 = false) :
    s.writeHeader rq page 0x10 v = s.setReg (hdr page 0x10) (s.reg (hdr page 0x10) &&& ~~~v) := by
  have hbit' : natBit v.toNat 0 = false := hbit
  simp [writeHeader, hpage, hbit']

/-- A PG_IRQ word with bit 0 clears PG_ERR and PG_ERR_INFO too. -/
theorem reg_writeHeader_irqClear_err (s : State) (rq : Requester) {page : Nat} {v : Word} (hpage : page ≠ 0)
    (hbit : v.getLsbD 0 = true) : (s.writeHeader rq page 0x10 v).reg (hdr page 0x10) = s.reg (hdr page 0x10) &&& ~~~v ∧
      (s.writeHeader rq page 0x10 v).reg (hdr page 0x1C) = 0 ∧ (s.writeHeader rq page 0x10 v).reg (hdr page 0x20) = 0 := by
  have hbit' : natBit v.toNat 0 = true := hbit
  have htime : hdr page 0x10 ≠ PageKind.time.at 0x64 := by unfold hdr PageKind.at PageKind.base; omega
  have htimer : ∀ (c : Prop) [Decidable c] (t : State),
      (if c then t.setFlag (PageKind.time.at 0x64) 2 false else t).reg (hdr page 0x10) = t.reg (hdr page 0x10) := by
    intro c _ t
    split
    · rw [reg_setFlag, if_neg htime]
    · rfl
  simp [writeHeader, hbit', hpage, htimer, hdr_ne_hdr]

/-- PG_IRQ_SET with one bit raises that cause. -/
theorem writeHeader_irqSet (s : State) (rq : Requester) (page : Nat) {i : Nat} (hi : i < 32) :
    s.writeHeader rq page 0x18 (BitVec.ofNat 32 (2 ^ i)) = s.raiseIrq page i := by
  have hbit : ∀ k, natBit (BitVec.ofNat 32 (2 ^ i)).toNat k = decide (k = i) := by
    intro k
    have hlt : 2 ^ i < 2 ^ 32 := Nat.pow_lt_pow_right (by decide) hi
    rw [natBit, BitVec.toNat_ofNat, Nat.mod_eq_of_lt hlt, Nat.testBit_two_pow]
    exact decide_eq_decide.mpr eq_comm
  have hstep : ∀ (t : State) k, (if natBit (BitVec.ofNat 32 (2 ^ i)).toNat k then t.raiseIrq page k else t) =
      if k = i then t.raiseIrq page k else t := fun t k => by rw [hbit]; simp only [decide_eq_true_eq]
  have hfold := foldl_eq_of_fixed_off (fun (t : State) k => if k = i then t.raiseIrq page k else t) s List.nodup_range
    (List.mem_range.mpr hi) (fun k hk => if_neg hk) (fun k hk => if_neg hk)
  rw [if_pos rfl] at hfold
  simp only [writeHeader, hstep]
  exact hfold

/-- A referee's control changes that referee only. -/
theorem refControl_eq (s : State) (n : Nat) (want : RefState) : ∃ rs, s.refControl n want = { s with refs := rs } := by
  unfold refControl
  dsimp only
  split <;> exact ⟨_, rfl⟩

theorem refControl_regs (s : State) (n : Nat) (want : RefState) : (s.refControl n want).regs = s.regs := by
  obtain ⟨rs, h⟩ := s.refControl_eq n want
  rw [h]

/-- PG_CTL written without soft_reset, on a page that no live job locks: enable and freeze_on_halt as written (R36). -/
theorem flag_writeCtl (s : State) (rq : Requester) {page : Nat} {v : Word} (hreset : natBit v.toNat 1 = false)
    (h : natBit v.toNat 0 = true ∨ page < 0x1000) :
    (s.writeCtl rq page v).flag (hdr page 8) 0 = natBit v.toNat 0 ∧
      (s.writeCtl rq page v).flag (hdr page 8) 2 = natBit v.toNat 2 := by
  have hregs : (s.writeCtl rq page v).regs =
      ((s.setFlag (hdr page 8) 2 (natBit v.toNat 2)).setFlag (hdr page 8) 0 (natBit v.toNat 0)).regs := by
    simp only [writeCtl, hreset]
    rw [if_neg (by decide), if_neg]
    · split
      · exact refControl_regs ..
      · rfl
    · rcases h with hen | hpage
      · simp [hen]
      · have hfree : ∀ t : State, t.pageJob page = none := fun t => if_neg (by omega)
        simp [hfree]
  have hflag : ∀ i, (s.writeCtl rq page v).flag (hdr page 8) i =
      ((s.setFlag (hdr page 8) 2 (natBit v.toNat 2)).setFlag (hdr page 8) 0 (natBit v.toNat 0)).flag (hdr page 8) i := fun i => by
    simp only [flag, reg, hregs]
  simp [hflag, flag_setFlag]

/-! ### The reset of a page (R11) -/

/-- What an update of a list of calls changes lies outside the register file. -/
@[simp] theorem mapCalls_regs (s : State) (f : Call → Call) : (s.mapCalls f).regs = s.regs := rfl

theorem foldl_regs (f : State → Nat → State) (h : ∀ t n, (f t n).regs = t.regs) (ns : List Nat) (s : State) :
    (ns.foldl f s).regs = s.regs := by
  induction ns generalizing s with
  | nil => rfl
  | cons n ns ih => rw [List.foldl_cons, ih, h]

/-- A job's protection reset with no command waiting: no register changes, and still no command waits. -/
theorem protReset_regs {s : State} (h : s.theham.waiting = []) (j : Nat) :
    (s.protReset j).regs = s.regs ∧ (s.protReset j).theham.waiting = [] := by
  unfold protReset
  dsimp only
  split
  · exact ⟨rfl, h⟩
  · simp [finish, freeHbm, h]

theorem foldl_protReset_regs {s : State} (h : s.theham.waiting = []) (js : List Nat) :
    (js.foldl State.protReset s).regs = s.regs := by
  induction js generalizing s with
  | nil => rfl
  | cons j js ih => rw [List.foldl_cons, ih (protReset_regs h j).2, (protReset_regs h j).1]

/-- The reset of a page's block changes no register; that of a CKPT page, where no command waits for it. -/
theorem resetBlock_regs (s : State) (page : Nat) (h : ∀ i, pageOf page = some (.ckpt, i) → s.theham.waiting = []) :
    (s.resetBlock page).regs = s.regs := by
  unfold resetBlock
  split
  case h_1 | h_2 | h_3 | h_5 | h_7 | h_9 | h_11 | h_12 | h_13 | h_14 | h_15 | h_16 => rfl
  case h_4 => exact ite_regs rfl (ite_regs rfl rfl)
  case h_6 i hpage =>
    have hjobs := foldl_protReset_regs (h i hpage) ((List.range 8).map fun n => (i - 1) * 8 + n)
    rw [List.foldl_map] at hjobs
    exact ite_regs rfl hjobs
  case h_8 => exact ite_regs rfl rfl
  case h_10 => exact foldl_regs State.loseRing (fun t fn => mapCalls_regs t (Call.leave fn)) (List.range 64) s

/-- The registers after the reset of a page that no transaction holds: PG_OWNER kept, the page's others at their Reset column, those
of other pages as they were (R11). -/
theorem reg_resetPage {s : State} {page : Nat} (hdev : page ≠ 0) (hmbox : page ≠ 0xC) (htxn : s.txnOf page = none)
    (hckpt : ∀ i, pageOf page = some (.ckpt, i) → s.theham.waiting = []) (a : Nat) :
    (s.resetPage page).reg a =
      if a = hdr page 0x38 ∨ a / 0x1000 ≠ page then s.reg a else resetWord a := by
  have hregs : (s.resetPage page).regs = (({ s with regs := s.regs.filter (fun e =>
      !(decide (page * 0x1000 ≤ e.1) && decide (e.1 < page * 0x1000 + 0x1000))) } : State).setReg (hdr page 0x38)
        (s.reg (hdr page 0x38))).regs := by
    simp only [resetPage, htxn, if_neg hdev, beq_eq_false_iff_ne.mpr hmbox, Bool.false_and, Bool.not_false, Bool.and_true]
    refine (resetBlock_regs _ page ?_).trans (setPage_regs ..)
    exact hckpt
  have hfilter := Sparse.get_filter (0 : Word) s.regs
    (fun k => !(decide (page * 0x1000 ≤ k) && decide (k < page * 0x1000 + 0x1000))) a
  rw [reg, hregs, ← reg, reg_setReg]
  by_cases howner : a = hdr page 0x38
  · rw [if_pos howner, if_pos (.inl howner), howner]
  · rw [if_neg howner, reg, hfilter]
    by_cases hin : a / 0x1000 = page
    · rw [if_neg (by simp; omega), if_neg (by simp [howner, hin])]
      simp
    · rw [if_pos (by simp; omega), if_pos (.inr hin), reg]

theorem txnOf_crossReg (s : State) (rq : Requester) (addr : Nat) (write : Bool) (page : Nat) :
    (s.crossReg rq addr write).txnOf page = s.txnOf page := by
  obtain ⟨n, hn⟩ := s.crossReg_eq rq addr write
  rw [hn]; rfl

theorem crossReg_theham (s : State) (rq : Requester) (addr : Nat) (write : Bool) :
    (s.crossReg rq addr write).theham = s.theham := by
  obtain ⟨n, hn⟩ := s.crossReg_eq rq addr write
  rw [hn]

end State

/-! ### The rows -/

/-- SOFT_RESET of a page (R11). -/
theorem softReset_reg {s : State} {rq : Requester} {page : Nat} (h : s.Admits rq (hdr page 8)) (hdev : page ≠ 0)
    (hmbox : page ≠ 0xC) (htxn : s.txnOf page = none) (hckpt : ∀ i, pageOf page = some (.ckpt, i) → s.theham.waiting = []) :
    ∃ t, exec (.softReset rq page) s = .next t ∧
      ∀ a, t.reg a = if a = hdr page 0x38 ∨ a / 0x1000 ≠ page then s.reg a else resetWord a := by
  refine ⟨_, congrArg Host.Outcome.next (State.write32_header h (by decide) (by decide) 2), fun a => ?_⟩
  have hreset := State.reg_resetPage (s := s.crossReg rq (hdr page 8) true) hdev hmbox
    ((s.txnOf_crossReg ..).trans htxn) (by rwa [State.crossReg_theham]) a
  rw [State.reg_crossReg] at hreset
  exact hreset

/-- PG_ENABLE_WRITE on a page that no live job locks (R36). -/
theorem pgEnableWrite_flag {s : State} {rq : Requester} {page : Nat} {en : Bool} (h : s.Admits rq (hdr page 8))
    (hen : en = true ∨ page < 0x1000) :
    ∃ t, exec (.pgEnableWrite rq page en) s = .next t ∧ t.pgEnabled page = en ∧
      t.flag (hdr page 8) 2 = s.flag (hdr page 8) 2 := by
  obtain ⟨h0, h1, h2⟩ : natBit (BitVec.ofNat 32 (boolNat en + 4 * boolNat (s.flag (hdr page 8) 2))).toNat 0 = en ∧
      natBit (BitVec.ofNat 32 (boolNat en + 4 * boolNat (s.flag (hdr page 8) 2))).toNat 1 = false ∧
      natBit (BitVec.ofNat 32 (boolNat en + 4 * boolNat (s.flag (hdr page 8) 2))).toNat 2 = s.flag (hdr page 8) 2 := by
    cases en <;> cases s.flag (hdr page 8) 2 <;> decide
  have hwrite := State.write32_header h (by decide) (by decide) (boolNat en + 4 * boolNat (s.flag (hdr page 8) 2))
  have hctl := State.flag_writeCtl (s.crossReg rq (hdr page 8) true) rq h1 (h0.symm ▸ hen)
  rw [h0, h2] at hctl
  exact ⟨_, congrArg Host.Outcome.next hwrite, hctl⟩

/-- A header row whose word is `v`: the write of that word. -/
theorem write32_header_word {s : State} {rq : Requester} {page off : Nat} (h : s.Admits rq (hdr page off)) (hoff : off < 0x40)
    (haligned : off % 4 = 0) (v : Word) :
    s.write32 rq (hdr page off) v.toNat = (s.crossReg rq (hdr page off) true).writeHeader rq page off v := by
  rw [State.write32_header h hoff haligned, BitVec.ofNat_toNat, BitVec.setWidth_eq]

/-- Settles O17: a header row is the write of its word to the header, and each effect is read off that header's rule. -/
theorem pageHeaderRows : Obligations.PageHeaderRows := by
  refine ⟨?_, fun s rq page en h hen => pgEnableWrite_flag h hen, ?_, ?_, ?_, ?_⟩
  · intro s rq page h hdev hmbox htxn hckpt
    obtain ⟨t, hexec, hreg⟩ := softReset_reg h hdev hmbox htxn hckpt
    have hin : ∀ off, off < 0x1000 → hdr page off / 0x1000 = page := fun off hoff => by unfold hdr; omega
    refine ⟨t, hexec, ?_, fun off hoff hne => ?_, fun a ha => ?_⟩
    · rw [hreg, if_pos (.inl rfl)]
    · rw [hreg, if_neg (by simp [hin off hoff, State.hdr_ne_hdr hne])]
    · rw [hreg, if_pos (.inr ha)]
  · intro s rq page v h hpage hbit
    refine congrArg Host.Outcome.next ((write32_header_word h (by decide) (by decide) v).trans ?_)
    rw [State.writeHeader_irqClear _ rq hpage hbit, State.reg_crossReg]
  · intro s rq page v h hpage hbit
    refine ⟨_, congrArg Host.Outcome.next (write32_header_word h (by decide) (by decide) v), ?_⟩
    have hcleared := State.reg_writeHeader_irqClear_err (s.crossReg rq (hdr page 0x10) true) rq hpage hbit
    rw [State.reg_crossReg] at hcleared
    exact hcleared
  · intro s rq page i h hi
    refine congrArg Host.Outcome.next ((write32_header_word h (by decide) (by decide) _).trans ?_)
    exact State.writeHeader_irqSet _ rq page hi
  · exact fun s rq g v h hg => congrArg Host.Outcome.next (State.write32_linePulse h hg v)

end Sys2Proof.Machine
end

section
/-! Events, interrupts, debug events and the package halt: which registers they leave alone. -/

namespace Sys2Proof.Machine

theorem forall_mem_ite {α : Type} {c : Prop} [Decidable c] {x y : Option α} {p : α → Prop} (hx : c → ∀ e ∈ x, p e)
    (hy : ¬c → ∀ e ∈ y, p e) : ∀ e ∈ (if c then x else y), p e := by
  split
  · exact hx ‹_›
  · exact hy ‹_›

/-- No kind of page has more than 128 instances (R35). -/
theorem pageOf_index_lt (page : Nat) : ∀ e ∈ pageOf page, e.2 < 128 := by
  unfold pageOf
  dsimp only
  repeat' refine forall_mem_ite (fun _ => ?_) (fun _ => ?_)
  all_goals rintro _ ⟨⟩
  all_goals dsimp only; omega

/-- The event controller has 512 sources (R425). -/
theorem pageSource_lt (page : Nat) : ∀ src ∈ pageSource page, src < 512 := by
  have hindex := pageOf_index_lt page
  have hpage : (pageOf page).isSome → page < 0x3000 := fun hsome => by
    refine Nat.lt_of_not_le fun hge => ?_
    rw [pageOf_eq_none_of_le (by omega)] at hsome
    cases hsome
  unfold pageSource
  split <;> rintro _ ⟨⟩
  all_goals simp_all
  all_goals omega

namespace State

/-! ### Events and interrupts touch the event controller's page only -/

/-- The pending word of an event source lies in the EVT page (R430). -/
theorem pendingAt_page {source : Nat} (h : source < 0x7E00) : PageKind.evt.at (0x40 + 4 * (source / 32)) / 0x1000 = 0xD := by
  have hat : PageKind.evt.at (0x40 + 4 * (source / 32)) = 0xD000 + (0x40 + 4 * (source / 32)) := rfl
  rw [hat]; omega

section
variable {a : Nat}

theorem reg_ite (c : Prop) [Decidable c] (s t : State) : (if c then s else t).reg a = if c then s.reg a else t.reg a := by
  split <;> rfl

theorem reg_ucInterrupt (s : State) (source prio : Nat) : (s.ucInterrupt source prio).reg a = s.reg a := by
  rw [reg, reg, ucInterrupt_regs]

theorem reg_raiseEvent (ha : a / 0x1000 ≠ 0xD) {source : Nat} (hsource : source < 0x7E00) (s : State) (code job sev : Nat)
    (detail : List Word) : (s.raiseEvent source code job sev detail).reg a = s.reg a := by
  have hne : a ≠ PageKind.evt.at (0x40 + 4 * (source / 32)) := fun h => ha (h ▸ pendingAt_page hsource)
  unfold raiseEvent
  simp only [reg_ite, reg_ucInterrupt, reg_msix, reg_setFlag, if_neg hne, reg_logEvent, ite_self]

theorem reg_event (ha : a / 0x1000 ≠ 0xD) {source : Nat} (hsource : source < 0x7E00) (s : State) (code job : Nat)
    (detail : List Word) : (s.event source code job detail).reg a = s.reg a := reg_raiseEvent ha hsource ..

theorem reg_thehamEvent (ha : a / 0x1000 ≠ 0xD) (s : State) (code : Nat) (detail : List Word) :
    (s.thehamEvent code detail).reg a = s.reg a := by
  have hsource : thehamSource code < 0x7E00 := by
    have := (Config.sourceIndex code).isLt
    unfold thehamSource; omega
  exact reg_event ha hsource ..

/-- A raised cause sets its bit of the page's PG_IRQ_STAT and may raise the page's event. -/
theorem reg_raiseIrq (ha : a / 0x1000 ≠ 0xD) (s : State) (page bit : Nat) :
    (s.raiseIrq page bit).reg a = (s.setFlag (hdr page 0x10) bit true).reg a := by
  unfold raiseIrq
  dsimp only
  split
  · split
    next src hsrc => exact reg_event ha (by have := pageSource_lt page src hsrc; omega) ..
    next => rfl
  · rfl

theorem reg_bump (s : State) (addr hi lo n : Nat) (h : a ≠ addr) : (s.bump addr hi lo n).reg a = s.reg a :=
  (reg_setFld ..).trans (if_neg h)

end

/-! ### What a debug event and the package halt leave alone (R466, R469–R471) -/

/-- `t` differs from `s` by the halt requests of jobs, frozen pages, and the debug domain: registers of the DBG and TRACE pages, the
user core and the trace encoder. -/
structure DebugFrame (s t : State) : Prop where
  reg    : ∀ a, a / 0x1000 ≠ 0xA → a / 0x1000 ≠ 0xB → t.reg a = s.reg a
  trip   : t.pins.trip = s.pins.trip
  jobs   : s.jobs = [] → t.jobs = []
  fab    : t.fab = s.fab
  hbm    : t.hbm = s.hbm
  disp   : t.disp = s.disp
  theham : t.theham = s.theham
  halted : s.pkgHalt = true → t.pkgHalt = true

namespace DebugFrame
variable {s t u : State}

theorem refl (s : State) : DebugFrame s s := ⟨fun _ _ _ => rfl, rfl, id, rfl, rfl, rfl, rfl, id⟩

theorem trans (h : DebugFrame s t) (k : DebugFrame t u) : DebugFrame s u :=
  ⟨fun a ha hb => (k.reg a ha hb).trans (h.reg a ha hb), k.trip.trans h.trip, k.jobs ∘ h.jobs, k.fab.trans h.fab,
    k.hbm.trans h.hbm, k.disp.trans h.disp, k.theham.trans h.theham, k.halted ∘ h.halted⟩

theorem ite {c : Prop} [Decidable c] (ht : DebugFrame s t) (hu : DebugFrame s u) : DebugFrame s (if c then t else u) := by
  split <;> assumption

theorem foldl {f : State → Nat → State} (h : ∀ s n, DebugFrame s (f s n)) (ns : List Nat) (s : State) :
    DebugFrame s (ns.foldl f s) := by
  induction ns generalizing s with
  | nil => exact refl s
  | cons n ns ih => exact (h s n).trans (ih (f s n))

/-- A register of the DBG or TRACE page written. -/
theorem setReg (s : State) {addr : Nat} (h : addr / 0x1000 = 0xA ∨ addr / 0x1000 = 0xB) (v : Word) :
    DebugFrame s (s.setReg addr v) where
  reg a ha hb := by rw [reg_setReg, if_neg (by rintro rfl; exact h.elim ha hb)]
  trip := rfl
  jobs := id
  fab := rfl
  hbm := rfl
  disp := rfl
  theham := rfl
  halted := id

theorem setFld (s : State) {addr : Nat} (h : addr / 0x1000 = 0xA ∨ addr / 0x1000 = 0xB) (hi lo v : Nat) :
    DebugFrame s (s.setFld addr hi lo v) := setReg s h _

theorem setFlag (s : State) {addr : Nat} (h : addr / 0x1000 = 0xA ∨ addr / 0x1000 = 0xB) (i : Nat) (v : Bool) :
    DebugFrame s (s.setFlag addr i v) := setReg s h _

theorem bump (s : State) {addr : Nat} (h : addr / 0x1000 = 0xA ∨ addr / 0x1000 = 0xB) (hi lo n : Nat) :
    DebugFrame s (s.bump addr hi lo n) := setReg s h _

/-- Only the trace encoder's own state, or the user core's, changed. -/
theorem of_trace_dbg (s : State) (x : Trace) (d : Debug) : DebugFrame s { s with trace := x, dbg := d } :=
  ⟨fun _ _ _ => rfl, rfl, id, rfl, rfl, rfl, rfl, id⟩

end DebugFrame

section
variable (s : State)

theorem tracePut_frame (us : List (BitVec 16)) : DebugFrame s (s.tracePut us) :=
  .ite (.of_trace_dbg s _ s.dbg) (.of_trace_dbg s _ s.dbg)

theorem tracePacket_frame (us : List (BitVec 16)) : DebugFrame s (s.tracePacket us) :=
  .ite ((s.tracePut_frame us).trans (.of_trace_dbg _ _ (s.tracePut us).dbg)) (s.tracePut_frame us)

theorem traceSyncAfter_frame (fills : Nat) (pc : Word) (mode : Nat) : DebugFrame s (s.traceSyncAfter fills pc mode) :=
  (s.tracePut_frame _).trans (.of_trace_dbg _ _ (State.dbg _))

theorem traceResync_frame (pc : Word) (mode : Nat) : DebugFrame s (s.traceResync pc mode) :=
  .ite (s.traceSyncAfter_frame ..) (.refl s)

theorem traceClose_frame : DebugFrame s s.traceClose := by
  unfold traceClose
  split
  · exact .refl s
  · exact (s.tracePacket_frame _).trans (.of_trace_dbg _ _ (State.dbg _))

theorem traceMark_frame (source : Nat) : DebugFrame s (s.traceMark source) :=
  ((s.traceResync_frame ..).trans (traceClose_frame _)).trans (tracePacket_frame ..)

theorem traceTriggered_frame (source : Nat) : DebugFrame s (s.traceTriggered source) :=
  .ite (.ite (((s.traceMark_frame source).trans (.setFld _ (.inr rfl) ..)).trans (.of_trace_dbg _ _ (State.dbg _)))
    (s.traceMark_frame source)) (.refl s)

theorem monitorEnter_frame (cause index : Nat) (pc : Word) (mode : Nat) : DebugFrame s (s.monitorEnter cause index pc mode) := by
  have hpc := DebugFrame.setReg s (addr := dbgAt 0x5C) (.inl rfl) pc
  have hcause := hpc.trans (.setReg _ (addr := dbgAt 0x60) (.inl rfl) (BitVec.ofNat 32 (cause % 16 + index % 4 * 2 ^ 4 + mode % 4 * 2 ^ 8)))
  have hmonitor := hcause.trans (.setFlag _ (addr := dbgAt 0x44) (.inl rfl) 3 true)
  exact (hmonitor.trans (.of_trace_dbg _ (State.trace _) _)).trans
    (.ite ((traceTriggered_frame _ 0).trans (.ite (.bump _ (.inl rfl) ..) (.refl _))) (.refl _))

/-- A job that is not live is not asked to halt. -/
theorem requestHalt_of_not_live {j : Nat} (h : (s.job j).live = false) (why : HaltWhy) : s.requestHalt j why = s := by
  simp [requestHalt, h]

theorem requestHalt_frame (j : Nat) (why : HaltWhy) : DebugFrame s (s.requestHalt j why) := by
  by_cases hlive : (s.job j).live = true
  · have hjobs : s.jobs ≠ [] := fun h => by simp [job, h, Job.live] at hlive
    have hset : ∀ x, DebugFrame s (s.setJob j x) := fun x =>
      ⟨fun a _ _ => reg_setJob s j x a, rfl, fun h => absurd h hjobs, rfl, rfl, rfl, rfl, id⟩
    exact .ite (.ite (hset _) (hset _)) (.refl s)
  · rw [requestHalt_of_not_live s (by simpa using hlive)]
    exact .refl s

theorem refControl_frame (n : Nat) (want : RefState) : DebugFrame s (s.refControl n want) := by
  obtain ⟨rs, h⟩ := s.refControl_eq n want
  rw [h]
  exact ⟨fun _ _ _ => rfl, rfl, id, rfl, rfl, rfl, rfl, id⟩

theorem setPage_frame (page : Nat) (d : PageDyn) : DebugFrame s (s.setPage page d) :=
  ⟨fun a _ _ => reg_setPage s page d a, rfl, id, rfl, rfl, rfl, rfl, id⟩

theorem holdPins_frame : DebugFrame s s.holdPins := ⟨fun _ _ _ => rfl, rfl, id, rfl, rfl, rfl, rfl, id⟩

theorem freezeAll_frame : DebugFrame s s.freezeAll :=
  .foldl (fun t _ => .ite (((DebugFrame.ite t.holdPins_frame (.refl t)).trans (setPage_frame ..)).trans
    (.ite (refControl_frame ..) (.refl _))) (.refl t)) freezePages s

theorem haltPackage_frame (why : HaltWhy) : DebugFrame s (s.haltPackage why) := by
  have hasked := DebugFrame.foldl (fun t j => t.requestHalt_frame j why) (List.range 64) s
  have hmarked : ∀ t : State, DebugFrame t (if t.pkgHalt then t else t.setFlag (dbgAt 0x4C) 2 (why == .whistle)) :=
    fun t => .ite (.refl t) (.setFlag t (.inl rfl) ..)
  have hentered : ∀ t : State, DebugFrame t { t with pkgHalt := true } := fun t =>
    ⟨fun _ _ _ => rfl, rfl, id, rfl, rfl, rfl, rfl, fun _ => rfl⟩
  exact ((hasked.trans (hmarked _)).trans (freezeAll_frame _)).trans (hentered _)

theorem debugEvent_frame (cause index : Nat) (pc : Word) (mode : Nat) : DebugFrame s (s.debugEvent cause index pc mode) := by
  have hignored : ∀ t : State, DebugFrame t t.ignoreDebugEvent := fun t => .bump t (.inl rfl) ..
  exact .ite (.refl s) (.ite ((s.monitorEnter_frame ..).trans (.ite ((haltPackage_frame ..).trans
    (.ite (hignored _) (.refl _))) (.refl _))) (hignored s))

theorem packageHalt_frame (why : HaltWhy) : DebugFrame s (s.packageHalt why) :=
  (s.haltPackage_frame why).trans (.ite (.ite (.of_trace_dbg _ (State.trace _) _) (debugEvent_frame ..)) (.refl _))

theorem packageHalt_pkgHalt (why : HaltWhy) : (s.packageHalt why).pkgHalt = true := by
  have hhalted : (s.haltPackage why).pkgHalt = true := rfl
  exact (DebugFrame.ite (.ite (.of_trace_dbg _ (State.trace _) _) (debugEvent_frame ..)) (.refl (s.haltPackage why))).halted hhalted

end
end State
end Sys2Proof.Machine
end

section
/-! The whistle and the counting of PLL losses. -/

namespace Sys2Proof.Machine
namespace State

section
variable {s t : State} {a : Nat}

theorem flag_eq_of_reg_eq (h : t.reg a = s.reg a) (i : Nat) : t.flag a i = s.flag a i := by rw [flag, flag, h]

theorem fld_eq_of_reg_eq (h : t.reg a = s.reg a) (hi lo : Nat) : t.fld a hi lo = s.fld a hi lo := by rw [fld, fld, h]

end

/-! ### The whistle (R374) -/

section
variable (s : State) (source : Nat)

/-- An assertion of the whistle that finds it silent sets it, counts and halts the package; a further one sets its source bit only. -/
theorem assertWhistle_cases :
    (s.flag whistleReg 0 = true ∧
      s.assertWhistle source = if source = 0 then s else s.setFlag whistleReg source true) ∨
    (s.flag whistleReg 0 = false ∧ s.assertWhistle source =
      (((if source = 0 then s else s.setFlag whistleReg source true).setFlag whistleReg 0 true).scoreAdd 3876 1).packageHalt .whistle) := by
  by_cases hon : s.flag whistleReg 0 = true
  · exact .inl ⟨hon, by simp [assertWhistle, hon]⟩
  · exact .inr ⟨by simpa using hon, by simp [assertWhistle, hon]⟩

theorem reg_assertWhistle {a : Nat} (hdbg : a / 0x1000 ≠ 0xA) (htrace : a / 0x1000 ≠ 0xB) (hne : a ≠ whistleReg) :
    (s.assertWhistle source).reg a = s.reg a := by
  have hsource : (if source = 0 then s else s.setFlag whistleReg source true).reg a = s.reg a := by
    rw [reg_ite, reg_setFlag, if_neg hne, ite_self]
  obtain ⟨-, h⟩ | ⟨-, h⟩ := s.assertWhistle_cases source
  · rw [h, hsource]
  · rw [h, (packageHalt_frame _ .whistle).reg a hdbg htrace, reg_scoreAdd, reg_setFlag, if_neg hne, hsource]

theorem flag_assertWhistle (h : source < 32) (i : Nat) : (s.assertWhistle source).flag whistleReg i =
    (s.flag whistleReg i || decide (i = 0) || decide (source ≠ 0 ∧ i = source)) := by
  have hsource : (if source = 0 then s else s.setFlag whistleReg source true).flag whistleReg i =
      (s.flag whistleReg i || decide (source ≠ 0 ∧ i = source)) := by
    by_cases h0 : source = 0 <;> by_cases hi : i = source <;> simp [h0, hi, flag_setFlag, h]
  obtain ⟨hon, hout⟩ | ⟨-, hout⟩ := s.assertWhistle_cases source
  · rw [hout, hsource]
    by_cases hi : i = 0 <;> simp [hi, hon]
  · rw [hout, flag_eq_of_reg_eq ((packageHalt_frame _ .whistle).reg _ (by decide) (by decide)), flag_scoreAdd,
      flag_setFlag _ _ _ _ _ _ (by decide), hsource]
    by_cases hi : i = 0 <;> simp [hi]

theorem assertWhistle_trip : (s.assertWhistle source).pins.trip = s.pins.trip := by
  have hsource : (if source = 0 then s else s.setFlag whistleReg source true).pins = s.pins := ite_pins rfl rfl
  obtain ⟨-, h⟩ | ⟨-, h⟩ := s.assertWhistle_cases source
  · rw [h, hsource]
  · rw [h, (packageHalt_frame _ .whistle).trip, scoreAdd_pins, setFlag_pins, hsource]

end

/-! ### PLLs -/

section
variable (s : State)

theorem reg_countUnlock {a : Nat} (hevt : a / 0x1000 ≠ 0xD) (hirq : a ≠ hdr 2 0x10) (hcount : a ≠ clkAt 0x48) :
    s.countUnlock.reg a = s.reg a := by
  rw [countUnlock, reg_raiseIrq hevt, reg_setFlag, if_neg hirq, reg_bump _ _ _ _ _ hcount]

theorem flag_countUnlock_irq : s.countUnlock.flag (hdr 2 0x10) 3 = true := by
  rw [countUnlock, flag_eq_of_reg_eq (reg_raiseIrq (by decide) ..), flag_setFlag _ _ _ _ _ _ (by decide), if_pos ⟨rfl, rfl⟩]

theorem fld_countUnlock : s.countUnlock.fld (clkAt 0x48) 15 0 = min 65535 (s.fld (clkAt 0x48) 15 0 + 1) := by
  rw [countUnlock, fld_eq_of_reg_eq (reg_raiseIrq (by decide) ..),
    fld_eq_of_reg_eq ((reg_setFlag ..).trans (if_neg (by decide))), bump, fld_setFld_same _ _ _ _ _ (by decide), satAdd]
  exact Nat.mod_eq_of_lt (by omega)

@[simp] theorem countUnlock_jobs : s.countUnlock.jobs = s.jobs := by simp [countUnlock]
@[simp] theorem countUnlock_fab : s.countUnlock.fab = s.fab := by simp [countUnlock]

end

end State
end Sys2Proof.Machine
end

section
/-! PLL losses, link errors and firmware's warm boot. -/

namespace Sys2Proof.Machine

theorem mem_segsOf {mask : BitVec 64} {g : Nat} : g ∈ segsOf mask ↔ g < 64 ∧ mask.getLsbD g = true := by
  simp [segsOf]

theorem mergeHalt_isSome (old : Option HaltWhy) (new : HaltWhy) : (mergeHalt old new).isSome = true := by
  unfold mergeHalt
  split <;> rfl

namespace State

/-! ### The loss of a STEPCLK PLL (R26) -/

/-- A job steps, and has a segment on a die: the loss of that die's STEPCLK PLL halts it. -/
def stepsOn (s : State) (die j : Nat) : Bool :=
  ((s.job j).live || ((s.job j).state == .destroying && !s.standing j)) && (segsOf (s.job j).mask).any (fun g => dieOf g == die)

theorem stepUnlock_eq (s : State) (die : Nat) : s.stepUnlock die =
    (List.range 64).foldl (fun t j => if t.stepsOn die j then t.unlockJob j else t)
      (s.setFlag (clkAt 0x44) die false).countUnlock := rfl

theorem stepsOn_eq_false_of_idle {s : State} {die j : Nat} (hlive : (s.job j).live = false)
    (hstate : (s.job j).state ≠ .destroying) : s.stepsOn die j = false := by
  simp [stepsOn, hlive, hstate]

/-- The loss of a PLL that no stepping job uses clears the lock bit and counts. -/
theorem stepUnlock_of_elsewhere {s : State} {die : Nat}
    (h : ∀ j, (s.job j).live = true ∨ (s.job j).state = .destroying →
      ∀ g, g < 64 → (s.job j).mask.getLsbD g = true → dieOf g ≠ die) :
    s.stepUnlock die = (s.setFlag (clkAt 0x44) die false).countUnlock := by
  have hjob : ∀ j, (s.setFlag (clkAt 0x44) die false).countUnlock.job j = s.job j := fun j => by
    simp [job]
  rw [stepUnlock_eq]
  refine foldl_eq_of_fixed _ _ _ fun j _ => if_neg ?_
  rw [Bool.not_eq_true]
  by_cases hsteps : (s.job j).live = true ∨ (s.job j).state = .destroying
  · have hany : (segsOf (s.job j).mask).any (fun g => dieOf g == die) = false := by
      rw [List.any_eq_false]
      intro g hg
      obtain ⟨hlt, hbit⟩ := mem_segsOf.mp hg
      simpa using h j hsteps g hlt hbit
    rw [stepsOn, hjob, hany, Bool.and_false]
  · rw [not_or] at hsteps
    exact stepsOn_eq_false_of_idle (by rw [hjob]; simpa using hsteps.1) (by rw [hjob]; exact hsteps.2)

/-- A fault raised for a job stands last in its records; other jobs keep theirs. -/
theorem job_raiseFault (s : State) (j k : Nat) (r : FaultRec) : (s.raiseFault j r).job k =
    if k = j then { s.job j with faults := (s.job j).faults ++ [{ r with ns := s.flat }] } else s.job k := by
  rw [raiseFault, job_event, job_setJob]

theorem job_requestHalt_of_ne (s : State) {j k : Nat} (h : k ≠ j) (why : HaltWhy) : (s.requestHalt j why).job k = s.job k := by
  unfold requestHalt
  dsimp only
  split
  · split <;> exact (job_setJob ..).trans (if_neg h)
  · rfl

/-- A live job that does not stand halted is asked to halt. -/
theorem job_requestHalt_same {s : State} {j : Nat} (hlive : (s.job j).live = true) (hhalted : (s.job j).haltedBy = none)
    (why : HaltWhy) : (s.requestHalt j why).job j = { s.job j with haltReq := mergeHalt (s.job j).haltReq why } := by
  simp [requestHalt, hlive, hhalted]

/-- The loss reaches a job that is STARTING: PLL_UNLOCK is recorded, and the job is asked to halt. -/
theorem job_unlockJob_starting {s : State} {j : Nat} (hstate : (s.job j).state = .starting) (hhalted : (s.job j).haltedBy = none) :
    ((s.unlockJob j).job j).haltReq.isSome = true ∧ (∃ r ∈ ((s.unlockJob j).job j).faults, r.code = 0x038A) ∧
      ∀ k, k ≠ j → (s.unlockJob j).job k = s.job k := by
  have hunlock : s.unlockJob j = (s.raiseFault j { code := 0x038A, phase := 4, cls := 3, job := j, seg := (s.job j).lead, unit := 7
                                                   e := (s.job j).recPos, m := (s.job j).m }).requestHalt j .unlock := by
    simp [unlockJob, hstate]
  generalize hr : ({ code := 0x038A, phase := 4, cls := 3, job := j, seg := (s.job j).lead, unit := 7
                     e := (s.job j).recPos, m := (s.job j).m } : FaultRec) = r at hunlock
  have hcode : r.code = 0x038A := by rw [← hr]
  have hraised := (job_raiseFault s j j r).trans (if_pos rfl)
  have hasked := job_requestHalt_same (s := s.raiseFault j r) (j := j) (by rw [hraised]; simp [Job.live, hstate])
    (by rw [hraised]; exact hhalted) .unlock
  refine ⟨?_, ⟨{ r with ns := s.flat }, ?_, hcode⟩, fun k hk => ?_⟩
  · rw [hunlock, hasked]; exact mergeHalt_isSome ..
  · rw [hunlock, hasked, hraised]; simp
  · rw [hunlock, job_requestHalt_of_ne _ hk, job_raiseFault, if_neg hk]

theorem stepUnlock_of_one {s : State} {die j g : Nat} (hj : j < 64) (hg : g < 64) (hbit : (s.job j).mask.getLsbD g = true)
    (hdie : dieOf g = die) (hstate : (s.job j).state = .starting) (hhalted : (s.job j).haltedBy = none)
    (hothers : ∀ i, i ≠ j → (s.job i).live = false ∧ (s.job i).state ≠ .destroying) :
    s.stepUnlock die = ((s.setFlag (clkAt 0x44) die false).countUnlock).unlockJob j := by
  generalize hlost : (s.setFlag (clkAt 0x44) die false).countUnlock = t
  have hjob : ∀ k, t.job k = s.job k := fun k => by simp [job, ← hlost]
  have hsteps : t.stepsOn die j = true := by
    have hany : (segsOf (s.job j).mask).any (fun g => dieOf g == die) = true :=
      List.any_eq_true.mpr ⟨g, mem_segsOf.mpr ⟨hg, hbit⟩, by simp [hdie]⟩
    simp [stepsOn, hjob, hany, Job.live, hstate]
  have hkept := (job_unlockJob_starting (s := t) (j := j) (by rw [hjob, hstate]) (by rw [hjob, hhalted])).2.2
  rw [stepUnlock_eq, hlost]
  refine (foldl_eq_of_fixed_off _ t List.nodup_range (List.mem_range.mpr hj) (fun k hk => if_neg ?_) (fun k hk => if_neg ?_)).trans
    (if_pos hsteps)
  · rw [stepsOn_eq_false_of_idle] <;> simp [hjob, hothers k hk]
  · rw [if_pos hsteps, stepsOn_eq_false_of_idle] <;> simp [hkept k hk, hjob, hothers k hk]

/-! ### Die-to-die links (R22) -/

/-- What LINK_UE does to a job: a class 1 fault where it has a segment on either end. -/
def linkUeJob (link : D2dLink) (s : State) (j : Nat) : State :=
  match (segsOf (s.job j).mask).find? (fun g => (linkDies link).contains (dieOf g)) with
  | some g => if (s.job j).state = .free then s else s.classOne j 0x0386 g 0 0 0 (linkIndex link) 0
  | none => s

theorem execLinkUe_eq (link : D2dLink) (s : State) : execLinkUe link s = .next ((List.range 64).foldl (linkUeJob link) s) := rfl

/-- A class 1 fault marks its job and stands last in its records; other jobs are left alone. -/
theorem job_classOne (s : State) (j code seg cl bp unit sub type k : Nat) : ∃ r : FaultRec, r.code = code ∧ r.cls = 1 ∧
    (s.classOne j code seg cl bp unit sub type).job k = if k = j then { s.job j with
      ue := true, holdAt := none, nextHold := none, faults := (s.job j).faults ++ [r] } else s.job k := by
  refine ⟨{ s.classOneRec j code seg cl bp unit sub type with
    ns := (s.setJob j { s.job j with ue := true, holdAt := none, nextHold := none }).flat }, rfl, rfl, ?_⟩
  rw [classOne, stopFor, job_raiseFault, job_setJob, if_pos rfl, job_setJob]
  split <;> rfl

theorem job_linkUeJob_of_ne (link : D2dLink) (s : State) {j k : Nat} (h : k ≠ j) : (linkUeJob link s j).job k = s.job k := by
  unfold linkUeJob
  split
  · split
    · rfl
    · obtain ⟨r, -, -, hjob⟩ := s.job_classOne j 0x0386 _ 0 0 0 (linkIndex link) 0 k
      exact hjob.trans (if_neg h)
  · rfl

theorem job_linkUeJob_same {link : D2dLink} {s : State} {j : Nat} (hstate : (s.job j).state ≠ .free)
    (hend : ∃ g, g < 64 ∧ (s.job j).mask.getLsbD g = true ∧ (linkDies link).contains (dieOf g) = true) :
    ((linkUeJob link s j).job j).ue = true ∧ ∃ r ∈ ((linkUeJob link s j).job j).faults, r.code = 0x0386 ∧ r.cls = 1 := by
  obtain ⟨g, hg, hbit, hdie⟩ := hend
  obtain ⟨g', hfind⟩ : ∃ g', (segsOf (s.job j).mask).find? (fun g => (linkDies link).contains (dieOf g)) = some g' :=
    Option.isSome_iff_exists.mp (List.find?_isSome.mpr ⟨g, mem_segsOf.mpr ⟨hg, hbit⟩, hdie⟩)
  obtain ⟨r, hcode, hcls, hjob⟩ := s.job_classOne j 0x0386 g' 0 0 0 (linkIndex link) 0 j
  have hstep : linkUeJob link s j = s.classOne j 0x0386 g' 0 0 0 (linkIndex link) 0 := by
    unfold linkUeJob
    rw [hfind]
    exact if_neg hstate
  rw [hstep, hjob, if_pos rfl]
  exact ⟨rfl, r, by simp, hcode, hcls⟩

/-- A fold whose steps keep a view of the state, but at one index of its list, ends at what that step does to the view. -/
theorem foldl_view {σ β : Type} (f : σ → Nat → σ) (view : σ → β) {l : List Nat} {j : Nat} (hnodup : l.Nodup) (hj : j ∈ l)
    (hoff : ∀ t k, k ≠ j → view (f t k) = view t) (s : σ) : ∃ t, view t = view s ∧ view (l.foldl f s) = view (f t j) := by
  have keeps : ∀ (ks : List Nat) (t : σ), (∀ k ∈ ks, k ≠ j) → view (ks.foldl f t) = view t := by
    intro ks
    induction ks with
    | nil => exact fun _ _ => rfl
    | cons k ks ih =>
      exact fun t h => (ih (f t k) fun i hi => h i (List.mem_cons_of_mem _ hi)).trans (hoff t k (h k (by simp)))
  obtain ⟨as, bs, rfl, has, hbs⟩ := exists_append_ne_of_nodup hnodup hj
  refine ⟨as.foldl f s, keeps as s has, ?_⟩
  rw [List.foldl_append, List.foldl_cons]
  exact keeps bs _ hbs

/-- LINK_UE reaches every job with a segment on either end. -/
theorem job_linkUe {link : D2dLink} {s : State} {j : Nat} (hj : j < 64) (hstate : (s.job j).state ≠ .free)
    (hend : ∃ g, g < 64 ∧ (s.job j).mask.getLsbD g = true ∧ (linkDies link).contains (dieOf g) = true) :
    ∃ t, exec (.linkUe link) s = .next t ∧ (t.job j).ue = true ∧ ∃ r ∈ (t.job j).faults, r.code = 0x0386 ∧ r.cls = 1 := by
  obtain ⟨t, ht, hout⟩ := foldl_view (linkUeJob link) (fun u => u.job j) List.nodup_range (List.mem_range.mpr hj)
    (fun u k hk => job_linkUeJob_of_ne link u hk.symm) s
  have hmarked := job_linkUeJob_same (link := link) (s := t) (j := j) (by rwa [ht]) (by rwa [ht])
  exact ⟨_, execLinkUe_eq link s, by rwa [hout]⟩

/-! ### Firmware's warm boot touches the debug domain and RST_FW only -/

section
variable {a : Nat}

theorem foldl_reg {β : Type} {f : State → β → State} (h : ∀ t x, (f t x).reg a = t.reg a) (xs : List β) (s : State) :
    (xs.foldl f s).reg a = s.reg a := by
  induction xs generalizing s with
  | nil => rfl
  | cons x xs ih => rw [List.foldl_cons, ih, h]

theorem reg_of_ite {c : Prop} [Decidable c] {s t : State} {v : Word} (hs : s.reg a = v) (ht : t.reg a = v) :
    (if c then s else t).reg a = v := by split <;> assumption

theorem reg_traceSend (htrace : a / 0x1000 ≠ 0xB) (s : State) (us : List (BitVec 16)) : (s.traceSend us).reg a = s.reg a := by
  have hne : a ≠ traceAt 0x6C := by rintro rfl; exact htrace (by decide)
  unfold traceSend
  dsimp only
  split
  · rfl
  · refine foldl_reg (fun t u => ?_) us s
    exact reg_of_ite rfl ((reg_setReg ..).trans ((if_neg hne).trans (reg_of_ite rfl rfl)))

theorem reg_traceFill (htrace : a / 0x1000 ≠ 0xB) (s : State) (n : Nat) : (s.traceFill n).reg a = s.reg a := by
  unfold traceFill
  split
  · exact reg_traceSend htrace ..
  · rfl

theorem reg_ucWake (hdbg : a / 0x1000 ≠ 0xA) (htrace : a / 0x1000 ≠ 0xB) (s : State) (pc : Word) (mode : Nat) :
    (s.ucWake pc mode).reg a = s.reg a := by
  have hawake : (s.setFlag (dbgAt 0x44) 4 false).reg a = s.reg a := (DebugFrame.setFlag s (.inl rfl) ..).reg a hdbg htrace
  have hsync : ∀ t : State, (t.traceSync pc mode).reg a = t.reg a := fun t => (t.traceSyncAfter_frame 8 pc mode).reg a hdbg htrace
  have hput : ∀ (t : State) us, (t.tracePut us).reg a = t.reg a := fun t us => (t.tracePut_frame us).reg a hdbg htrace
  have hresync : ∀ t : State, (t.traceResync pc mode).reg a = t.reg a := fun t => (t.traceResync_frame pc mode).reg a hdbg htrace
  unfold ucWake
  dsimp only
  split
  · rw [hsync, hput, hresync, reg_traceFill htrace]
    exact hawake
  · exact hawake

theorem reg_loadAgent (hdbg : a / 0x1000 ≠ 0xA) (htrace : a / 0x1000 ≠ 0xB) (s : State) : s.loadAgent.reg a = s.reg a := by
  have hout : ∀ t : State, (t.setFlag (dbgAt 0x44) 3 false).reg a = t.reg a := fun t =>
    (DebugFrame.setFlag t (.inl rfl) ..).reg a hdbg htrace
  have hevent : ∀ (t : State) c, (t.debugEventHere c).reg a = t.reg a := fun t c => (t.debugEvent_frame ..).reg a hdbg htrace
  unfold loadAgent
  simp only [reg_ite, hevent, reg_ucWake hdbg htrace, hout, ite_self]
  rfl

theorem reg_extendMr (s : State) (i : Nat) (d : BitVec 256) : (s.extendMr i d).reg a = s.reg a := rfl

theorem reg_measureBoot (s : State) : s.measureBoot.reg a = s.reg a := by
  unfold measureBoot
  refine (foldl_reg (fun t p => ?_) _ _).trans (reg_extendMr ..)
  split
  · exact reg_extendMr ..
  · rfl

theorem reg_warmBoot (hdbg : a / 0x1000 ≠ 0xA) (htrace : a / 0x1000 ≠ 0xB) (hboots : a ≠ PageKind.rst.at 0x48) (s : State) :
    s.warmBoot.reg a = s.reg a := by
  have hnamed : ∀ t : State, t.placePatch.nameAgent.reg a = t.reg a := fun _ => rfl
  rw [warmBoot, reg_loadAgent hdbg htrace, hnamed, reg_bump _ _ _ _ _ hboots, reg_measureBoot]

end

end State
end Sys2Proof.Machine
end

section
/-! The STEPCLK multiplier. -/

namespace Sys2Proof.Machine
namespace State

/-- The bits of a register under a partial write: those in the mask as written, the others as they were. -/
theorem flag_poke (s : State) (w : HeldWrite) (a i : Nat) : (s.poke w).flag a i =
    if a = w.addr ∧ w.mask.getLsbD i = true then w.value.getLsbD i else s.flag a i := by
  have hflag : ∀ t : State, t.flag a i = (t.reg a).getLsbD i := fun _ => rfl
  rw [hflag, hflag, poke, reg_setReg]
  by_cases ha : a = w.addr
  · subst ha
    by_cases hi : i < 32
    · rw [if_pos rfl, BitVec.getLsbD_or, BitVec.getLsbD_and, BitVec.getLsbD_and, BitVec.getLsbD_not]
      cases hm : w.mask.getLsbD i <;> simp [hi]
    · simp [BitVec.getLsbD_of_ge _ i (Nat.le_of_not_lt hi)]
  · simp [ha]

/-- A write of a register whose one field is static: it is held, refused or stored as a static field is (R42, R43, R49). -/
theorem storeWord_static {s : State} {rq : Requester} {addr : Nat} {v : Word} {f : Field}
    (hline : lineOf addr = none) (hoff : addr % 0x1000 ≠ 0x44) (hdenied : s.pinDenied rq addr v = 0)
    (hfield : fieldsAt (pageNo addr) (addr % 0x1000) = [f]) (heff : f.eff = .static) (hacc : f.acc = .rw)
    (hlegal : f.legal.ok (natBits v.toNat f.hi f.lo) = true)
    (hvalue : s.valueFault f addr (natBits v.toNat f.hi f.lo) = none) (hpin : pageNo addr ≠ 4) :
    s.storeWord rq addr v = s.heldFields rq addr (fieldMask [f]) 0 v := by
  unfold storeWord
  simp only [hfield, hline, hdenied]
  cases s.pageJob (pageNo addr) <;> simp [hacc, heff, hlegal, hvalue, hpin, hoff, fieldMask]

/-! ### The STEPCLK multiplier (R2, R504) -/

/-- CLK_STEP.n. -/
def clkStepField : Field := ⟨"CLK_STEP.n", 0x040, 1, 0, 9, 0, .rw, 0x320, .static, .range 200 1000⟩

theorem fieldsAt_clkStep : fieldsAt (pageNo (clkAt 0x40)) (clkAt 0x40 % 0x1000) = [clkStepField] := by decide +kernel

theorem natBits_ofNat_clkStep {n : Nat} (h : n ≤ 1000) : natBits (BitVec.ofNat 32 n).toNat 9 0 = n := by
  have hword : (BitVec.ofNat 32 n).toNat = n := by rw [BitVec.toNat_ofNat]; exact Nat.mod_eq_of_lt (by omega)
  rw [hword, natBits, Nat.pow_zero, Nat.div_one]
  exact Nat.mod_eq_of_lt (by omega)

/-- The fields of CLK_STEP written with a multiplier that the grade takes. -/
theorem storeWord_clkStep (s : State) (rq : Requester) {n : Nat} (hlo : 200 ≤ n) (hhi : n ≤ 1000)
    (hgrade : Config.gradeTen = false ∨ n ≤ 800) :
    s.storeWord rq (clkAt 0x40) (BitVec.ofNat 32 n) = s.heldFields rq (clkAt 0x40) 0x3FF 0 (BitVec.ofNat 32 n) := by
  have hn := natBits_ofNat_clkStep hhi
  refine storeWord_static (f := clkStepField) (by decide) (by decide)
    (s.pinDenied_eq_zero rq _ (by decide) (by decide)) fieldsAt_clkStep rfl rfl ?_ ?_ (by decide)
  · show (decide (200 ≤ natBits (BitVec.ofNat 32 n).toNat 9 0) && decide (natBits (BitVec.ofNat 32 n).toNat 9 0 ≤ 1000)) = true
    rw [hn]; simp [hlo, hhi]
  · have hrefused : (Config.gradeTen && decide (800 < n)) = false := by
      rcases hgrade with h | h <;> simp [h]
    show s.valueFault clkStepField (clkAt 0x40) (natBits (BitVec.ofNat 32 n).toNat 9 0) = none
    rw [hn]
    exact (if_pos rfl).trans (if_neg (by rw [hrefused]; decide))

theorem busy_clk (s : State) : s.busy (clkAt 0x40) = s.anyLive := by
  have hpage : pageOf (pageNo (clkAt 0x40)) = some (.clk, 0) := by decide
  unfold busy
  dsimp only
  rw [hpage]

/-- The STEPCLK multiplier written while a job is live: WR_BUSY, and nothing stored. -/
theorem heldFields_clkStep_live {s : State} (htxn : s.txnOf 2 = none) (hlive : s.anyLive = true) (rq : Requester) (v : Word) :
    s.heldFields rq (clkAt 0x40) 0x3FF 0 v = (s.pgErr 2 1 rq (clkAt 0x40), 0) := by
  have hpage : pageNo (clkAt 0x40) = 2 := by decide
  simp [heldFields, hpage, htxn, busy_clk, hlive]

/-- The STEPCLK multiplier written while no job is live is stored, and a change drops the locks of the four PLLs (R504). -/
theorem heldFields_clkStep_idle {s : State} (htxn : s.txnOf 2 = none) (hlive : s.anyLive = false) (rq : Requester) (v : Word) :
    s.heldFields rq (clkAt 0x40) 0x3FF 0 v =
      ((s.poke ⟨clkAt 0x40, 0x3FF, v, rq⟩).pokeEffect (s.reg (clkAt 0x40)) (clkAt 0x40), 0x3FF) := by
  have hpage : pageNo (clkAt 0x40) = 2 := by decide
  simp [heldFields, hpage, htxn, busy_clk, hlive]

theorem fld_poke_clkStep (s : State) (rq : Requester) {n : Nat} (h : n ≤ 1000) :
    (s.poke ⟨clkAt 0x40, 0x3FF, BitVec.ofNat 32 n, rq⟩).fld (clkAt 0x40) 9 0 = n := by
  have hmask : ∀ i, i < 10 → (0x3FF : Word).getLsbD i = true := by decide
  refine (Nat.eq_of_testBit_eq fun i => ?_).trans (natBits_ofNat_clkStep h)
  rw [testBit_fld, testBit_natBits, Nat.zero_add]
  by_cases hi : i < 10
  · rw [flag_poke, if_pos ⟨rfl, hmask i hi⟩]; rfl
  · simp [hi]

theorem pokeEffect_clkStep {s : State} {old : Word} (h : s.reg (clkAt 0x40) ≠ old) :
    s.pokeEffect old (clkAt 0x40) = s.setFld (clkAt 0x44) 3 0 0 :=
  (if_pos rfl).trans (if_neg h)

/-- What a write of CLK_STEP commands beside what it stores: nothing. -/
theorem commandEffect_clk (s : State) (rq : Requester) (t old : Word) : s.commandEffect rq (clkAt 0x40) t old = s := by
  have hpage : pageOf (pageNo (clkAt 0x40)) = some (.clk, 0) := by decide
  unfold commandEffect
  dsimp only
  rw [hpage]

/-- CLK_STEP_WRITE of a multiplier that the grade takes: what the static field's write does (R42). -/
theorem write32_clkStep {s : State} {rq : Requester} {n : Nat} (h : s.Admits rq (clkAt 0x40)) (hlo : 200 ≤ n) (hhi : n ≤ 1000)
    (hgrade : Config.gradeTen = false ∨ n ≤ 800) : s.write32 rq (clkAt 0x40) (BitVec.ofNat 32 n).toNat =
      ((s.crossReg rq (clkAt 0x40) true).heldFields rq (clkAt 0x40) 0x3FF 0 (BitVec.ofNat 32 n)).1 := by
  have hthawed := page_crossReg_frozen_of_admits h
  rw [write32_of_admits h (by decide), BitVec.ofNat_toNat, BitVec.setWidth_eq, performWrite_block (by decide) (by decide) hthawed,
    commandEffect_clk, storeWord_clkStep _ rq hlo hhi hgrade]

theorem anyLive_crossReg (s : State) (rq : Requester) (addr : Nat) (write : Bool) :
    (s.crossReg rq addr write).anyLive = s.anyLive := by
  obtain ⟨n, hn⟩ := s.crossReg_eq rq addr write
  rw [hn]; rfl

end State

/-- CLK_STEP_WRITE while a job is live: WR_BUSY (R42, R504). -/
theorem clkStepWrite_live {s : State} {rq : Requester} {n : Nat} (h : s.Admits rq (clkAt 0x40)) (hlo : 200 ≤ n) (hhi : n ≤ 1000)
    (hgrade : Config.gradeTen = false ∨ n ≤ 800) (htxn : s.txnOf 2 = none) (hlive : s.anyLive = true) :
    exec (.clkStepWrite rq (BitVec.ofNat 32 n)) s = .next ((s.crossReg rq (clkAt 0x40) true).pgErr 2 1 rq (clkAt 0x40)) := by
  refine congrArg Host.Outcome.next ((State.write32_clkStep h hlo hhi hgrade).trans ?_)
  rw [State.heldFields_clkStep_live ((s.txnOf_crossReg ..).trans htxn) ((s.anyLive_crossReg ..).trans hlive)]

/-- CLK_STEP_WRITE while no job is live: the multiplier stands, and a change drops the locks (R504). -/
theorem clkStepWrite_idle {s : State} {rq : Requester} {n : Nat} (h : s.Admits rq (clkAt 0x40)) (hlo : 200 ≤ n) (hhi : n ≤ 1000)
    (hgrade : Config.gradeTen = false ∨ n ≤ 800) (htxn : s.txnOf 2 = none) (hlive : s.anyLive = false)
    (hchange : s.fld (clkAt 0x40) 9 0 ≠ n) : ∃ t, exec (.clkStepWrite rq (BitVec.ofNat 32 n)) s = .next t ∧
      t.fld (clkAt 0x40) 9 0 = n ∧ t.fld (clkAt 0x44) 3 0 = 0 := by
  refine ⟨_, congrArg Host.Outcome.next (State.write32_clkStep h hlo hhi hgrade), ?_⟩
  rw [State.heldFields_clkStep_idle ((s.txnOf_crossReg ..).trans htxn) ((s.anyLive_crossReg ..).trans hlive)]
  have hstored := State.fld_poke_clkStep (s.crossReg rq (clkAt 0x40) true) rq hhi
  have hold : (s.crossReg rq (clkAt 0x40) true).reg (clkAt 0x40) = s.reg (clkAt 0x40) := s.reg_crossReg ..
  generalize (s.crossReg rq (clkAt 0x40) true).poke ⟨clkAt 0x40, 0x3FF, BitVec.ofNat 32 n, rq⟩ = t at *
  have hnew : t.reg (clkAt 0x40) ≠ (s.crossReg rq (clkAt 0x40) true).reg (clkAt 0x40) := fun heq =>
    hchange ((State.fld_eq_of_reg_eq (hold.symm.trans heq.symm) 9 0).trans hstored)
  rw [State.pokeEffect_clkStep hnew]
  exact ⟨(State.fld_setFld_other _ _ _ _ _ _ _ _ (by decide) (.inl (by decide))).trans hstored,
    State.fld_setFld_same _ _ _ _ _ (by decide)⟩

end Sys2Proof.Machine
end

section
/-! The rows of clocks and links. -/

namespace Sys2Proof.Machine

/-- LINK_TRAINING changes the list of links that failed, and no other part of the state (R21, R22). -/
theorem linkTraining_ok (s : State) (l : D2dLink) : ∃ t, exec (.linkTraining l true) s = .next t ∧ l ∉ t.fab.linkBad ∧
    t = { s with fab := { s.fab with linkBad := t.fab.linkBad } } :=
  ⟨_, rfl, by simp, rfl⟩

theorem linkTraining_failed (s : State) (l : D2dLink) : ∃ t, exec (.linkTraining l false) s = .next t ∧ l ∈ t.fab.linkBad ∧
    t = { s with fab := { s.fab with linkBad := t.fab.linkBad } } :=
  ⟨_, rfl, by simp, rfl⟩

/-- STEPCLK_PLL_UNLOCK of a die whose segments no stepping job has (R26). -/
theorem stepclkPllUnlock_elsewhere {s : State} {die : Nat} (hdie : die < 4)
    (h : ∀ j, (s.job j).live = true ∨ (s.job j).state = .destroying →
      ∀ g, g < 64 → (s.job j).mask.getLsbD g = true → dieOf g ≠ die) :
    ∃ t, exec (.stepclkPllUnlock die) s = .next t ∧ t.flag (clkAt 0x44) die = false ∧ t.flag (hdr 2 0x10) 3 = true ∧
      t.fld (clkAt 0x48) 15 0 = min 65535 (s.fld (clkAt 0x48) 15 0 + 1) ∧ t.jobs = s.jobs ∧ t.fab = s.fab := by
  refine ⟨_, if_pos hdie, ?_⟩
  rw [State.stepUnlock_of_elsewhere h]
  refine ⟨?_, State.flag_countUnlock_irq _, ?_, by simp, by simp⟩
  · rw [State.flag_eq_of_reg_eq (State.reg_countUnlock _ (by decide) (by decide) (by decide)),
      State.flag_setFlag _ _ _ _ _ _ (by omega), if_pos ⟨rfl, rfl⟩]
  · rw [State.fld_countUnlock, State.fld_eq_of_reg_eq ((State.reg_setFlag ..).trans (if_neg (by decide)))]

/-- STEPCLK_PLL_UNLOCK of a die on which one job, STARTING, has a segment (R26, R106). -/
theorem stepclkPllUnlock_starting {s : State} {die j g : Nat} (hdie : die < 4) (hj : j < 64) (hg : g < 64)
    (hbit : (s.job j).mask.getLsbD g = true) (hon : dieOf g = die) (hstate : (s.job j).state = .starting)
    (hhalted : (s.job j).haltedBy = none) (hothers : ∀ i, i ≠ j → (s.job i).live = false ∧ (s.job i).state ≠ .destroying) :
    ∃ t, exec (.stepclkPllUnlock die) s = .next t ∧ (t.job j).haltReq.isSome = true ∧
      ∃ r ∈ (t.job j).faults, r.code = 0x038A := by
  have hjob : (s.setFlag (clkAt 0x44) die false).countUnlock.job j = s.job j := by simp [State.job]
  obtain ⟨hreq, hfault, -⟩ := State.job_unlockJob_starting (s := (s.setFlag (clkAt 0x44) die false).countUnlock) (j := j)
    (by rw [hjob, hstate]) (by rw [hjob, hhalted])
  refine ⟨_, if_pos hdie, ?_⟩
  rw [State.stepUnlock_of_one hj hg hbit hon hstate hhalted hothers]
  exact ⟨hreq, hfault⟩

/-- HUB_PLL_UNLOCK clears the lock bit and asserts the whistle with its source (R26, R374). -/
theorem hubPllUnlock_flags (s : State) : ∃ t, exec .hubPllUnlock s = .next t ∧ t.flag (clkAt 0x44) 4 = false ∧
    t.flag whistleReg 0 = true ∧ t.flag whistleReg 4 = true := by
  refine ⟨_, rfl, ?_, ?_, ?_⟩
  · rw [State.hubUnlock, State.flag_eq_of_reg_eq (State.reg_assertWhistle _ 4 (by decide) (by decide) (by decide)),
      State.flag_eq_of_reg_eq (State.reg_countUnlock _ (by decide) (by decide) (by decide)),
      State.flag_setFlag _ _ _ _ _ _ (by decide), if_pos ⟨rfl, rfl⟩]
  · simp [State.hubUnlock, State.flag_assertWhistle]
  · simp [State.hubUnlock, State.flag_assertWhistle]

/-- PLL_RELOCK of the hub system PLL: the lock bit stands after firmware's warm boot (R26). -/
theorem hubPllRelock_flag {s : State} (h : s.flag (clkAt 0x44) 4 = false) :
    ∃ t, exec (.pllRelock .hub) s = .next t ∧ t.flag (clkAt 0x44) 4 = true := by
  refine ⟨_, if_neg (by rw [h]; decide), ?_⟩
  rw [State.flag_eq_of_reg_eq (State.reg_warmBoot (by decide) (by decide) (by decide) _),
    State.flag_setFlag _ _ _ _ _ _ (by decide), if_pos ⟨rfl, rfl⟩]

/-- THERMAL_TRIP latches, records its cause and asserts the whistle (R506). -/
theorem thermalTrip_flags (s : State) : ∃ t, exec .thermalTrip s = .next t ∧ t.pins.trip = true ∧
    t.flag (PageKind.rst.at 0x40) 3 = true ∧ t.flag whistleReg 0 = true := by
  refine ⟨_, rfl, ?_, ?_, ?_⟩
  · rw [State.assertWhistle_trip]; rfl
  · rw [State.flag_eq_of_reg_eq (State.reg_assertWhistle _ 0 (by decide) (by decide) (by decide)),
      State.flag_setFlag _ _ _ _ _ _ (by decide), if_pos ⟨rfl, rfl⟩]
  · simp [State.flag_assertWhistle]

/-- REFCLK_LOSS of LANEREF: the loss of every STEPCLK PLL, and then of every lane PLL (R503). -/
theorem refclkLoss_laneref (s : State) : exec (.refclkLoss .laneref) s =
    .next ((List.range 4).foldl State.laneUnlock ((List.range 4).foldl State.stepUnlock s)) := rfl

/-- Settles O27. -/
theorem clockAndLinkRows : Obligations.ClockAndLinkRows := by
  refine ⟨fun s die hdie h => stepclkPllUnlock_elsewhere hdie h,
    fun s die j g hdie hj hg hbit hon hstate hhalted hothers =>
      stepclkPllUnlock_starting hdie hj hg hbit hon hstate hhalted hothers,
    hubPllUnlock_flags, fun s die hdie => if_pos hdie, fun s h => hubPllRelock_flag h, ?_, fun s => rfl,
    linkTraining_ok, linkTraining_failed, fun s l j hj hstate hend => State.job_linkUe hj hstate hend, thermalTrip_flags,
    fun s => rfl, fun s => ?_⟩
  · intro s rq n h hlo hhi hgrade htxn
    exact ⟨fun hlive hchange => clkStepWrite_idle h hlo hhi hgrade htxn hlive hchange,
      fun hlive => clkStepWrite_live h hlo hhi hgrade htxn hlive⟩
  · have hlost : ∀ t die, die ∈ List.range 4 → exec (.stepclkPllUnlock die) t = .next (State.stepUnlock t die) :=
      fun t die hdie => if_pos (List.mem_range.mp hdie)
    refine (refclkLoss_laneref s).trans (congrArg Host.Outcome.next ?_)
    have hsteps := foldl_eq_of_steps_eq (f := State.stepUnlock) (g := fun t die => match exec (.stepclkPllUnlock die) t with
      | .next u => u
      | _ => t) (fun t die hdie => by rw [hlost t die hdie]) s
    rw [hsteps]
    rfl

end Sys2Proof.Machine
end

section
/-! The machine after reset. -/

namespace Sys2Proof.Machine

theorem pageOf_lane (n : Nat) (h : n < 64) : pageOf (0x180 + n) = some (.lane, n) := by
  unfold pageOf
  simp (disch := omega) only [if_pos, if_neg]
  simp

theorem pageNo_laneAt (n off : Nat) (hn : n < 64) (hoff : off < 0x1000) : pageNo (laneAt n off) = 0x180 + n := by
  unfold pageNo laneAt
  rw [if_pos (by omega)]; omega

/-- LANE_CFG's lambda at its Reset column. -/
theorem lambda_reset (n : Nat) (hn : n < 64) : State.reset.lambda n = 160 := by
  have hpage : pageNo (laneAt n 0x48) = 0x180 + n := pageNo_laneAt n 0x48 hn (by decide)
  have hoff : laneAt n 0x48 % 0x1000 = 0x48 := by unfold laneAt; omega
  have hfields : fieldsAt (0x180 + n) 0x48 = fields_lane.filter (fun f => f.covers 0x48) := by
    rw [fieldsAt, fieldsOf, pageOf_lane n hn]
  have hword : resetWord (laneAt n 0x48) =
      BitVec.ofNat 32 ((fields_lane.filter (fun f => f.covers 0x48)).foldl (fun a f => a + f.reset * 2 ^ f.lo) 0) := by
    unfold resetWord
    simp only [hpage, hoff, hfields]
    rw [if_neg (by decide), if_neg (by decide), if_neg (by omega)]
  have hlisted : Sparse.get 0 State.reset.regs (laneAt n 0x48) = 0 := rfl
  rw [State.lambda, State.fld, State.reg, hlisted, hword]
  decide +kernel

/-- Settles O57: each table of State.reset is empty, so each of its units reads as its default. -/
theorem resetState : Obligations.ResetState := by
  refine ⟨rfl, rfl, rfl, rfl, rfl, fun _ => ⟨rfl, rfl⟩, fun _ => rfl, fun _ => rfl, fun t => ?_, fun _ => rfl, fun _ => rfl,
    lambda_reset, rfl, rfl⟩
  match t with
  | 0 | 1 | 2 | 3 | t + 4 => rfl

end Sys2Proof.Machine
end

section
/-! Resets and boot without a directory. -/

namespace Sys2Proof.Machine
namespace State

/-! ### What every reset clears (R11, R505, R509) -/

/-- The machine with debug locked again, whose debug domain is all that a device reset keeps of its registers (R462). -/
def debugLocked (s : State) : State :=
  (((s.authLock.setFld (dbgAt 0x44) 11 8 0).setFld (dbgAt 0x44) 4 3 0).setReg (hdr 0xA 0x38) 0).setReg (hdr 0xB 0x38) 0

theorem get_keptRegs (s : State) (a : Nat) :
    Sparse.get 0 s.keptRegs a = if 0xA000 ≤ a ∧ a < 0xC000 then Sparse.get 0 s.debugLocked.regs a else 0 := by
  have hrange := Sparse.get_filter (0 : Word) s.debugLocked.regs (fun k => decide (0xA000 ≤ k) && decide (k < 0xC000)) a
  simp only [Bool.and_eq_true, decide_eq_true_eq] at hrange
  exact hrange

theorem fld_debugLocked (s : State) : s.debugLocked.fld (dbgAt 0x44) 2 0 = 0 := by
  have howner : ∀ (t : State) p, p = 0xA ∨ p = 0xB → (t.setReg (hdr p 0x38) 0).fld (dbgAt 0x44) 2 0 = t.fld (dbgAt 0x44) 2 0 := by
    rintro t p (rfl | rfl) <;> exact fld_eq_of_reg_eq ((reg_setReg ..).trans (if_neg (by decide))) ..
  rw [debugLocked, howner _ _ (.inr rfl), howner _ _ (.inl rfl), fld_setFld_other _ _ _ _ _ _ _ _ (by decide) (by decide),
    fld_setFld_other _ _ _ _ _ _ _ _ (by decide) (by decide), authLock]
  exact (fld_setFld_same _ _ _ _ _ (by decide)).trans (Nat.zero_mod _)

/-- What a device reset leaves before it records its cause. -/
structure ResetBase (s : State) (base : State) : Prop where
  regs    : base.regs = s.keptRegs
  jobs    : base.jobs = []
  fab     : base.fab = {}
  hbm     : base.hbm = []
  disp    : base.disp = {}
  cap     : base.cap = {}
  tap     : base.tap = s.tap
  trace   : base.trace = s.trace
  hostMem : base.hostMem = s.hostMem
  pkgHalt : base.pkgHalt = s.pkgHalt
  theham  : base.theham = s.theham.kept

/-- `base` with the cause of the reset recorded (R509) and the count of watchdog expiries kept. -/
def recordReset (s : State) (cause : ResetCause) (base : State) : State :=
  (base.setReg (rstAt 0x40) (BitVec.ofNat 32 (rstCause cause s.pins.trip))).setFld (wdtAt 0x4C) 31 24 (s.fld (wdtAt 0x4C) 31 24)

theorem recordReset_regs (s : State) (cause : ResetCause) (base : State) :
    ∃ rs, s.recordReset cause base = { base with regs := rs } := ⟨_, rfl⟩

/-- A device reset records its cause, and asserts the whistle again where its input is 1 (R374). -/
theorem resetDevice_eq_recordReset (s : State) (cause : ResetCause) : ∃ base : State,
    (s.resetDevice cause = if s.flag whistleReg 5 then ((s.recordReset cause base).setFlag whistleReg 5 true).assertWhistle 1
      else s.recordReset cause base) ∧ ResetBase s base := by
  unfold resetDevice recordReset
  exact ⟨_, rfl, rfl, rfl, rfl, rfl, rfl, rfl, rfl, rfl, rfl, rfl, rfl⟩

/-- What every reset leaves cleared, and what it keeps of firmware's flash. -/
structure Cleared (s t : State) : Prop where
  jobs  : t.jobs = []
  fab   : t.fab = {}
  hbm   : t.hbm = []
  disp  : t.disp = {}
  flash : t.theham = { s.theham.kept with score := t.theham.score }

theorem cleared_recordReset {s base : State} (h : ResetBase s base) (cause : ResetCause) : Cleared s (s.recordReset cause base) := by
  obtain ⟨rs, hrecord⟩ := s.recordReset_regs cause base
  rw [hrecord]
  exact ⟨h.jobs, h.fab, h.hbm, h.disp, congrArg (fun t => { t with score := base.theham.score }) h.theham⟩

/-- No register outside the debug domain keeps its value, but the two that record the reset. -/
theorem reg_recordReset {s base : State} (h : ResetBase s base) (cause : ResetCause) {a : Nat} (hdbg : ¬(0xA000 ≤ a ∧ a < 0xC000))
    (hrst : a ≠ rstAt 0x40) (hwdt : a ≠ wdtAt 0x4C) : (s.recordReset cause base).reg a = resetWord a := by
  rw [recordReset, reg_setFld, if_neg hwdt, reg_setReg, if_neg hrst, reg, h.regs, get_keptRegs, if_neg hdbg]
  exact BitVec.zero_xor ..

theorem resetWord_whistle : resetWord whistleReg = 0 := by decide

/-- The whistle is silent after a reset, whose input alone asserts it again. -/
theorem flag_recordReset_whistle {s base : State} (h : ResetBase s base) (cause : ResetCause) (i : Nat) :
    (s.recordReset cause base).flag whistleReg i = false := by
  rw [flag, reg_recordReset h cause (by decide) (by decide) (by decide), resetWord_whistle]
  exact Nat.zero_testBit i

/-- The whistle asserted in a cleared machine leaves it cleared, and halts the package. -/
theorem assertWhistle_cleared {s t : State} (h : Cleared s t) (hsilent : t.flag whistleReg 0 = false) :
    Cleared s ((t.setFlag whistleReg 5 true).assertWhistle 1) ∧ ((t.setFlag whistleReg 5 true).assertWhistle 1).pkgHalt = true := by
  obtain ⟨hon, -⟩ | ⟨-, hout⟩ := (t.setFlag whistleReg 5 true).assertWhistle_cases 1
  · rw [flag_setFlag _ _ _ _ _ _ (by decide), if_neg (by decide), hsilent] at hon
    cases hon
  · rw [hout]
    generalize hrung : ((if 1 = 0 then t.setFlag whistleReg 5 true else (t.setFlag whistleReg 5 true).setFlag whistleReg 1 true).setFlag
      whistleReg 0 true).scoreAdd 3876 1 = rung
    have hframe := rung.packageHalt_frame .whistle
    refine ⟨⟨hframe.jobs ?_, hframe.fab.trans ?_, hframe.hbm.trans ?_, hframe.disp.trans ?_, ?_⟩, rung.packageHalt_pkgHalt .whistle⟩
    · rw [← hrung]; exact h.jobs
    · rw [← hrung]; exact h.fab
    · rw [← hrung]; exact h.hbm
    · rw [← hrung]; exact h.disp
    · have hscore : rung.theham = { t.theham with score := rung.theham.score } := by rw [← hrung]; rfl
      rw [hframe.theham, hscore, h.flash]

/-- A reset clears the machine, and leaves the package halted where it was or where the whistle's input is 1. -/
theorem resetDevice_cleared (s : State) (cause : ResetCause) :
    Cleared s (s.resetDevice cause) ∧ (s.resetDevice cause).pkgHalt = (s.flag whistleReg 5 || s.pkgHalt) := by
  obtain ⟨base, hreset, hbase⟩ := s.resetDevice_eq_recordReset cause
  have hcleared := cleared_recordReset hbase cause
  rw [hreset]
  by_cases hinput : s.flag whistleReg 5 = true
  · rw [if_pos hinput, hinput]
    exact assertWhistle_cleared hcleared (flag_recordReset_whistle hbase cause 0)
  · obtain ⟨rs, hrecord⟩ := s.recordReset_regs cause base
    rw [if_neg hinput, Bool.not_eq_true _ |>.mp hinput]
    refine ⟨hcleared, ?_⟩
    rw [hrecord]
    exact hbase.pkgHalt

/-! ### What a device reset keeps where the whistle's input is 0 (R462, R505) -/

/-- What a device reset keeps in `t` besides flash, with debug locked again and the cause recorded. -/
structure Kept (s : State) (cause : ResetCause) (t : State) : Prop where
  cap     : t.cap = {}
  tap     : t.tap = s.tap
  trace   : t.trace = s.trace
  hostMem : t.hostMem = s.hostMem
  locked  : t.fld (dbgAt 0x44) 2 0 = 0
  cause   : t.fld (rstAt 0x40) 2 0 = rstCause cause s.pins.trip % 8

theorem resetDevice_kept {s : State} (hinput : s.flag whistleReg 5 = false) (cause : ResetCause) : Kept s cause (s.resetDevice cause) := by
  obtain ⟨base, hreset, hbase⟩ := s.resetDevice_eq_recordReset cause
  rw [hinput, if_neg Bool.false_ne_true] at hreset
  obtain ⟨rs, hrecord⟩ := s.recordReset_regs cause base
  rw [hreset]
  refine ⟨?_, ?_, ?_, ?_, ?_, ?_⟩
  · rw [hrecord]; exact hbase.cap
  · rw [hrecord]; exact hbase.tap
  · rw [hrecord]; exact hbase.trace
  · rw [hrecord]; exact hbase.hostMem
  · rw [recordReset, fld_setFld_other _ _ _ _ _ _ _ _ (by decide) (by decide)]
    refine (fld_eq_of_reg_eq ?_ ..).trans s.fld_debugLocked
    rw [reg_setReg, if_neg (by decide), reg, reg, hbase.regs, get_keptRegs, if_pos (by decide)]
  · rw [recordReset, fld_setFld_other _ _ _ _ _ _ _ _ (by decide) (by decide), fld, reg_setReg, if_pos rfl]
    cases cause <;> cases s.pins.trip <;> rfl

/-- A power-on reset is a reset of a machine with nothing but flash, host memory and the whistle's input. -/
theorem resetPower_eq (s : State) : ∃ p : State, s.resetPower = p.resetDevice .powerOn ∧ p.flag whistleReg 5 = s.flag whistleReg 5 ∧
    p.pkgHalt = false ∧ p.theham = s.theham := by
  refine ⟨_, rfl, ?_, ?_, ?_⟩
  · have hbare : ∀ t : State, t.regs = [] → t.flag whistleReg 5 = false := fun t ht => by
      rw [flag, reg, ht, resetWord_whistle]; rfl
    split
    next hinput => rw [flag_setFlag _ _ _ _ _ _ (by decide), if_pos ⟨rfl, rfl⟩, hinput]
    next hinput => rw [hbare _ rfl, Bool.not_eq_true _ |>.mp hinput]
  · split <;> rfl
  · split <;> rfl

end State
end Sys2Proof.Machine
end

section
/-! The rows of the resets. -/

namespace Sys2Proof.Machine
namespace State

/-! ### A boot that finds no directory (R414, R415) -/

/-- Both slots hold an erased firmware part, and no part waits to be activated. -/
structure NoDirectory (t : Theham) : Prop where
  toBoot : t.toBoot = []
  slotA  : Sparse.get none t.parts 0 = some []
  slotB  : Sparse.get none t.parts 1 = some []

theorem part_of_noDirectory {t : Theham} (h : NoDirectory t) (slotB : Bool) : t.part 0 slotB = [] := by
  cases slotB <;> simp [Theham.part, boolNat, h.slotA, h.slotB]

theorem directoryIn_eq_none {s : State} (h : NoDirectory s.theham) (slotB : Bool) : s.directoryIn slotB = none := by
  simp [directoryIn, part_of_noDirectory h, packageOk]

theorem activate_of_none {t : Theham} (h : t.toBoot = []) : t.activate = { t with older := [], toBoot := [] } := by
  simp [Theham.activate, h]

/-- What a boot does to boundary scan: it refuses the instruction in force where that instruction has the pads (R459). -/
def scanRefused (t : Tap) : Tap := { t with refused := t.refused || [3, 4, 5, 6, 7].contains t.ir }

theorem scanRefused_of_not {t : Tap} (h : ¬([3, 4, 5, 6, 7].contains t.ir && !t.refused) = true) : scanRefused t = t := by
  cases t with
  | mk ir cells refused queue full =>
    cases refused
    · simp [scanRefused] at h ⊢; exact h
    · rfl

theorem scanRelease_eq (s : State) : ∃ out, s.scanRelease = { s with tap := scanRefused s.tap, out := out } := by
  unfold scanRelease
  split
  next h =>
    have hscan : [3, 4, 5, 6, 7].contains s.tap.ir = true := (Bool.and_eq_true _ _ |>.mp h).1
    rw [scanRefused, hscan, Bool.or_true]
    exact ⟨_, rfl⟩
  next h =>
    rw [scanRefused_of_not h]
    exact ⟨s.out, rfl⟩

/-- `t` differs from `s` in none of what a boot without a directory leaves alone. -/
structure BootFrame (s t : State) : Prop where
  jobs    : t.jobs = s.jobs
  fab     : t.fab = s.fab
  hbm     : t.hbm = s.hbm
  disp    : t.disp = s.disp
  cap     : t.cap = s.cap
  tap     : t.tap = s.tap
  trace   : t.trace = s.trace
  hostMem : t.hostMem = s.hostMem
  pkgHalt : t.pkgHalt = s.pkgHalt
  owner   : t.theham.owner = s.theham.owner

namespace BootFrame
variable {s t u : State}

theorem trans (h : BootFrame s t) (k : BootFrame t u) : BootFrame s u :=
  ⟨k.jobs.trans h.jobs, k.fab.trans h.fab, k.hbm.trans h.hbm, k.disp.trans h.disp, k.cap.trans h.cap, k.tap.trans h.tap,
    k.trace.trans h.trace, k.hostMem.trans h.hostMem, k.pkgHalt.trans h.pkgHalt, k.owner.trans h.owner⟩

/-- Registers, outputs and what firmware holds besides the owner's key may change. -/
theorem of_eq {rs : Sparse Word} {out : List Out} {th : Theham} (h : t = { s with regs := rs, out := out, theham := th })
    (howner : th.owner = s.theham.owner) : BootFrame s t := by
  subst h
  exact ⟨rfl, rfl, rfl, rfl, rfl, rfl, rfl, rfl, rfl, howner⟩

theorem of_regs {rs : Sparse Word} (h : t = { s with regs := rs }) : BootFrame s t := of_eq h rfl

end BootFrame

theorem bootStart_eq {s : State} (h : s.theham.toBoot = []) : ∃ rs mr mrCount, s.bootStart =
    { s with regs := rs, theham := { s.theham with mr := mr, mrCount := mrCount, older := [], toBoot := [], inUse := [] } } := by
  obtain ⟨rs, mr, mrCount, hstart⟩ : ∃ rs mr mrCount, s.bootStart =
      { s with regs := rs, theham := { ({ s.theham with mr := mr, mrCount := mrCount } : Theham).activate with inUse := [] } } :=
    ⟨_, _, _, rfl⟩
  have hactivate := activate_of_none (t := { s.theham with mr := mr, mrCount := mrCount }) h
  rw [hactivate] at hstart
  exact ⟨rs, mr, mrCount, hstart⟩

theorem reg_bootStart (s : State) {a : Nat} (h : a ≠ clkAt 0x44) : s.bootStart.reg a = s.reg a := by
  have hregs : s.bootStart.reg a = (((s.setFld (clkAt 0x44) 4 0 31).setFlag (clkAt 0x44) 9 true).extendMr 0 Config.romDigest).reg a := rfl
  rw [hregs, reg_extendMr, reg_setFlag, if_neg h, reg_setFld, if_neg h]

theorem reg_bootFallback (s : State) {a : Nat} (hevt : a / 0x1000 ≠ 0xD) (hdev : a ≠ PageKind.dev.at 0x44) :
    s.bootFallback.reg a = s.reg a := by
  rw [bootFallback, reg_thehamEvent hevt, reg_setFlag, if_neg hdev]

theorem logEvent_owner (s : State) (source code job sev : Nat) (detail : List Word) :
    (s.logEvent source code job sev detail).theham.owner = s.theham.owner := by
  obtain ⟨log, seqNo, unflushed, hlogged⟩ : ∃ log seqNo unflushed, (s.logEvent source code job sev detail).theham =
    { s.theham with log := log, logSeq := seqNo, unflushed := unflushed } := ⟨_, _, _, rfl⟩
  rw [hlogged]

theorem ite_owner {c : Prop} [Decidable c] {a b s : State} (ha : a.theham.owner = s.theham.owner) (hb : b.theham.owner = s.theham.owner) :
    (if c then a else b).theham.owner = s.theham.owner := by split <;> assumption

theorem raiseEvent_owner (s : State) (source code job sev : Nat) (detail : List Word) :
    (s.raiseEvent source code job sev detail).theham.owner = s.theham.owner := by
  have hlogged : (if s.flag (evtRoute source) 15 then s.logEvent source code job sev detail else s).theham.owner = s.theham.owner :=
    ite_owner (logEvent_owner ..) rfl
  unfold raiseEvent
  dsimp only
  generalize (if s.flag (evtRoute source) 15 then s.logEvent source code job sev detail else s) = t at hlogged ⊢
  have hset : ∀ a i, (t.setFlag a i true).theham.owner = s.theham.owner := fun a i => (congrArg Theham.owner (setFlag_theham ..)).trans hlogged
  have hsent := fun c [Decidable c] fn vec a i => ite_owner (c := c) ((congrArg Theham.owner (msix_theham _ fn vec)).trans (hset a i)) (hset a i)
  exact ite_owner hlogged (ite_owner ((congrArg Theham.owner (ucInterrupt_theham ..)).trans (hsent ..)) (hsent ..))

/-- A fold of steps that write registers only writes registers only. -/
theorem foldl_regsOnly {β : Type} {f : State → β → State} (h : ∀ t x, ∃ rs, f t x = { t with regs := rs }) (xs : List β) (s : State) :
    ∃ rs, xs.foldl f s = { s with regs := rs } := by
  induction xs generalizing s with
  | nil => exact ⟨s.regs, rfl⟩
  | cons x xs ih =>
    obtain ⟨rs, hstep⟩ := h s x
    obtain ⟨rs', hrest⟩ := ih (f s x)
    exact ⟨rs', by rw [List.foldl_cons, hrest, hstep]⟩

theorem serve_eq (s : State) (stage : Nat) : ∃ rs, s.serve stage = { s with regs := rs } := by
  obtain ⟨rs, hpages⟩ := foldl_regsOnly (f := fun t p => t.setOwner p .fw) (fun t p => ⟨_, rfl⟩) firmwarePages s
  obtain ⟨rs', hroutes⟩ := foldl_regsOnly (f := fun t i => t.setReg (evtRoute i)
    (if 352 ≤ i ∧ i < 416 then BitVec.ofNat 32 (i - 352 + 2 ^ 9 + 2 ^ 15) else defaultRoute)) (fun t i => ⟨_, rfl⟩)
    (List.range 512) { s with regs := rs }
  have hserve : s.serve stage = ((s.handPages firmwarePages .fw).defaultRoutes).setFld (PageKind.dev.at 0x44) 1 0 stage := rfl
  rw [hserve, handPages, hpages, defaultRoutes, hroutes]
  exact ⟨_, rfl⟩

theorem fld_serve (s : State) {stage : Nat} (h : stage < 4) : (s.serve stage).fld (PageKind.dev.at 0x44) 1 0 = stage :=
  (fld_setFld_same _ _ _ _ _ (by decide)).trans (Nat.mod_eq_of_lt h)

/-- Firmware takes its pages, routes the events and enters its stage: page owners, the EVT page and DEV_STATUS. -/
theorem reg_serve (s : State) (stage : Nat) {a : Nat} (hevt : a < 0xD000) (howner : a % 0x1000 ≠ 0x38)
    (hdev : a ≠ PageKind.dev.at 0x44) : (s.serve stage).reg a = s.reg a := by
  have hpages : ∀ t : State, (t.handPages firmwarePages .fw).reg a = t.reg a := fun t =>
    foldl_reg (fun u page => (reg_setReg ..).trans (if_neg fun h => howner (by rw [h, hdr]; omega))) firmwarePages t
  have hroutes : ∀ t : State, t.defaultRoutes.reg a = t.reg a := fun t =>
    foldl_reg (fun u i => (reg_setReg ..).trans (if_neg fun h => by
      have hat : evtRoute i = 0xD000 + (0x100 + 4 * i) := rfl
      omega)) (List.range 512) t
  rw [serve, reg_setFld, if_neg hdev, hroutes, hpages]

theorem thehamEvent_frame (s : State) (code : Nat) (detail : List Word) : BootFrame s (s.thehamEvent code detail) :=
  ⟨event_jobs .., event_fab .., event_hbm .., event_disp .., event_cap .., event_tap .., event_trace .., event_hostMem ..,
    event_pkgHalt .., raiseEvent_owner ..⟩

/-- The ROM measures itself and activates no part: a boot starts over what `BootFrame` keeps. -/
theorem bootStart_frame {s : State} (h : s.theham.toBoot = []) : BootFrame s s.bootStart := by
  obtain ⟨rs, mr, mrCount, hstart⟩ := bootStart_eq h
  exact .of_eq hstart rfl

theorem bootFallback_frame (s : State) : BootFrame s s.bootFallback :=
  (BootFrame.of_regs (t := s.setFlag (PageKind.dev.at 0x44) 3 true) rfl).trans (thehamEvent_frame ..)

theorem serve_frame (s : State) (stage : Nat) : BootFrame s (s.serve stage) := by
  obtain ⟨rs, hserve⟩ := s.serve_eq stage
  exact .of_regs hserve

/-- Without a directory in either slot, the boot goes through its start and the fallback to recovery. -/
theorem boot_eq_of_noDirectory {s : State} (h : NoDirectory s.scanRelease.bootStart.theham) (b : BootInput) :
    s.boot b = s.scanRelease.bootStart.bootFallback.serve 2 := by
  unfold boot
  dsimp only
  rw [directoryIn_eq_none h, directoryIn_eq_none h]

/-- `t` is what a boot of `s` leaves when it finds no directory and stays in recovery. -/
structure Recovery (s t : State) : Prop where
  frame : BootFrame { s with tap := scanRefused s.tap } t
  stage : t.fld (PageKind.dev.at 0x44) 1 0 = 2
  reg   : ∀ a, a < 0xD000 → a % 0x1000 ≠ 0x38 → a ≠ PageKind.dev.at 0x44 → a ≠ clkAt 0x44 → t.reg a = s.reg a

theorem boot_recovery {s : State} (h : NoDirectory s.theham) (b : BootInput) : Recovery s (s.boot b) := by
  obtain ⟨out, hscan⟩ := s.scanRelease_eq
  have htheham : s.scanRelease.theham = s.theham := by rw [hscan]
  have hnone : NoDirectory s.scanRelease.bootStart.theham := by
    obtain ⟨rs, mr, mrCount, hstart⟩ := bootStart_eq (s := s.scanRelease) (htheham ▸ h.toBoot)
    rw [hstart, htheham]
    exact ⟨rfl, h.slotA, h.slotB⟩
  rw [boot_eq_of_noDirectory hnone]
  refine ⟨?_, fld_serve _ (by decide), fun a hevt howner hdev hclk => ?_⟩
  · have hreleased : BootFrame { s with tap := scanRefused s.tap } s.scanRelease := .of_eq hscan rfl
    exact ((hreleased.trans (bootStart_frame (htheham ▸ h.toBoot))).trans (bootFallback_frame _)).trans (serve_frame ..)
  · have hreg : s.scanRelease.reg a = s.reg a := by rw [hscan]; rfl
    rw [reg_serve _ _ hevt howner hdev, reg_bootFallback _ (by omega) hdev, reg_bootStart _ hclk, hreg]

/-! ### Resets without a directory -/

theorem noDirectory_resetDevice {s : State} (h : NoDirectory s.theham) (cause : ResetCause) :
    NoDirectory (s.resetDevice cause).theham := by
  rw [(s.resetDevice_cleared cause).1.flash]
  exact ⟨h.toBoot, h.slotA, h.slotB⟩

/-- A power-on reset ends in recovery, with the package halted where the whistle's input is 1. -/
theorem powerOnReset_row {s : State} (h : NoDirectory s.theham) (b : BootInput) :
    ∃ t, exec (.powerOnReset b) s = .next t ∧ t.jobs = [] ∧ t.fab = {} ∧ t.hbm = [] ∧ t.pkgHalt = s.flag whistleReg 5 ∧ t.disp = {} ∧
      t.fld (PageKind.dev.at 0x44) 1 0 = 2 := by
  obtain ⟨p, hpower, hinput, hrunning, htheham⟩ := s.resetPower_eq
  obtain ⟨hcleared, hhalted⟩ := p.resetDevice_cleared .powerOn
  have hrecovery := boot_recovery (noDirectory_resetDevice (s := p) (htheham ▸ h) .powerOn) b
  rw [← hpower] at hcleared hhalted hrecovery
  rw [hinput, hrunning, Bool.or_false] at hhalted
  have hframe := hrecovery.frame
  refine ⟨_, rfl, ?_, ?_, ?_, ?_, ?_, ?_⟩
  · rw [scoreAdd_jobs]; exact hframe.jobs.trans hcleared.jobs
  · rw [scoreAdd_fab]; exact hframe.fab.trans hcleared.fab
  · rw [scoreAdd_hbm]; exact hframe.hbm.trans hcleared.hbm
  · rw [scoreAdd_pkgHalt]; exact hframe.pkgHalt.trans hhalted
  · rw [scoreAdd_disp]; exact hframe.disp.trans hcleared.disp
  · rw [fld_eq_of_reg_eq (reg_scoreAdd ..)]; exact hrecovery.stage

theorem exec_deviceReset {cause : ResetCause} (h : cause ≠ .powerOn) (b : BootInput) (s : State) :
    exec (.deviceReset cause b) s = .next ((s.resetDevice cause).boot b) := by
  cases cause
  case powerOn => exact absurd rfl h
  case pin => rfl
  case cmd => rfl

theorem rstCause_mod {cause : ResetCause} (h : cause ≠ .powerOn) (trip : Bool) :
    rstCause cause trip % 8 = if cause = .pin then 2 else 4 := by
  cases cause
  case powerOn => exact absurd rfl h
  case pin => cases trip <;> rfl
  case cmd => cases trip <;> rfl

/-- A device reset ends in recovery and keeps the TAP, the trace encoder, host memory, the package halt and the owner. -/
theorem deviceReset_row {s : State} {cause : ResetCause} (hcause : cause ≠ .powerOn) (hinput : s.flag whistleReg 5 = false)
    (h : NoDirectory s.theham) (b : BootInput) :
    ∃ t, exec (.deviceReset cause b) s = .next t ∧ t.jobs = [] ∧ t.fab = {} ∧ t.hbm = [] ∧ t.disp = {} ∧ t.cap = {} ∧
      t.tap = { s.tap with refused := s.tap.refused || [3, 4, 5, 6, 7].contains s.tap.ir } ∧ t.trace = s.trace ∧
      t.hostMem = s.hostMem ∧ t.pkgHalt = s.pkgHalt ∧ t.theham.owner = s.theham.owner ∧
      t.fld (dbgAt 0x44) 2 0 = 0 ∧ t.fld (PageKind.dev.at 0x44) 1 0 = 2 ∧
      t.fld (PageKind.rst.at 0x40) 2 0 = (if cause = .pin then 2 else 4) := by
  obtain ⟨hcleared, hhalted⟩ := s.resetDevice_cleared cause
  have hkept := resetDevice_kept hinput cause
  obtain ⟨hframe, hstage, hreg⟩ := boot_recovery (noDirectory_resetDevice h cause) b
  have howner : (s.resetDevice cause).theham.owner = s.theham.owner := by rw [hcleared.flash]; rfl
  refine ⟨_, exec_deviceReset hcause b s, hframe.jobs.trans hcleared.jobs, hframe.fab.trans hcleared.fab,
    hframe.hbm.trans hcleared.hbm, hframe.disp.trans hcleared.disp, hframe.cap.trans hkept.cap,
    hframe.tap.trans (congrArg scanRefused hkept.tap), hframe.trace.trans hkept.trace, hframe.hostMem.trans hkept.hostMem,
    hframe.pkgHalt.trans ?_, hframe.owner.trans howner, ?_, hstage, ?_⟩
  · exact hhalted.trans (by rw [hinput, Bool.false_or])
  · rw [fld_eq_of_reg_eq (hreg _ (by decide) (by decide) (by decide) (by decide)), hkept.locked]
  · rw [← rstCause_mod hcause s.pins.trip, ← hkept.cause]
    exact fld_eq_of_reg_eq (hreg _ (by decide) (by decide) (by decide) (by decide)) ..

/-! ### RST_CMD (R505) -/

/-- What RST_CMD does once its write has reached the register: only the key resets the device. -/
def resetOnKey (key : Word) (b : BootInput) (s : State) : State :=
  if key.toNat % 2 ^ 16 = 0xA5C3 then (s.resetDevice .cmd).boot b else s

theorem exec_rstCmd {s : State} {rq : Requester} (h : s.Admits rq (PageKind.rst.at 0x44)) (key : Word) (b : BootInput) :
    exec (.rstCmd rq key b) s = .next (resetOnKey key b (s.crossReg rq (PageKind.rst.at 0x44) true)) := by
  have hkey : natBits key.toNat 15 0 = key.toNat % 2 ^ 16 := by simp [natBits]
  have hexec : exec (.rstCmd rq key b) s = .next (s.inTurn rq (PageKind.rst.at 0x44) 32 (key.setWidth 64) true fun t =>
      t.reach rq (PageKind.rst.at 0x44) true fun t => t.writeGate rq (PageKind.rst.at 0x44) fun t =>
        if natBits key.toNat 15 0 = 0xA5C3 then (t.resetDevice .cmd).boot b else t) := rfl
  simp only [hexec, hkey, inTurn_of_admits h, reach_of_admits h, writeGate_of_admits h, resetOnKey]

theorem keptRegs_noc (s : State) (n : Noc) : ({ s with noc := n }).keptRegs = s.keptRegs := by
  unfold keptRegs
  rfl

/-- A reset keeps nothing of the traffic on its way. -/
theorem resetDevice_crossReg (s : State) (rq : Requester) (addr : Nat) (write : Bool) (cause : ResetCause) :
    (s.crossReg rq addr write).resetDevice cause = s.resetDevice cause := by
  obtain ⟨n, hcross⟩ := s.crossReg_eq rq addr write
  have hfld : ∀ a hi lo, ({ s with noc := n }).fld a hi lo = s.fld a hi lo := fun _ _ _ => rfl
  have hflag : ∀ a i, ({ s with noc := n }).flag a i = s.flag a i := fun _ _ => rfl
  unfold resetDevice
  simp only [hcross, keptRegs_noc, hfld, hflag]

theorem rstCmd_row {s : State} {rq : Requester} (h : s.Admits rq (PageKind.rst.at 0x44)) (key : Word) (b : BootInput) :
    (key.toNat % 2 ^ 16 ≠ 0xA5C3 → exec (.rstCmd rq key b) s = .next (s.crossReg rq (PageKind.rst.at 0x44) true)) ∧
    (key.toNat % 2 ^ 16 = 0xA5C3 → ∃ t, exec (.rstCmd rq key b) s = .next t ∧ exec (.deviceReset .cmd b) s = .next t) := by
  rw [exec_rstCmd h]
  refine ⟨fun hkey => by rw [resetOnKey, if_neg hkey], fun hkey => ⟨_, ?_, exec_deviceReset (by decide) b s⟩⟩
  rw [resetOnKey, if_pos hkey, resetDevice_crossReg]

end State

open State in
/-- Settles O26: each reset as what it clears and keeps, followed by a boot that finds no directory and serves in recovery. -/
theorem resetRows : Obligations.ResetRows := by
  unfold Obligations.ResetRows
  refine ⟨fun s b htoBoot hA hB => powerOnReset_row ⟨htoBoot, hA, hB⟩ b,
    fun s b cause hcause hinput htoBoot hA hB => deviceReset_row hcause hinput ⟨htoBoot, hA, hB⟩ b,
    fun s rq key b h => rstCmd_row h key b⟩

end Sys2Proof.Machine
end

section
/-! The rows of a cluster's wide arithmetic unit and of its bank ports (R138 to R158): each row enters its unit's effects, and
what those effects are. -/

namespace Sys2Proof.Machine
namespace State
variable {s : State} {cl unit j : Nat}

/-! ### A unit that has not acted enters its effects (R59) -/

theorem stage_eq_entered (h : s.fab.staged.all (fun u => u.1 != unit) = true) (xs : List Effect) :
    s.stage unit xs = s.entered unit xs := by
  have hfresh : s.fab.staged.any (fun u => u.1 == unit) = false := by simpa using h
  rw [stage, hfresh]
  rfl

theorem act_eq_entered (h : s.Executes cl unit j) (effects : Nat → List Effect) :
    s.act cl unit effects = s.entered unit (effects j) := by
  have hjob : s.jobIn (cl / 64) .run = some j := by rw [jobIn, if_pos h.running, h.job]
  simp only [act, hjob, h.cluster, if_true, stage_eq_entered h.fresh]

/-! ### WAU issues (R139, R142) -/

/-- The operation that the segment's control word issues in the position, with its operand pair as it stands. -/
def namedIssue (s : State) (cl op j : Nat) (res : Option Dword) : WauOp :=
  let cw := s.control cl (s.seq (cl / 64)).k
  ⟨op, cw.opnd, (s.job j).e, s.wauA cl cw.opnd, s.wauB cl cw.opnd, res⟩

/-- The state in which issuing `o` is entered: the issue, its count and its opcode's mark (R151). -/
def enteredIssue (s : State) (cl : Nat) (o : WauOp) : State :=
  s.entered (clUnit cl o.op) [.wauIssue cl o, .cycAdd (cl * 16 + 1) 1, .cycOr (cl * 16 + 2) (2 ^ o.op)]

theorem wauP_of_add64 {o : WauOp} (h : o.op = 1) : s.wauP cl o = if o.opnd % 2 = 1 then o.a - o.b else o.a + o.b := by
  rw [wauP, h]
  rfl

section
variable {op : Nat} (h : s.Executes cl (clUnit cl op) j) (hop : (s.control cl (s.seq (cl / 64)).k).wauOp = op) (hne : op ≠ 0)
include h hop hne

theorem wauAct_of_latency_one (hlat : wauLatency op = 1) {v : Dword} (hv : s.wauP cl (s.namedIssue cl op j none) = v) :
    s.wauAct cl op = s.enteredIssue cl (s.namedIssue cl op j (some v)) := by
  subst hv
  simp only [wauAct, act_eq_entered h, wauIssueEffects, hop, hne, hlat, ne_eq, not_false_eq_true, and_self, if_true]
  rfl

theorem wauAct_of_latency_ne_one (hlat : wauLatency op ≠ 1) :
    s.wauAct cl op = s.enteredIssue cl (s.namedIssue cl op j none) := by
  simp only [wauAct, act_eq_entered h, wauIssueEffects, hop, hne, hlat, ne_eq, not_false_eq_true, and_self, if_true, if_false]
  rfl

end

/-! ### WAU results (R139) -/

theorem wauDone_mem_wauDoneEffects {e : Nat} {o : WauOp} (ho : o ∈ s.pipeOf cl) (hres : o.res = none) (hpos : o.pos + wauLatency o.op = e + 1) :
    .wauDone cl o.pos (s.wauP cl o) ∈ s.wauDoneEffects cl e :=
  List.mem_flatMap.2 ⟨o, List.mem_filter.2 ⟨ho, by simp [hres, hpos]⟩, List.mem_cons_self⟩

theorem setOr_mem_wauDoneEffects {e : Nat} {o : WauOp} (ho : o ∈ s.pipeOf cl) (hres : o.res = none) (hpos : o.pos + wauLatency o.op = e + 1)
    {v : Dword} (hwrite : s.wauWriteB cl o = some v) :
    .setOr (cl * 8 + 2 * pairOf o.opnd + 1) v ∈ s.wauDoneEffects cl e := by
  refine List.mem_flatMap.2 ⟨o, List.mem_filter.2 ⟨ho, by simp [hres, hpos]⟩, ?_⟩
  simp [hwrite]

theorem execWauResult_eq_entered (hcl : cl < 4096) (hstate : (s.seq (cl / 64)).state = .run ∨ (s.seq (cl / 64)).state = .pad)
    (hjob : s.jobOfSeg (cl / 64) = some j) (hfresh : s.fab.staged.all (fun u => u.1 != clUnit cl 8) = true) :
    execWauResult cl s = .next (s.entered (clUnit cl 8) (s.wauDoneEffects cl (s.job j).e)) := by
  simp only [execWauResult, hstate, hjob, hcl, if_true, stage_eq_entered hfresh]

/-! ### Bank ports and WAU loads (R140, R156, R157, R238) -/

theorem staticEffects_of_op {b op : Nat} (hne : op ≠ 0) (hop : (s.control cl (s.seq (cl / 64)).k).bankOp.getD b 0 = op) :
    let w := s.staticAddr cl (s.control cl (s.seq (cl / 64)).k) b
    s.staticEffects j (cl / 64) cl b op = .cycAdd (cl * 16 + 3) 1 ::
      (if op = 1 then s.bankReadEffects j (cl * 4 + b) w 0
       else if (s.job j).writesSuppressed then []
       else if op = 2 then [.bankWrite (cl * 4 + b) w (s.gather j (cl / 64) cl)]
       else [.bankWrite (cl * 4 + b) w (s.wauResult cl (s.job j).e)]) := by
  simp only [staticEffects, hop, hne, ne_eq, not_false_eq_true, and_self, if_true]

theorem wauPortEffects_of_ldSrc {b : Nat} (h : (s.control cl (s.seq (cl / 64)).k).ldSrc = 3 + b) :
    s.wauPortEffects j (cl / 64) cl b = s.bankReadEffects j (cl * 4 + b) (s.ocr cl (b + 4)) 1 ++
      [.setOr (cl * 8 + (s.control cl (s.seq (cl / 64)).k).ldDst)
        ((s.bankRead (cl * 4 + b) (s.ocr cl (b + 4))).1).delivered, .cycAdd (cl * 16 + 3) 1] := by
  simp only [wauPortEffects, h, if_true]

theorem wauLoadEffects_gather (h : (s.control cl (s.seq (cl / 64)).k).ldSrc = 1) : s.wauLoadEffects j (cl / 64) cl =
    [.setOr (cl * 8 + (s.control cl (s.seq (cl / 64)).k).ldDst) (s.gather j (cl / 64) cl)] := by
  simp only [wauLoadEffects, h]

theorem wauLoadEffects_result (h : (s.control cl (s.seq (cl / 64)).k).ldSrc = 2) : s.wauLoadEffects j (cl / 64) cl =
    [.setOr (cl * 8 + (s.control cl (s.seq (cl / 64)).k).ldDst) (s.wauResult cl (s.job j).e)] := by
  simp only [wauLoadEffects, h]

theorem wauLoadEffects_return (h : (s.control cl (s.seq (cl / 64)).k).ldSrc = 7) : s.wauLoadEffects j (cl / 64) cl =
    [.setOr (cl * 8 + (s.control cl (s.seq (cl / 64)).k).ldDst) (s.returnData cl (s.control cl (s.seq (cl / 64)).k).waitQ)] := by
  simp only [wauLoadEffects, h]

end State

open State

/-- Settles O4: every issue enters the operation; ADD64, EXPX and CLZ64, of one position, with the result. -/
theorem wauIssueRowsEnterTheirEffects : Obligations.WauIssueRowsEnterTheirEffects := by
  unfold Obligations.WauIssueRowsEnterTheirEffects
  intro s cl op j h
  extract_lets cw a b issue
  intro hop
  refine ⟨?_, ?_, ?_, ?_, ?_, ?_, ?_⟩ <;> rintro rfl
  · exact congrArg Host.Outcome.next (wauAct_of_latency_one h hop (by decide) rfl (wauP_of_add64 rfl))
  · exact congrArg Host.Outcome.next (wauAct_of_latency_ne_one h hop (by decide) (by decide))
  · exact congrArg Host.Outcome.next (wauAct_of_latency_ne_one h hop (by decide) (by decide))
  · exact congrArg Host.Outcome.next (wauAct_of_latency_ne_one h hop (by decide) (by decide))
  · exact congrArg Host.Outcome.next (wauAct_of_latency_ne_one h hop (by decide) (by decide))
  · exact congrArg Host.Outcome.next (wauAct_of_latency_one h hop (by decide) rfl rfl)
  · exact congrArg Host.Outcome.next (wauAct_of_latency_one h hop (by decide) rfl rfl)

/-- Settles O5: WAU_RESULT enters the results that end with the next position, in RUN and in PAD. -/
theorem wauResultRowFormsResults : Obligations.WauResultRowFormsResults := by
  unfold Obligations.WauResultRowFormsResults
  intro s cl j hcl hstate hjob hfresh
  refine ⟨s.wauDoneEffects cl (s.job j).e, execWauResult_eq_entered hcl hstate hjob hfresh, fun o ho hres hpos => ?_⟩
  have hdone := wauDone_mem_wauDoneEffects ho hres hpos
  have hset := fun v => setOr_mem_wauDoneEffects ho hres hpos (v := v)
  obtain ⟨op, opnd, pos, a, b, res⟩ := o
  refine ⟨?_, ?_, ?_, ?_⟩ <;> rintro rfl
  · exact hdone
  · exact ⟨hdone, hset _ rfl⟩
  · exact ⟨hdone, hset _ rfl⟩
  · exact ⟨hdone, hset _ rfl⟩

/-- Settles O6: each bank and load row enters the effects of its unit, under the control word that asks for it. -/
theorem bankAndLoadRowsEnterTheirEffects : Obligations.BankAndLoadRowsEnterTheirEffects := by
  unfold Obligations.BankAndLoadRowsEnterTheirEffects
  intro s cl b j unit hb h
  extract_lets cw w x off count
  refine ⟨?_, ?_, ?_, ?_, ?_, ?_, ?_⟩ <;> rintro rfl hop
  · show execBankRead cl b s = _
    rw [execBankRead, if_pos hb, act_eq_entered h, staticEffects_of_op (by decide) hop]
    rfl
  · show execBankWriteGather cl b s = _
    rw [execBankWriteGather, if_pos hb, act_eq_entered h, staticEffects_of_op (by decide) hop]
    rfl
  · show execBankWriteResult cl b s = _
    rw [execBankWriteResult, if_pos hb, act_eq_entered h, staticEffects_of_op (by decide) hop]
    rfl
  · show execWauPortRead cl b s = _
    rw [execWauPortRead, if_pos hb, act_eq_entered h, wauPortEffects_of_ldSrc hop]
  · show execWauLoad cl s = _
    rw [execWauLoad, act_eq_entered h, wauLoadEffects_gather hop]
  · show execWauLoad cl s = _
    rw [execWauLoad, act_eq_entered h, wauLoadEffects_result hop]
  · show execWauLoad cl s = _
    rw [execWauLoad, act_eq_entered h, wauLoadEffects_return hop]

end Sys2Proof.Machine
end

section
/-! The arithmetic of the wide arithmetic unit (R143 to R146): the model's signed and unsigned fields as bit vectors, its
count of leading zeros as a number's length, and each result as an exact integer. -/

namespace Sys2Proof.Machine

/-! ### Fields of a word as bit vectors -/

theorem natBits_toNat (a : Dword) {w hi lo : Nat} (h : hi + 1 = lo + w) :
    natBits a.toNat hi lo = ((a >>> lo).setWidth w).toNat := by
  rw [natBits, BitVec.toNat_setWidth, BitVec.toNat_ushiftRight, Nat.shiftRight_eq_div_pow, h, Nat.add_sub_cancel_left]

theorem signedOf_toNat {w : Nat} (hw : 0 < w) (x : BitVec w) : signedOf w x.toNat = x.toInt := by
  obtain ⟨n, rfl⟩ : ∃ n, w = n + 1 := ⟨w - 1, by omega⟩
  have hhalf : x.toNat < 2 ^ n ↔ 2 * x.toNat < 2 ^ (n + 1) := by rw [Nat.pow_succ]; omega
  simp only [signedOf, Nat.mod_eq_of_lt x.isLt, BitVec.toInt_eq_toNat_cond, Nat.add_sub_cancel, hhalf]
  push_cast
  rfl

theorem signedOf_natBits (a : Dword) {w hi lo : Nat} (hw : 0 < w) (h : hi + 1 = lo + w) :
    signedOf w (natBits a.toNat hi lo) = ((a >>> lo).setWidth w).toInt := by
  rw [natBits_toNat a h, signedOf_toNat hw]

theorem unsignedOf_eq_toNat_ofInt (w : Nat) (z : Int) : unsignedOf w z = (BitVec.ofInt w z).toNat := by
  rw [unsignedOf, BitVec.toNat_ofInt, Int.natCast_pow]
  rfl

/-! ### MUL32, CMUL16 and MAC48 (R143 to R145) -/

theorem toNat_mul32Result_zero (a : Dword) : (mul32Result 0 a).toNat = (a.toNat % 2 ^ 32) * (a.toNat / 2 ^ 32) := by
  have hlow : natBits a.toNat 31 0 = a.toNat % 2 ^ 32 := by simp [natBits]
  have hhigh : natBits a.toNat 63 32 = a.toNat / 2 ^ 32 := Nat.mod_eq_of_lt (by omega)
  have hfits : (a.toNat % 2 ^ 32) * (a.toNat / 2 ^ 32) < 2 ^ 32 * 2 ^ 32 :=
    Nat.mul_lt_mul'' (Nat.mod_lt _ (by decide)) (by omega)
  simp only [mul32Result, hlow, hhigh, Nat.zero_mod, Nat.zero_ne_one, if_false, BitVec.toNat_ofNat]
  exact Nat.mod_eq_of_lt hfits

theorem toInt_mul32Result_one (a : Dword) :
    (mul32Result 1 a).toInt = (a.setWidth 32).toInt * ((a >>> 32).setWidth 32).toInt := by
  have hle : (a.setWidth 32).toInt * ((a >>> 32).setWidth 32).toInt ≤ 2 ^ 62 := BitVec.toInt_mul_toInt_le
  have hge : -2 ^ 62 ≤ (a.setWidth 32).toInt * ((a >>> 32).setWidth 32).toInt := BitVec.le_toInt_mul_toInt
  simp only [mul32Result, signedOf_natBits a (w := 32) (hi := 31) (lo := 0) (by decide) rfl,
    signedOf_natBits a (w := 32) (hi := 63) (lo := 32) (by decide) rfl, BitVec.ushiftRight_zero, Nat.mod_succ, if_true]
  exact BitVec.toInt_ofInt_eq_self (by decide) (by omega) (by omega)

/-- A sum of two products of 16-bit factors fits 64 bits. -/
theorem toInt_ofInt_of_products {p q z : Int} (hp : -2 ^ 30 ≤ p ∧ p ≤ 2 ^ 30) (hq : -2 ^ 30 ≤ q ∧ q ≤ 2 ^ 30)
    (hz : z = p + q ∨ z = p - q) : (BitVec.ofInt 64 z).toInt = z :=
  BitVec.toInt_ofInt_eq_self (by decide) (by omega) (by omega)

theorem product16_bounds (x y : BitVec 16) : -2 ^ 30 ≤ x.toInt * y.toInt ∧ x.toInt * y.toInt ≤ 2 ^ 30 :=
  ⟨BitVec.le_toInt_mul_toInt, BitVec.toInt_mul_toInt_le⟩

theorem toInt_cmul16Result (a : Dword) :
    let xr := (a.setWidth 16).toInt; let xi := ((a >>> 16).setWidth 16).toInt
    let yr := ((a >>> 32).setWidth 16).toInt; let yi := ((a >>> 48).setWidth 16).toInt
    (cmul16Result 0 a).1.toInt = xr * yr - xi * yi ∧ (cmul16Result 0 a).2.toInt = xr * yi + xi * yr ∧
    (cmul16Result 1 a).1.toInt = xr * yr + xi * yi ∧ (cmul16Result 1 a).2.toInt = xi * yr - xr * yi := by
  simp only [cmul16Result, signedOf_natBits a (w := 16) (lo := 0) (by decide) rfl, signedOf_natBits a (w := 16) (lo := 16) (by decide) rfl,
    signedOf_natBits a (w := 16) (lo := 32) (by decide) rfl, signedOf_natBits a (w := 16) (lo := 48) (by decide) rfl,
    BitVec.ushiftRight_zero, Nat.zero_mod, Nat.zero_ne_one, if_false, Nat.mod_succ, if_true]
  exact ⟨toInt_ofInt_of_products (product16_bounds ..) (product16_bounds ..) (.inr rfl),
    toInt_ofInt_of_products (product16_bounds ..) (product16_bounds ..) (.inl rfl),
    toInt_ofInt_of_products (product16_bounds ..) (product16_bounds ..) (.inl rfl),
    toInt_ofInt_of_products (product16_bounds ..) (product16_bounds ..) (.inr rfl)⟩

theorem toNat_mac48Result_zero (a acc : Dword) : (mac48Result 0 a acc).toNat =
    ((a.toNat % 2 ^ 24) * (a.toNat / 2 ^ 24 % 2 ^ 24) + acc.toNat % 2 ^ 48) % 2 ^ 48 := by
  have hx : natBits a.toNat 23 0 = a.toNat % 2 ^ 24 := by simp [natBits]
  have hacc : natBits acc.toNat 47 0 = acc.toNat % 2 ^ 48 := by simp [natBits]
  have hy : natBits a.toNat 47 24 = a.toNat / 2 ^ 24 % 2 ^ 24 := rfl
  simp only [mac48Result, hx, hy, hacc, Nat.zero_mod, Nat.zero_ne_one, if_false, ← Int.natCast_add, unsignedOf_eq_toNat_ofInt,
    BitVec.ofInt_natCast, BitVec.toNat_ofNat]
  exact Nat.mod_eq_of_lt (by omega)

theorem mac48Result_one (a acc : Dword) : mac48Result 1 a acc =
    ((BitVec.ofInt 48 ((a.setWidth 24).toInt * ((a >>> 24).setWidth 24).toInt) + acc.setWidth 48).signExtend 64) := by
  have hacc : BitVec.ofInt 48 (natBits acc.toNat 47 0 : Nat) = acc.setWidth 48 := by
    rw [natBits_toNat acc (w := 48) (lo := 0) rfl, BitVec.ofInt_natCast, BitVec.ofNat_toNat, BitVec.setWidth_eq, BitVec.ushiftRight_zero]
  simp only [mac48Result, signedOf_natBits a (w := 24) (hi := 23) (lo := 0) (by decide) rfl,
    signedOf_natBits a (w := 24) (hi := 47) (lo := 24) (by decide) rfl, BitVec.ushiftRight_zero, Nat.mod_succ, if_true,
    unsignedOf_eq_toNat_ofInt, signedOf_toNat (w := 48) (by decide), BitVec.ofInt_add, hacc]
  rfl

/-! ### Leading zeros (R146) -/

theorem leadingZeros_le (n v : Nat) : leadingZeros n v ≤ n := by
  induction n with
  | zero => exact Nat.le_refl 0
  | succ n ih =>
    rw [leadingZeros]
    split <;> omega

section
variable {n v : Nat} (h : v < 2 ^ n) (hv : v ≠ 0)
include h hv

/-- The leading zeros of a number of at most `n` bits, its highest one and the bits below that make up `n`. -/
theorem leadingZeros_add_log2 : leadingZeros n v + v.log2 + 1 = n := by
  induction n with
  | zero => exact absurd (Nat.lt_one_iff.1 h) hv
  | succ n ih =>
    rw [leadingZeros]
    by_cases hsmall : v < 2 ^ n
    · have hbit : ¬ v.testBit n = true := by rw [Nat.testBit_lt_two_pow hsmall]; decide
      have hsum := ih hsmall
      rw [if_neg hbit]
      omega
    · have hge := Nat.le_of_not_lt hsmall
      have hlog : v.log2 = n := (Nat.log2_eq_iff hv).2 ⟨hge, h⟩
      rw [if_pos (Nat.testBit_of_two_pow_le_and_two_pow_add_one_gt hge h), hlog, Nat.zero_add]

theorem leadingZeros_lt : leadingZeros n v < n := by
  have hsum := leadingZeros_add_log2 h hv
  omega

theorem log2_eq_sub_leadingZeros : v.log2 = n - 1 - leadingZeros n v := by
  have hsum := leadingZeros_add_log2 h hv
  omega

theorem two_pow_sub_leadingZeros_le : 2 ^ (n - 1 - leadingZeros n v) ≤ v := by
  rw [← log2_eq_sub_leadingZeros h hv]
  exact Nat.log2_self_le hv

theorem lt_two_pow_sub_leadingZeros : v < 2 ^ (n - leadingZeros n v) := by
  have hsum := leadingZeros_add_log2 h hv
  rw [show n - leadingZeros n v = v.log2 + 1 by omega]
  exact Nat.lt_log2_self

/-- The bit after a number's leading zeros is a one. -/
theorem testBit_leadingZeros : v.testBit (n - 1 - leadingZeros n v) = true := by
  rw [← log2_eq_sub_leadingZeros h hv]
  exact Nat.testBit_log2 hv

end

/-! ### CLZ64 and NORM64 option 0 (R146) -/

theorem toNat_clz64Result_zero (a : Dword) : (clz64Result 0 a).toNat = leadingZeros 64 a.toNat := by
  have hle := leadingZeros_le 64 a.toNat
  exact Nat.mod_eq_of_lt (show leadingZeros 64 a.toNat < 2 ^ 64 by omega)

theorem clz64Result_one_not (a : Dword) : clz64Result 1 (~~~a) = clz64Result 0 a := by
  simp only [clz64Result, BitVec.not_not, Nat.mod_succ, if_true, Nat.zero_mod, Nat.zero_ne_one, if_false]

theorem norm64Result_zero (a : Dword) : norm64Result 0 a = (a <<< leadingZeros 64 a.toNat, clz64Result 0 a) := rfl

theorem getLsbD_shiftLeft_leadingZeros {a : Dword} (h : a ≠ 0) : (a <<< leadingZeros 64 a.toNat).getLsbD 63 = true := by
  have hne : a.toNat ≠ 0 := fun h0 => h (BitVec.eq_of_toNat_eq h0)
  have hlt := leadingZeros_lt a.isLt hne
  rw [BitVec.getLsbD_shiftLeft, BitVec.getLsbD, testBit_leadingZeros a.isLt hne]
  simp only [show ¬ 63 < leadingZeros 64 a.toNat by omega, decide_false, Bool.not_false, Bool.and_true]
  rfl

/-! ### NORM64 option 1 (R146) -/

/-- The word that NORM64 option 1 counts the leading zeros of: the operand, inverted where it is negative. -/
def foldSign (a : Dword) : Dword := if a.getLsbD 63 then ~~~a else a

theorem toNat_foldSign_lt (a : Dword) : (foldSign a).toNat < 2 ^ 63 := by
  rw [foldSign]
  split
  next hneg =>
    have := BitVec.toNat_ge_of_msb_true (x := a) hneg
    rw [BitVec.toNat_not]
    omega
  next hpos => exact BitVec.toNat_lt_of_msb_false (eq_false_of_ne_true hpos)

theorem toNat_foldSign_ne_zero {a : Dword} (h0 : a ≠ 0) (h1 : a ≠ -1) : (foldSign a).toNat ≠ 0 := by
  intro h
  have hzero : foldSign a = 0 := BitVec.eq_of_toNat_eq h
  rw [foldSign] at hzero
  split at hzero
  next => exact h1 (by rw [← BitVec.not_not (b := a), hzero]; decide)
  next => exact h0 hzero

/-- The operand's value is the folded word's, or the inverse of it below zero. -/
theorem toInt_eq_foldSign (a : Dword) :
    a.toInt = (foldSign a).toNat ∨ a.toInt = -((foldSign a).toNat + 1) := by
  rw [foldSign, BitVec.toInt_eq_msb_cond]
  by_cases hneg : a.getLsbD 63 = true
  · right
    simp only [show a.msb = true from hneg, hneg, if_true, BitVec.toNat_not]
    omega
  · left
    simp only [show ¬ a.msb = true from hneg, hneg]
    rfl

theorem getLsbD_foldSign (a : Dword) {i : Nat} (hi : i < 64) : (foldSign a).getLsbD i = (a.getLsbD i ^^ a.getLsbD 63) := by
  rw [foldSign]
  split
  next hneg => rw [BitVec.getLsbD_not, hneg, Bool.xor_true, decide_eq_true hi, Bool.true_and]
  next hpos => rw [eq_false_of_ne_true hpos, Bool.xor_false]

/-- A left shift multiplies the value where the product fits. -/
theorem toInt_shiftLeft_eq_mul {a : Dword} {k : Nat} (hge : -2 ^ 63 ≤ a.toInt * 2 ^ k) (hlt : a.toInt * 2 ^ k < 2 ^ 63) :
    (a <<< k).toInt = a.toInt * 2 ^ k := by
  have hpow : BitVec.ofInt 64 (2 ^ k) = BitVec.twoPow 64 k := by
    rw [show (2 : Int) ^ k = (2 ^ k : Nat) by push_cast; rfl, BitVec.ofInt_natCast]
    exact BitVec.eq_of_toNat_eq (by rw [BitVec.toNat_ofNat, BitVec.toNat_twoPow])
  have hshift : a <<< k = BitVec.ofInt 64 (a.toInt * 2 ^ k) := by
    rw [BitVec.ofInt_mul, BitVec.ofInt_toInt, hpow, BitVec.shiftLeft_eq_mul_twoPow]
  rw [hshift]
  exact BitVec.toInt_ofInt_eq_self (by decide) hge hlt

/-- Option 1 shifts by `k`, where the folded word's highest one is bit 62 - k. -/
theorem norm64Result_one {a : Dword} (h0 : a ≠ 0) (h1 : a ≠ -1) : ∃ k < 63, norm64Result 1 a = (a <<< k, BitVec.ofNat 64 k) ∧
    (foldSign a).toNat < 2 ^ (63 - k) ∧ (foldSign a).toNat.testBit (62 - k) = true := by
  have hne := toNat_foldSign_ne_zero h0 h1
  have hlt := leadingZeros_lt (foldSign a).isLt hne
  have hbit := testBit_leadingZeros (foldSign a).isLt hne
  have hsmall := lt_two_pow_sub_leadingZeros (foldSign a).isLt hne
  have hsum := leadingZeros_add_log2 (foldSign a).isLt hne
  have hlog := (Nat.log2_lt hne).2 (toNat_foldSign_lt a)
  have hfold : (if a.getLsbD 63 then (~~~a).toNat else a.toNat) = (foldSign a).toNat := (apply_ite ..).symm
  obtain ⟨k, hk⟩ : ∃ k, leadingZeros 64 (foldSign a).toNat = k + 1 := ⟨leadingZeros 64 (foldSign a).toNat - 1, by omega⟩
  rw [hk] at hlt hbit hsmall
  refine ⟨k, by omega, ?_, by rwa [show 63 - k = 64 - (k + 1) by omega], by rwa [show 62 - k = 64 - 1 - (k + 1) by omega]⟩
  simp only [norm64Result, Nat.mod_succ, Nat.one_ne_zero, if_false, hfold, hk, show k + 1 ≠ 64 by omega, Nat.add_sub_cancel]

/-- A word whose folded word is below 2^(63 - k) may be shifted left by `k` without overflow. -/
theorem toInt_shiftLeft_of_foldSign_lt {a : Dword} {k : Nat} (hk : k < 63) (h : (foldSign a).toNat < 2 ^ (63 - k)) :
    (a <<< k).toInt = a.toInt * 2 ^ k := by
  have hpow : (2 : Int) ^ (63 - k) * 2 ^ k = 2 ^ 63 := by rw [← Int.pow_add, Nat.sub_add_cancel (by omega)]
  have hbound : ((foldSign a).toNat : Int) < 2 ^ (63 - k) := by exact_mod_cast h
  have hpos : (0 : Int) < 2 ^ k := Int.pow_pos (by decide)
  obtain ⟨hge, hlt⟩ : -2 ^ (63 - k) ≤ a.toInt ∧ a.toInt < 2 ^ (63 - k) := by
    rcases toInt_eq_foldSign a with h | h <;> omega
  have hge' := Int.mul_le_mul_of_nonneg_right hge (Int.le_of_lt hpos)
  have hlt' := Int.mul_lt_mul_of_pos_right hlt hpos
  rw [Int.neg_mul, hpow] at hge'
  rw [hpow] at hlt'
  exact toInt_shiftLeft_eq_mul hge' hlt'

/-- The folded word's highest one is where the operand's bits first differ from its sign. -/
theorem getLsbD_shiftLeft_of_foldSign {a : Dword} {k : Nat} (hk : k < 63) (hlt : (foldSign a).toNat < 2 ^ (63 - k))
    (hbit : (foldSign a).toNat.testBit (62 - k) = true) : (a <<< k).getLsbD 62 ≠ (a <<< k).getLsbD 63 := by
  have htop : (foldSign a).getLsbD (63 - k) = false := Nat.testBit_lt_two_pow hlt
  have hnext : (foldSign a).getLsbD (62 - k) = true := hbit
  rw [getLsbD_foldSign a (by omega)] at htop hnext
  have hdiffer : a.getLsbD (62 - k) ≠ a.getLsbD (63 - k) := fun heq => by
    rw [heq, htop] at hnext
    exact Bool.false_ne_true hnext
  simpa only [BitVec.getLsbD_shiftLeft, show ¬ 62 < k by omega, show ¬ 63 < k by omega, decide_false, Bool.not_false,
    Nat.reduceLT, decide_true, Bool.true_and] using hdiffer

/-! ### The obligation -/

theorem clz64_norm64_zero_of_ne_zero {a : Dword} (h : a ≠ 0) : let n := (clz64Result 0 a).toNat
    n < 64 ∧ 2 ^ (63 - n) ≤ a.toNat ∧ a.toNat < 2 ^ (64 - n) ∧ clz64Result 1 (~~~a) = clz64Result 0 a ∧
    norm64Result 0 a = (a <<< n, clz64Result 0 a) ∧ (norm64Result 0 a).1.getLsbD 63 = true := by
  have hne : a.toNat ≠ 0 := fun h0 => h (BitVec.eq_of_toNat_eq h0)
  rw [toNat_clz64Result_zero]
  exact ⟨leadingZeros_lt a.isLt hne, two_pow_sub_leadingZeros_le a.isLt hne, lt_two_pow_sub_leadingZeros a.isLt hne,
    clz64Result_one_not a, norm64Result_zero a, getLsbD_shiftLeft_leadingZeros h⟩

theorem norm64_one_exact {a : Dword} (h0 : a ≠ 0) (h1 : a ≠ -1) :
    (norm64Result 1 a).1.toInt = a.toInt * 2 ^ (norm64Result 1 a).2.toNat ∧
    (norm64Result 1 a).1.getLsbD 62 ≠ (norm64Result 1 a).1.getLsbD 63 := by
  obtain ⟨k, hk, heq, hlt, hbit⟩ := norm64Result_one h0 h1
  rw [heq, BitVec.toNat_ofNat, Nat.mod_eq_of_lt (by omega)]
  exact ⟨toInt_shiftLeft_of_foldSign_lt hk hlt, getLsbD_shiftLeft_of_foldSign hk hlt hbit⟩

/-- Settles O12: each result as the exact integer of its rule, from the lemma about that operation. -/
theorem wauArithmeticIsExact : Obligations.WauArithmeticIsExact := by
  unfold Obligations.WauArithmeticIsExact
  exact ⟨fun a b => ⟨rfl, rfl⟩, toNat_mul32Result_zero, toInt_mul32Result_one, toInt_cmul16Result, toNat_mac48Result_zero,
    mac48Result_one, fun a => clz64_norm64_zero_of_ne_zero, ⟨by decide, by decide⟩, fun a => norm64_one_exact⟩

end Sys2Proof.Machine
end
